-- ==== Sys2Proof/Word.lean ====
section
/-!
DEFINITION. Sys2Proof/Word.lean: the word types of the package (R15, R18) and their plainest arithmetic.
-/
namespace Sys2Proof

/-- A byte of memory, a record or a packet. -/
abbrev Byte := BitVec 8
/-- The 16-bit fields of records. -/
abbrev W16 := BitVec 16
/-- A BAR0 register, an NBU or core scalar register, an fp32 code. -/
abbrev W32 := BitVec 32
/-- A 64-bit field: an index address, a bus address, an external id. -/
abbrev W64 := BitVec 64

/-- The largest value of a saturating 32-bit event counter (R24 tables: saturates at 0xFFFF_FFFF). -/
def sat32Max : Nat := 0xFFFFFFFF

/-- Add `n` to a saturating 32-bit counter. -/
def satAdd (c : W32) (n : Nat) : W32 :=
  if c.toNat + n ≥ sat32Max then 0xFFFFFFFF#32 else BitVec.ofNat 32 (c.toNat + n)

/-- Bits `[lo + len - 1 : lo]` of a number. -/
def bitsOf (v lo len : Nat) : Nat := (v >>> lo) % 2 ^ len

/-- One bit of a number. -/
def bitOf (v i : Nat) : Bool := v.testBit i

/-- Ceiling division, `ceil(a / b)`. -/
def ceilDiv (a b : Nat) : Nat := (a + b - 1) / b

/-- A Bool as the bit 1 or 0. -/
def b2n (b : Bool) : Nat := if b then 1 else 0

/-- The raw errors that a step of a near-bank unit meets: local unit numbers, true where the check code corrects the error
(R211, R212), and a parity error of the thread's scratch area or lookup tables (R237). -/
structure RawErrs where
  units : List (Nat × Bool)
  parity : Bool
  deriving DecidableEq, Repr

/-- No raw error. -/
def RawErrs.none : RawErrs := ⟨[], false⟩

end Sys2Proof
end

