-- ==== Sys2Proof/Syntax.lean ====
section
/-!
DEFINITION. Sys2Proof/Syntax.lean: the commands of the block, one constructor for each row of the table of operations and
events, and the types of their operands.
-/
namespace Sys2Proof

/-- What a read of memory outside the package brings: the bytes, or none when the access ends in an error. -/
abbrev HostData := Option (List Byte)

/-- A hardware thread of a near-bank unit: partition, pseudo-channel, thread number (R194). -/
structure ThrId where
  part : Nat
  pc : Nat
  th : Nat
  deriving DecidableEq, Repr

/-- The scalar operations of a core (R137 table, class Scalar). -/
inductive ScalarFn where
  | add | sub | mul | divU | divS | remU | remS | and | or | xor | shl | shr | sar | cmpEq | cmpLt | cmpLtU
  deriving DecidableEq, Repr

/-- The conditions of a core's branch. -/
inductive BranchFn where
  | eq | ne | lt | ge | ltU | geU | always
  deriving DecidableEq, Repr

/-- A scalar instruction of a core (R136). -/
inductive ScalarOp where
  | alu (fn : ScalarFn) (sd sa sb : Nat)
  | aluImm (fn : ScalarFn) (sd sa : Nat) (imm : Int)
  | branch (fn : BranchFn) (sa sb : Nat) (target : Nat)
  | reserved
  deriving DecidableEq, Repr

/-- A plate access of a core (R137 table, R138): `bytes` 1 to 8 for a scalar register, 128 for a q register; `sx` says
whether a load extends the sign. -/
inductive PlateOp where
  | load (sd sa : Nat) (imm : Int) (bytes : Nat) (sx : Bool)
  | store (ss sa : Nat) (imm : Int) (bytes : Nat)
  | vload (qd sa : Nat) (imm : Int)
  | vstore (qs sa : Nat) (imm : Int)
  deriving DecidableEq, Repr

/-- Where a hand-off of a core goes (R137 table, class Hand-off): scores and ids to the selection request in `sa`, or the NBU
request (R214) at the plate address in `sd` to the near-bank unit that `sn` names: pseudo-channel in bits [5:0], partition in
[9:6]. -/
inductive HandTo where
  | sel (sa : Nat)
  | nbu (sd sn : Nat)
  deriving DecidableEq, Repr

/-- A plate access and the 8-byte words it reads, counted from 0, that have an error, true for a single-bit one (R139). -/
structure PlateRow where
  op : PlateOp
  ecc : List (Nat × Bool)
  deriving DecidableEq, Repr

/-- An object by its number, and the 32-byte units of the stacks in which a raw error has arisen, true for one that the check code
corrects (R209). -/
structure RawAt where
  n : Nat
  raw : List (Nat × Bool)
  deriving DecidableEq, Repr

/-- A selection request to close, whether its arrays meet a parity error (R278), and raw errors as in `RawAt`. -/
structure CloseAt where
  n : Nat
  parity : Bool
  raw : List (Nat × Bool)
  deriving DecidableEq, Repr

/-- A thread of a near-bank unit and the raw errors that its step meets. -/
structure ThrRaw where
  thr : ThrId
  errs : RawErrs
  deriving DecidableEq, Repr

/-- A thread of a near-bank unit whose request stops, and how many units it has fetched before its next boundary (R228). -/
structure ThrStop where
  thr : ThrId
  n : Nat
  deriving DecidableEq, Repr

/-- What scrub of a partition's extents finds: by extent, the retries, rebuilds and unrecoverable units of its reads (R408, R409). -/
structure ScrubAt where
  k : Nat
  found : List (Nat × Nat × Nat × Nat)
  deriving DecidableEq, Repr

/-- What boot stage FLASH finds: `next` extents and `luns` LUNs a partition (R401, R402); `factory`: blocks with a factory mark, by
partition, extent, position (R411); `gone`: log records, by partition and sequence number, that cannot be read (R409). -/
structure FlashFound where
  next : Nat
  luns : Nat
  factory : List (Nat × Nat × Nat)
  gone : List (Nat × Nat)
  deriving DecidableEq, Repr

/-- The header of a PTP message (R71): its sender, whether it uses an option that R71 does not list, and its message interval as a
power of two seconds. -/
structure PtpHead where
  source : Nat
  unlisted : Bool
  interval : Int
  deriving DecidableEq, Repr

/-- The element-wise operations of the vector unit (R137 table, class Vector). -/
inductive VecFn where
  | add | mul | fma | min | max
  deriving DecidableEq, Repr

/-- The comparisons into a mask register. -/
inductive CmpFn where
  | eq | lt | le
  deriving DecidableEq, Repr

/-- The reductions across lanes. -/
inductive RedFn where
  | sum | min | max
  deriving DecidableEq, Repr

/-- A vector instruction of a core (R137 table); formats are the tile codes of R155. -/
inductive VecOp where
  | elem (fn : VecFn) (fmt qd qa qb qc : Nat)
  | cmp (fn : CmpFn) (fmt md qa qb : Nat)
  | select (fmt qd qa qb ma : Nat)
  | convert (src dst qd qa : Nat)
  | reduce (fn : RedFn) (fmt sd qa : Nat)
  deriving DecidableEq, Repr

/-- The commands of the block: one constructor for each row of the table of operations and events. -/
inductive Instr where
  /-- POWER_ON_RESET (R610): VDD_AON rising or PWR_GOOD deasserting restarts the whole package, the always-on block included, with no flush. -/
  | powerOnReset (vddAon : Bool)
  /-- PACKAGE_RESET (R612): PERST_N asserting resets everything except the always-on block, after a hold-up flush when DPEN is 1. -/
  | packageReset
  /-- RST_CTL (R642): A write of 0xB1C1_0001 to RST_CTL starts a package reset; any other value has no effect. -/
  | rstCtl (v : W32)
  /-- PCIE_LINK_RESET (R610): A hot reset or data-link-layer link down resets the configuration space of every function, with the effects of R544. -/
  | pcieLinkReset
  /-- FUNCTION_LEVEL_RESET (R543): An FLR of VF k+1 frees its host queues, resets MBk, frees its BFT objects in VF memory and resets its MSI-X table. -/
  | functionLevelReset (k : Nat)
  /-- PF_FUNCTION_LEVEL_RESET (R544): An FLR of the PF resets MBG, the FUNC 1 host queues and PF-memory BFT objects, and clears VF Enable. -/
  | pfFunctionLevelReset
  /-- VF_ENABLE_CLEAR (R544): Clearing VF Enable applies the function level reset of R543 to every VF. -/
  | vfEnableClear
  /-- BOOT_START (R618): PERST_N deasserting with PWR_GOOD high, or the end of a flush, starts the boot ROM on Coelostat core 0. -/
  | bootStart
  /-- NOR_READ (R617): The ROM has read and verified the NOR image and either starts it, falls back to the other slot, or enters recovery. -/
  | norRead (present : Bool)
  /-- FW_START (R618): Firmware begins to run after a verified image, and COEL_STAT reads TRAINING. -/
  | fwStart
  /-- CLOCKS (R618): Boot stage CLOCKS ends when CD_COEL is raised and the die-to-die links are trained. -/
  | clocks (lanes : List (Nat × Nat × Nat))
  /-- HBM (R230): Boot stage HBM ends when the HBM PHYs are trained, memory is zeroed and the standard NBU kernels are loaded. -/
  | hbm (bad : List Nat)
  /-- FLASH (R428): Boot stage FLASH ends when the channels are trained, the extent map is rebuilt and the power-loss actions are done. -/
  | flash (bad : List Nat) (found : FlashFound)
  /-- RESTORE (R318): Boot stage RESTORE ends when the indexes are restored from the checkpoint and the log is replayed. -/
  | restore
  /-- READY (R621): Boot stage READY is reached, COEL_STAT reads READY and the trained partitions are SERVING. -/
  | ready
  /-- TRIAL_EXPIRED (R639): The 900 s trial timer expires before confirmation and requests a Coelostat restart that falls back. -/
  | trialExpired
  /-- ACTIVATION_WINDOW (R637): The activation window opens at its Meridian instant, and the Coelostat commits or abandons commands and reloads the new image as a trial. -/
  | activationWindow
  /-- ACTIVATED (R637): The new firmware has rebuilt its SRAM and written ACTIVATED to every enabled mailbox, and COEL_STAT reads READY. -/
  | activated
  /-- WATCHDOG_RESTART (R557): A core writes no heartbeat for 500 ms, and the watchdog resets the Coelostat cores and answers uncommitted commands BUSY. -/
  | watchdogRestart
  /-- COEL_RESTART (R557): The restarted Coelostat has rebuilt its SRAM, written the committed responses and sent COEL_RESTART to every enabled mailbox. -/
  | coelRestart
  /-- HOLDUP (R423): HOLDUP_N counts as asserted, and the package stops dispatch, aborts jobs and starts the flush. -/
  | holdup (asserted : Bool)
  /-- FLUSH_PART_DONE (R423): The final program of one flush part (log tail, journal tail or dirty-page map) ends, and the next part begins. -/
  | flushPartDone (k : Nat)
  /-- FLUSH_RECORD (R423): The flush record has been programmed, chip enables are deasserted and write protect is asserted. -/
  | flushRecord
  /-- PULSE_EDGE (R60): MER_SYNC is sampled high after low, and the counter takes a loaded or expected value or the pulse is ignored. -/
  | pulseEdge
  /-- MER_CLK_LOSS (R65): No MER_CLK_P edge for 100 ns, so loss is declared and the state leaves LOCKED. -/
  | merClkLoss
  /-- MER_SYNC_LOSS (R64): No pulse edge arrives within 2.05 µs of the expected one, so loss is declared. -/
  | merSyncLoss
  /-- HOLD_LIMIT (R68): Holdover time reaches HOLDLIM, the state becomes EXPIRED, and takeovers, publications and windows are held. -/
  | holdLimit
  /-- PTP_SYNC (R73): A PTP Sync message is taken by the servo, which may set or clear PTP_LOCK. -/
  | ptpSync (port : Nat) (domain : Nat) (head : PtpHead) (twoStep : Bool) (seqNo : Nat) (t1 : Nat) (sub : Nat)
  /-- PTP_ANNOUNCE (R71): A PTP Announce message feeds the best master clock algorithm. -/
  | ptpAnnounce (port : Nat) (domain : Nat) (head : PtpHead) (rank : List Nat)
  /-- PTP_DELAY_RESP (R71): A Delay_Resp message completes an end-to-end delay measurement. -/
  | ptpDelayResp (port : Nat) (domain : Nat) (head : PtpHead) (t4 : Nat)
  /-- ANNOUNCE_TIMEOUT (R73): Three announce intervals pass without an Announce, and PTP_LOCK clears. -/
  | announceTimeout
  /-- WATCH_END (R75): The counter reaches a multiple of the watch length, and every partition ends its watch. -/
  | watchEnd
  /-- TRANSIT_TAKEOVER (R474): A pending transit list takes over at its instant T. -/
  | transitTakeover
  /-- TRANSIT_WINDOW (R473): A window boundary of the current transit list is reached, and gates and maintenance activities change. -/
  | transitWindow (k : Nat)
  /-- EPOCH_PUBLISH (R81): An ARMED Ephemeris entry reaches its TIME and is published in all partitions, or is SKIPPED. -/
  | epochPublish
  /-- WHEEL_DRAIN (R470): At each µs the scheduler drains that wheel slot and refills its queues onto the active list. -/
  | wheelDrain (k : Nat)
  /-- BUCKET_MOVE (R470): At each multiple of 4,096 µs, the coming overflow bucket moves into the wheel slots. -/
  | bucketMove (k : Nat)
  /-- MER_NOW_LO (R89): A read of MER_NOW_LO returns the low half and latches MER_NOW_HI. -/
  | merNowLo
  /-- MER_PUB_LO (R89): A read of MER_PUB_LO returns the low half and latches MER_PUB_HI. -/
  | merPubLo
  /-- MER_STAT (R89): A W1C write clears the flag bits of MER_STAT. -/
  | merStat (v : W32)
  /-- MER_LATE_CNT (R24): A read of MER_LATE_CNT returns the late-publication count and clears it. -/
  | merLateCnt
  /-- MER_SKIP_CNT (R24): A read of MER_SKIP_CNT returns the skipped-entry count and clears it. -/
  | merSkipCnt
  /-- FCU_STAT (R590): A W1C write clears fault source bits, which set again while their cause holds. -/
  | fcuStat (w : Nat) (v : W32)
  /-- NBU_UE (R213): A W1C write clears uncorrectable-read bits of NBU_UEk_LO or NBU_UEk_HI. -/
  | nbuUe (k : Nat) (hi : Bool) (v : W32)
  /-- NBU_CE (R211): A read of NBU_CEk returns the corrected-read count and clears it. -/
  | nbuCe (k : Nat)
  /-- NBU_TRAPCNT (R258): A read of NBU_TRAPCNTk returns the trap count and clears it. -/
  | nbuTrapcnt (k : Nat)
  /-- NBU_TRAPCAUSE (R259): A W1C write clears trap cause bits. -/
  | nbuTrapcause (k : Nat) (v : W32)
  /-- FLS_HOLDSTAT (R425): A W1C write clears the ALARMS bits of FLS_HOLDSTAT. -/
  | flsHoldstat (v : W32)
  /-- FLS_UE (R409): A read of FLS_UEk returns the unrecoverable flash unit count and clears it. -/
  | flsUe (k : Nat)
  /-- ALM_DBDROP (R439): A read of ALM_DBDROPk returns the dropped doorbell count and clears it. -/
  | almDbdrop (k : Nat)
  /-- ALM_ORPHAN (R450): A read of ALM_ORPHANk returns the discarded completion count and clears it. -/
  | almOrphan (k : Nat)
  /-- ALM_MISS (R452): A read of ALM_MISSk returns the Almanac cache miss count and clears it. -/
  | almMiss (k : Nat)
  /-- SCH_FINDER (R107): A read of SCH_FINDERk returns the Finder fallback count and clears it. -/
  | schFinder (k : Nat)
  /-- SCH_FORGIVE (R479): A read of SCH_FORGIVEk returns the forgiveness count and clears it. -/
  | schForgive (k : Nat)
  /-- FAB_LINK (R488): A W1C write clears DOWNEV of a FAB_LINKn register. -/
  | fabLink (n : Nat) (v : W32)
  /-- BFT_RNR (R508): A read of BFT_RNR returns the RNR discard count and clears it. -/
  | bftRnr
  /-- BFT_BADPKT (R490): A read of BFT_BADPKT returns the bad packet count and clears it. -/
  | bftBadpkt
  /-- BFT_AUTHFAIL (R527): A read of BFT_AUTHFAIL returns the authentication failure count and clears it. -/
  | bftAuthfail
  /-- BFT_EVDROP (R516): A read of BFT_EVDROP returns the dropped event count and clears it. -/
  | bftEvdrop
  /-- BFT_ORPHAN (R520): A read of BFT_ORPHAN returns the discarded fabric completion count and clears it. -/
  | bftOrphan
  /-- BFT_DBDROP (R532): A read of BFT_DBDROP returns the rejected doorbell count and clears it. -/
  | bftDbdrop
  /-- COEL_WDCNT (R558): A read of COEL_WDCNT returns the watchdog restart count and clears it. -/
  | coelWdcnt
  /-- MBX_CFG (R550): A write of MBX_CFG enables or disables a mailbox; enabling with no command outstanding resets its indices. -/
  | mbxCfg (m : Nat) (v : W32)
  /-- MBX_DOORBELL (R549): A write of MBX_DOORBELL sets the request producer and response consumer indices, or is ignored and sets RINGERR. -/
  | mbxDoorbell (m : Nat) (v : W32)
  /-- MBX_STAT (R549): A W1C write clears RINGERR or EVLOST of MBX_STAT. -/
  | mbxStat (m : Nat) (v : W32)
  /-- ALM_DOORBELL (R439): A 64-bit write of ALM_DOORBELLk sets PIDX or CIDX of a queue, or is dropped and counted. -/
  | almDoorbell (k : Nat) (vf : Bool) (nbytes : Nat) (v : W64) (ringData : HostData)
  /-- SEND_RING_DOORBELL (R532): BFT_DOORBELL with RING 0 sets a connection's send ring producer index. -/
  | sendRingDoorbell (vf : Option Nat) (nbytes : Nat) (v : W64)
  /-- RECEIVE_RING_DOORBELL (R506): BFT_DOORBELL with RING 1 posts receive ring slots. -/
  | receiveRingDoorbell (vf : Option Nat) (nbytes : Nat) (v : W64)
  /-- ERROR_RING_DOORBELL (R516): BFT_DOORBELL with RING 2 returns error ring entries. -/
  | errorRingDoorbell (vf : Option Nat) (nbytes : Nat) (v : W64)
  /-- EVENT_RING_DOORBELL (R516): BFT_DOORBELL with RING 3 returns PD event ring entries. -/
  | eventRingDoorbell (vf : Option Nat) (nbytes : Nat) (v : W64)
  /-- SB_FUNC (R651): A write of SB_FUNC changes pin functions and makes the changed pins inert for 125 ns. -/
  | sbFunc (v : W32)
  /-- SB_INERT_END (R651): A pin's 4-cycle inert interval ends, and the new function drives it. -/
  | sbInertEnd (n : Nat)
  /-- DBG_INJECT (R673): While INJ_EN is 1, a write of DBG_INJECT sets a fault source as its cause would. -/
  | dbgInject (v : W32)
  /-- REGISTER_WRITE (R663): A write to a register with no row of its own stores an RW value, or has no effect on RO and unlisted offsets. -/
  | registerWrite (func : Nat) (off : Nat) (size : Nat) (v : W64)
  /-- TAP_INSTRUCTION (R654): An instruction is loaded into the JTAG TAP, with EXTEST forms taking effect only while PERST_N is asserted. -/
  | tapInstruction (ir : BitVec 8) (ext : Bool)
  /-- THERMTRIP (R607): A die reaches 115 °C, and THERMTRIP_N latches and the package enters the safe state. -/
  | thermtrip (d : Nat) (t : Nat)
  /-- THROTTLE (R606): A die reaches 105 °C, and its domains are lowered step by step. -/
  | throttle (d : Nat) (t : Nat)
  /-- THROTTLE_STEP (R606): Every 100 µs a throttled domain is lowered or raised by 1/16 of nominal. -/
  | throttleStep (d : Nat) (t : Nat) (amps : Nat)
  /-- CURRENT_LIMIT (R606): VDD_CORE current above 330 A throttles the search die's CD_CORE. -/
  | currentLimit (d : Nat) (amps : Nat)
  /-- HBM_TEMP (R606): A stack reaches 95 °C, and its NBUs halve their fetch rate. -/
  | hbmTemp (k : Nat) (t : Nat)
  /-- UNDERVOLT (R608): A rail below 90 % for 1 µs sets UNDERVOLT, and the package enters the safe state. -/
  | undervolt (rail : Nat)
  /-- RAIL_FAULT (R656): A rail outside ±5 % for 10 µs sets RAIL_FAULT. -/
  | railFault (rail : Nat)
  /-- DOMAIN_POWER (R581): A partition power domain loses power-good while switched on, and the partition is fenced. -/
  | domainPower (k : Nat)
  /-- PCIE_REFCLK_LOSS (R649): PCIE_REFCLK has no edge for 1 µs, so the core PLLs switch to CD_HOLD and the PCIe link drops. -/
  | pcieRefclkLoss
  /-- FAB_REFCLK_LOSS (R649): FAB_REFCLK has no edge for 1 µs, and every fabric link is declared down. -/
  | fabRefclkLoss
  /-- LANE_FAIL (R600): A die-to-die lane fails, and its module is repaired onto a spare, goes to half width or goes down. -/
  | laneFail (l : Nat) (m : Nat) (lane : Nat)
  /-- D2D_DOWN (R601): A die-to-die link goes down, and transfers take alternative routes. -/
  | d2dDown (l : Nat)
  /-- MARGIN_MEASURE (R603): A periodic margin measurement completes and sets its source when the value is below the set point. -/
  | marginMeasure (kind : Nat) (idx : Nat) (value : Int)
  /-- SAFE_STATE_FLASH_IDLE (R596): Flash operations under way end, chip enables are deasserted and clocks are gated. -/
  | safeStateFlashIdle
  /-- FENCE_POWER_OFF (R584): The fenced partition's flash operations have ended, and its power domain is switched off. -/
  | fencePowerOff (k : Nat)
  /-- FENCE_COMPLETIONS (R130): The I/O die writes the completions of the fenced partition's dispatched jobs, and the FENCE event is written. -/
  | fenceCompletions (k : Nat)
  /-- UNFENCE (R588): The unfence steps end, the UNFENCE event is written and the partition becomes SERVING. -/
  | unfence (k : Nat)
  /-- ENTROPY_READY (R623): The entropy source passes its start-up tests, and keyed commands are served. -/
  | entropyReady
  /-- ENTROPY_FAIL (R624): A continuous health test fails, and the start-up tests run again. -/
  | entropyFail
  /-- MBX_REQUEST_TAKE (R547): The front end takes a request slot once room and credit allow, and copies it. -/
  | mbxRequestTake (m : Nat) (slot : HostData)
  /-- CMD_START (R552): A free Coelostat core takes the next command in mailbox rotation, subject to ordering. -/
  | cmdStart (core : Nat)
  /-- DEFERRED_START (R568): At a watch end with no short partition, a deferred command enters the command queue. -/
  | deferredStart
  /-- DP_ENABLE (R621): Sets DPEN and begins serving. -/
  | dpEnable (core : Nat) (host : HostData)
  /-- PKG_STATUS (R563): Returns identity, fence mask, Coelostat state, firmware version and digest. -/
  | pkgStatus (core : Nat) (host : HostData)
  /-- CORE_STATUS (R143): Returns a partition's kernel traps, stray entries and loaded kernels and networks. -/
  | coreStatus (core : Nat) (host : HostData)
  /-- CMD_RESULT (R571): Returns the result table entry of a TOKEN. -/
  | cmdResult (core : Nat) (host : HostData)
  /-- MER_LOAD_NEXT (R56): Loads the rack time of the next pulse edge and returns MT_RECV. -/
  | merLoadNext (core : Nat) (host : HostData)
  /-- MER_CONFIG (R89): Writes MER_CFG. -/
  | merConfig (core : Nat) (host : HostData)
  /-- PTP_CONFIG (R72): Sets the PTP domain and the PTP time offset. -/
  | ptpConfig (core : Nat) (host : HostData)
  /-- EPH_WRITE (R84): Writes an Ephemeris slot. -/
  | ephWrite (core : Nat) (host : HostData)
  /-- EPH_READ (R79): Returns up to 14 Ephemeris slots. -/
  | ephRead (core : Nat) (host : HostData)
  /-- QUE_CREATE (R448): Creates a FREE queue entry, ENABLED or PAUSED. -/
  | queCreate (core : Nat) (host : HostData)
  /-- QUE_MODIFY (R448): Changes the modifiable RO fields of a queue entry. -/
  | queModify (core : Nat) (host : HostData)
  /-- QUE_PAUSE (R448): Pauses an ENABLED queue. -/
  | quePause (core : Nat) (host : HostData)
  /-- QUE_RESUME (R448): Resumes a PAUSED queue. -/
  | queResume (core : Nat) (host : HostData)
  /-- QUE_DESTROY (R448): Moves a queue to DRAINING, or to FREE when nothing is outstanding. -/
  | queDestroy (core : Nat) (host : HostData)
  /-- QUE_RESET (R449): Frees a queue and aborts its jobs or discards its waiting completions. -/
  | queReset (core : Nat) (host : HostData)
  /-- QUE_READ (R430): Returns an Almanac entry and its GEN. -/
  | queRead (core : Nat) (host : HostData)
  /-- QRY_ABORT (R125): Marks a query or ingest slot for abort, or answers BUSY or TOO_LATE. -/
  | qryAbort (core : Nat) (host : HostData)
  /-- SHP_SET (R471): Refills and sets a shaper's RATE and BURST, clamping TOKENS. -/
  | shpSet (core : Nat) (host : HostData)
  /-- SHP_READ (R468): Returns a shaper entry after a refill. -/
  | shpRead (core : Nat) (host : HostData)
  /-- TRN_WRITE (R474): Writes a pending transit list, or answers TRN_FULL. -/
  | trnWrite (core : Nat) (host : HostData)
  /-- TRN_READ (R472): Returns the current or a pending transit list. -/
  | trnRead (core : Nat) (host : HostData)
  /-- BUD_SET (R478): Sets watch budgets from the next counter value. -/
  | budSet (core : Nat) (host : HostData)
  /-- BUD_READ (R476): Returns the 45 budgets with use, debt and age. -/
  | budRead (core : Nat) (host : HostData)
  /-- IDX_LOAD (R282): Loads or replaces an index and copies its descriptor, Derotator block and centroids. -/
  | idxLoad (core : Nat) (host : HostData)
  /-- IDX_UNLOAD (R283): Unloads an index handle. -/
  | idxUnload (core : Nat) (host : HostData)
  /-- IDX_TIER (R385): Sets the cache-tier layout of an index handle. -/
  | idxTier (core : Nat) (host : HostData)
  /-- IDX_COMPACT (R310): Queues piece compaction of one cluster or all clusters of a partition. -/
  | idxCompact (core : Nat) (host : HostData)
  /-- EPOCH_RETAIN (R308): Raises the oldest retained epoch. -/
  | epochRetain (core : Nat) (host : HostData)
  /-- CKPT_CONFIG (R317): Sets the checkpoint interval, or starts one checkpoint now. -/
  | ckptConfig (core : Nat) (host : HostData)
  /-- FLT_LOAD (R294): Sets residency bits of a range of filters. -/
  | fltLoad (core : Nat) (host : HostData)
  /-- FLT_DROP (R294): Clears residency bits of a range of filters. -/
  | fltDrop (core : Nat) (host : HostData)
  /-- FLT_EDIT (R296): Sets or clears filter bits of items named by external id through BITMAP requests. -/
  | fltEdit (core : Nat) (host : HostData)
  /-- ETAB_LOAD (R349): Loads or replaces an embedding table. -/
  | etabLoad (core : Nat) (host : HostData)
  /-- POOL_CONFIG (R350): Sets the pooling mode and PFDEPTH. -/
  | poolConfig (core : Nat) (host : HostData)
  /-- KRN_LOAD (R573): Loads or empties a custom kernel slot in every unfenced core. -/
  | krnLoad (core : Nat) (host : HostData)
  /-- NBU_LOAD (R253): Loads the NBU program image into every unfenced partition's NBUs. -/
  | nbuLoad (core : Nat) (host : HostData)
  /-- RNET_LOAD (R573): Loads or unloads a re-scoring network. -/
  | rnetLoad (core : Nat) (host : HostData)
  /-- IAS_ALLOC (R369): Allocates index address space pages as ZERO, creating second-level tables as needed. -/
  | iasAlloc (core : Nat) (host : HostData)
  /-- IAS_FREE (R367): Frees pages to UNMAPPED and releases their frames and flash copies. -/
  | iasFree (core : Nat) (host : HostData)
  /-- IAS_WRITE (R375): Writes host bytes into the index address space. -/
  | iasWrite (core : Nat) (host : HostData)
  /-- IAS_READ (R375): Reads index address space bytes into the host buffer. -/
  | iasRead (core : Nat) (host : HostData)
  /-- IAS_ATTR (R390): Clears and sets PIN, DISCARD and PLATE attributes of pages. -/
  | iasAttr (core : Nat) (host : HostData)
  /-- TIER_CONFIG (R373): Sets MIGRES, the spill low mark and the idle watches. -/
  | tierConfig (core : Nat) (host : HostData)
  /-- TIER_STATUS (R375): Returns a partition's tier counters. -/
  | tierStatus (core : Nat) (host : HostData)
  /-- FLS_CONFIG (R574): Sets the flash cell-mode pair and the media management parameters. -/
  | flsConfig (core : Nat) (host : HostData)
  /-- FLS_STATUS (R575): Returns a partition's flash counters and DURABLE_TAG. -/
  | flsStatus (core : Nat) (host : HostData)
  /-- FAB_PORT_CONFIG (R577): Configures a fabric port's mode, lanes and links. -/
  | fabPortConfig (core : Nat) (host : HostData)
  /-- FAB_STATUS (R485): Returns the link registers and frame counts of a port. -/
  | fabStatus (core : Nat) (host : HostData)
  /-- BFT_PD_CREATE (R493): Creates a protection domain with its event ring. -/
  | bftPdCreate (core : Nat) (host : HostData)
  /-- BFT_PD_DESTROY (R493): Destroys an empty protection domain. -/
  | bftPdDestroy (core : Nat) (host : HostData)
  /-- BFT_REG_CREATE (R494): Registers a region and returns its RKEY. -/
  | bftRegCreate (core : Nat) (host : HostData)
  /-- BFT_REG_DESTROY (R494): Destroys a region after the placements already checked finish. -/
  | bftRegDestroy (core : Nat) (host : HostData)
  /-- BFT_RR_CREATE (R506): Creates a receive ring. -/
  | bftRrCreate (core : Nat) (host : HostData)
  /-- BFT_RR_DESTROY (R508): Destroys a receive ring. -/
  | bftRrDestroy (core : Nat) (host : HostData)
  /-- BFT_CONN_CREATE (R495): Creates an ACTIVE connection from a connection record. -/
  | bftConnCreate (core : Nat) (host : HostData)
  /-- BFT_CONN_RESET (R496): Returns a connection to FREE from any state. -/
  | bftConnReset (core : Nat) (host : HostData)
  /-- BFT_KEY_LOAD (R528): Loads both keys of an encrypted connection. -/
  | bftKeyLoad (core : Nat) (host : HostData)
  /-- BFT_KEY_AGREE_GENERATE (R528): Generates an ephemeral P-384 key pair and returns its public key. -/
  | bftKeyAgreeGenerate (core : Nat) (host : HostData)
  /-- BFT_KEY_AGREE_COMPLETE (R528): Takes the peer's public key and derives both connection keys. -/
  | bftKeyAgreeComplete (core : Nat) (host : HostData)
  /-- PART_FENCE (R583): Performs an orderly fence of a partition. -/
  | partFence (core : Nat) (host : HostData)
  /-- PART_UNFENCE (R588): Starts the unfence of a FENCED partition, or answers by its state. -/
  | partUnfence (core : Nat) (host : HostData)
  /-- FCU_REACT (R592): Sets the reactions of non-fixed fault sources. -/
  | fcuReact (core : Nat) (host : HostData)
  /-- MARGIN_READ (R603): Returns a margin value and its set point. -/
  | marginRead (core : Nat) (host : HostData)
  /-- FW_CHUNK (R633): Checks and programs one image chunk into the inactive slot and marks it. -/
  | fwChunk (core : Nat) (host : HostData)
  /-- FW_VERIFY (R635): Verifies a COMPLETE slot and marks it VERIFIED or FAILED. -/
  | fwVerify (core : Nat) (host : HostData)
  /-- FW_ACTIVATE (R636): Sets the activation window of a VERIFIED slot. -/
  | fwActivate (core : Nat) (host : HostData)
  /-- FW_CONFIRM (R638): Confirms a healthy trial image. -/
  | fwConfirm (core : Nat) (host : HostData)
  /-- FW_STATUS (R628): Returns the firmware version, trial state, slot states and digest. -/
  | fwStatus (core : Nat) (host : HostData)
  /-- FW_DISCARD (R634): Discards the download in progress and any pending activation. -/
  | fwDiscard (core : Nat) (host : HostData)
  /-- SCHED_VISIT (R465): The scheduler visits the head queue of the active list, gives it its quantum and dispatches jobs under DRR. -/
  | schedVisit (k : Nat)
  /-- DESCRIPTOR_FETCH (R94): A query or batch descriptor and its trailing data are fetched at ENTRY, and the slot count is fixed. -/
  | descriptorFetch (k : Nat) (q : RawAt) (desc : HostData) (data : HostData)
  /-- RING_ACCESS_ERROR (R437): A host ring read or write ends in an error, and the queue enters ERROR. -/
  | ringAccessError (k q job : Nat)
  /-- DEROTATOR (R179): The Derotator takes the next waiting vector, rotates and quantises it. -/
  | derotator (core : Nat) (parity : Bool)
  /-- POOL_ISSUE (R359): Once the bag's row pages are resident, the home core prepares the bag and sends POOL requests and messages. -/
  | poolIssue (job : Nat)
  /-- POOL_PARTIAL (R353): A pooling partial sum arrives and is added, finishing the pooled vector when the last one is in. -/
  | poolPartial (job : Nat)
  /-- MTILE (R154): Enqueues a tile descriptor and returns its handle. -/
  | mtile (core : Nat) (ctx : Nat) (sd : Nat) (sa : Nat)
  /-- MWAIT (R153): The context waits for a tile to complete. -/
  | mwait (core : Nat) (ctx : Nat) (sa : Nat)
  /-- MTEST (R153): Tests whether a tile has completed. -/
  | mtest (core : Nat) (ctx : Nat) (sd : Nat) (sa : Nat)
  /-- MDRAIN (R153): The context waits for all of its tiles to complete. -/
  | mdrain (core : Nat) (ctx : Nat)
  /-- VSEL (R137): Sends fp32 scores with ids to a selection request: the first `lanes` of qs and qi. The other hand-off of its class,
  an NBU request, is a form of it that uses none of those three (DESIGN CHOICE, log 173). -/
  | vsel (core : Nat) (ctx : Nat) (qs : Nat) (qi : Nat) (target : HandTo) (lanes : Nat)
  /-- VFREE (R137): Releases the context's vector slot. -/
  | vfree (core : Nat) (ctx : Nat)
  /-- KEND (R142): Ends a custom kernel invocation. -/
  | kend (core : Nat) (ctx : Nat)
  /-- CORE_SCALAR (R136): A scalar integer, logic, shift, compare or branch instruction. -/
  | coreScalar (core : Nat) (ctx : Nat) (op : ScalarOp)
  /-- PLATE_ACCESS (R138): A scalar or vector load or store to plate memory. -/
  | plateAccess (core : Nat) (ctx : Nat) (op : PlateRow)
  /-- CORE_VECTOR (R137): A vector element-wise, conversion or reduction instruction. -/
  | coreVector (core : Nat) (ctx : Nat) (op : VecOp)
  /-- KERNEL_INVOKE (R141): A custom kernel starts on a re-rank group once the core's previous invocation ends. -/
  | kernelInvoke (core : Nat)
  /-- LIMIT (R143): A kernel exceeds 1,000,000 cycles and traps. -/
  | limit (core : Nat) (ctx : Nat)
  /-- TILE_PASS (R160): At a pass boundary the arrays take the next pass from the lowest waiting class. -/
  | tilePass (core : Nat) (parity : Bool)
  /-- OPEN (R265): Opens a selection request. -/
  | openReq (core : Nat) (n : Nat)
  /-- CLOSE (R273): Completes a selection by passes and writes or forwards its output. -/
  | closeReq (core : Nat) (req : CloseAt)
  /-- DISCARD (R265): Stops a selection request and makes it IDLE. -/
  | discard (core : Nat) (n : Nat)
  /-- BOUND (R272): Brings BOUND up to date, pruning the list when it holds more than K. -/
  | bound (core : Nat) (n : Nat)
  /-- SEL_BLOCK_SERVED (R267): The selection unit serves a waiting block of entries into its request. -/
  | selBlockServed (core : Nat) (parity : Bool)
  /-- NBU_REQUEST_TAKE (R305): A free NBU thread takes the oldest eligible request of the lowest class. -/
  | nbuRequestTake (thr : ThrId)
  /-- SCAN (R216): Scores, filters and tests visibility over a piece up to TAIL. -/
  | scan (thr : ThrId) (errs : RawErrs)
  /-- BLOCK (R337): Scores the entries of one neighbour block for a walker. -/
  | block (thr : ThrId) (errs : RawErrs)
  /-- APPEND (R225): Appends entries to a piece and then advances TAIL. -/
  | append (thr : ThrId) (errs : RawErrs)
  /-- STAMP (R226): Writes the death epoch of one item record. -/
  | stamp (thr : ThrId) (errs : RawErrs)
  /-- POOL (R352): Sums dequantised embedding rows into an fp32 partial sum. -/
  | pool (thr : ThrId) (errs : RawErrs)
  /-- COMPACT (R311): Copies the live entries of a piece into a new piece. -/
  | compact (thr : ThrId) (errs : RawErrs)
  /-- BITMAP (R296): Sets or clears bits of a filter slice. -/
  | bitmap (thr : ThrId) (errs : RawErrs)
  /-- SCRUB (R227): Reads a range of units and writes back each corrected one. -/
  | scrub (thr : ThrId) (errs : RawErrs)
  /-- NOP (R214): A reserved or unloaded kernel number reads nothing and ends with NOP. -/
  | nop (thr : ThrId)
  /-- NBU_PROGRAM (R253): A request runs a program loaded by host software. -/
  | nbuProgram (thr : ThrId) (count : Nat) (errs : RawErrs)
  /-- NBU_IMAGE_SWITCH (R254): Once running loaded programs end, an NBU writes its new program image. -/
  | nbuImageSwitch (k : Nat) (pc : Nat)
  /-- EPOCH_MARKER (R304): An NBU receives an epoch marker from a source partition. -/
  | epochMarker (k : Nat) (pc : Nat) (src : Nat)
  /-- CANCEL (R228): A cancel naming JOB reaches an NBU, which discards or stops the job's requests. -/
  | cancel (k : Nat) (pc : Nat) (job : Nat)
  /-- CANCELLED (R259): A running request stops at its next boundary with CANCELLED. -/
  | cancelled (stop : ThrStop)
  /-- END_MESSAGE (R223): An NBU end message reaches the home core or walker, which acts on its status. -/
  | endMessage (core : Nat)
  /-- ALU (R240): NBU register-register ALU operation selected by FN. -/
  | alu (thr : ThrId) (fn : Nat) (fa : Nat) (fb : Nat) (fc : Nat)
  /-- ADDI (R238): NBU add immediate. -/
  | addi (thr : ThrId) (fa : Nat) (fb : Nat) (imm : Int)
  /-- ANDI (R238): NBU and immediate. -/
  | andi (thr : ThrId) (fa : Nat) (fb : Nat) (imm : Int)
  /-- ORI (R238): NBU or immediate. -/
  | ori (thr : ThrId) (fa : Nat) (fb : Nat) (imm : Int)
  /-- XORI (R238): NBU xor immediate. -/
  | xori (thr : ThrId) (fa : Nat) (fb : Nat) (imm : Int)
  /-- SHLI (R238): NBU shift left by immediate. -/
  | shli (thr : ThrId) (fa : Nat) (fb : Nat) (imm : Int)
  /-- SHRI (R238): NBU logical shift right by immediate. -/
  | shri (thr : ThrId) (fa : Nat) (fb : Nat) (imm : Int)
  /-- SRAI (R238): NBU arithmetic shift right by immediate. -/
  | srai (thr : ThrId) (fa : Nat) (fb : Nat) (imm : Int)
  /-- LUI (R238): NBU load upper immediate. -/
  | lui (thr : ThrId) (fa : Nat) (imm : Int)
  /-- LD (R235): NBU scalar load from scratch or local space. -/
  | ld (thr : ThrId) (errs : RawErrs) (fa : Nat) (fb : Nat) (width : Nat) (loc : Bool) (imm : Int)
  /-- ST (R236): NBU scalar store to scratch or local space. -/
  | st (thr : ThrId) (errs : RawErrs) (fa : Nat) (fb : Nat) (width : Nat) (loc : Bool) (imm : Int)
  /-- VLD (R238): NBU 64-byte vector load. -/
  | vld (thr : ThrId) (errs : RawErrs) (fa : Nat) (fb : Nat) (loc : Bool) (imm : Int)
  /-- VST (R238): NBU 64-byte vector store. -/
  | vst (thr : ThrId) (errs : RawErrs) (fa : Nat) (fb : Nat) (loc : Bool) (imm : Int)
  /-- TLD (R243): Loads a 4 KiB lookup-table register. -/
  | tld (thr : ThrId) (errs : RawErrs) (fa : Nat) (fb : Nat) (loc : Bool) (imm : Int)
  /-- FENCE_INSTR (R255): The thread waits until its earlier accesses are performed. -/
  | fenceInstr (thr : ThrId)
  /-- BEQ (R238): Branch if equal. -/
  | beq (thr : ThrId) (fa : Nat) (fb : Nat) (imm : Int)
  /-- BNE (R238): Branch if not equal. -/
  | bne (thr : ThrId) (fa : Nat) (fb : Nat) (imm : Int)
  /-- BLT (R238): Branch if less, signed. -/
  | blt (thr : ThrId) (fa : Nat) (fb : Nat) (imm : Int)
  /-- BGE (R238): Branch if greater or equal, signed. -/
  | bge (thr : ThrId) (fa : Nat) (fb : Nat) (imm : Int)
  /-- BLTU (R238): Branch if less, unsigned. -/
  | bltu (thr : ThrId) (fa : Nat) (fb : Nat) (imm : Int)
  /-- BGEU (R238): Branch if greater or equal, unsigned. -/
  | bgeu (thr : ThrId) (fa : Nat) (fb : Nat) (imm : Int)
  /-- JAL (R238): Jump and link. -/
  | jal (thr : ThrId) (fa : Nat) (imm : Int)
  /-- JALR (R238): Jump and link to a register. -/
  | jalr (thr : ThrId) (fa fb : Nat)
  /-- END (R251): Sends the last survivor block and the end message with DONE. -/
  | endProg (thr : ThrId)
  /-- VALU (R242): NBU SIMD element-wise operation. -/
  | valu (thr : ThrId) (fn : Nat) (fa : Nat) (fb : Nat) (fc : Nat)
  /-- VRED (R242): NBU SIMD reduction into a scalar register. -/
  | vred (thr : ThrId) (fn : Nat) (fa : Nat) (fb : Nat) (fc : Nat)
  /-- VLUT (R243): Table-driven PQ8 distance of one code. -/
  | vlut (thr : ThrRaw) (fa : Nat) (fb : Nat)
  /-- VMOVG (R238): Moves a lane between vector and scalar registers. -/
  | vmovg (thr : ThrId) (fn fa fb : Nat)
  /-- PSET (R245): Reads a piece header into the entry unit and sets the bound to TAIL. -/
  | pset (thr : ThrId) (errs : RawErrs) (fn : Nat) (fa : Nat) (fb : Nat) (fc : Nat)
  /-- ENEXT (R248): Finds the next entry that passes threshold, filter and visibility. -/
  | enext (thr : ThrId) (errs : RawErrs) (fn : Nat) (fa : Nat) (fb : Nat) (fc : Nat)
  /-- ESCORE (R248): Scores one entry without tests. -/
  | escore (thr : ThrId) (errs : RawErrs) (fn : Nat) (fa : Nat) (fb : Nat) (fc : Nat)
  /-- EACC (R248): Returns the raw accumulation of one entry. -/
  | eacc (thr : ThrId) (errs : RawErrs) (fn : Nat) (fa : Nat) (fb : Nat) (fc : Nat)
  /-- EPIL (R248): Applies the epilogue to a given accumulation. -/
  | epil (thr : ThrId) (errs : RawErrs) (fn : Nat) (fa : Nat) (fb : Nat) (fc : Nat)
  /-- EFILT (R249): Tests an entry against the filter combination. -/
  | efilt (thr : ThrId) (errs : RawErrs) (fn : Nat) (fa : Nat) (fb : Nat) (fc : Nat)
  /-- EVIS (R248): Tests an entry's visibility at REPOCH. -/
  | evis (thr : ThrId) (errs : RawErrs) (fn : Nat) (fa : Nat) (fb : Nat) (fc : Nat)
  /-- ELAST (R248): Returns the last-score register. -/
  | elast (thr : ThrId) (errs : RawErrs) (fn : Nat) (fa : Nat) (fb : Nat) (fc : Nat)
  /-- ETHR (R248): Sets the local threshold. -/
  | ethr (thr : ThrId) (errs : RawErrs) (fn : Nat) (fa : Nat) (fb : Nat) (fc : Nat)
  /-- EMIT (R251): Sends a survivor entry. -/
  | emit (thr : ThrId) (errs : RawErrs) (fn : Nat) (fa : Nat) (fb : Nat) (fc : Nat)
  /-- STTAIL (R256): Writes a piece's TAIL after every earlier write of the thread. -/
  | sttail (thr : ThrId) (errs : RawErrs) (fb : Nat) (fc : Nat)
  /-- NBU_LIMIT (R257): A loaded program exceeds 4,194,304 instructions and traps with LIMIT. -/
  | nbuLimit (thr : ThrId)
  /-- WALK_START (R331): A walker context starts a graph walk, opens its admission request and issues hop 0. -/
  | walkStart (w : Nat)
  /-- WALK_HOP (R332): With all replies of a hop in and its page resident, the walker updates its beam, admits nodes and expands the next node. -/
  | walkHop (w : RawAt)
  /-- WALK_PAGE_LOAD (R329): A walk page is loaded into a plate slot, evicting another walker's page. -/
  | walkPageLoad (w : Nat)
  /-- COMPLETION (R118): With a free completion entry, results are placed in reserved buffers and the completion entry is written. -/
  | completion (job : Nat)
  /-- INGEST_RECORD (R302): The ingest engine takes the next record of a batch and appends it to the log. -/
  | ingestRecord (job : Nat)
  /-- DIR_LOCK (R301): A directory lock is granted, the update epoch taken and the APPEND and STAMP injected. -/
  | dirLock (k : RawAt)
  /-- PIECE_GROW (R289): Firmware allocates a new piece for a cluster or subgraph whose pieces are full. -/
  | pieceGrow (job : Nat)
  /-- STAMP_RETRY (R307): Firmware reissues a STAMP from the stamp retry list. -/
  | stampRetry (k : Nat)
  /-- PIECE_COMPACT (R311): Firmware starts compacting a piece whose dead share reached CMPPCT. -/
  | pieceCompact (k idx cluster piece : Nat)
  /-- PIECE_RETIRE (R311): After jobs dispatched before the switch complete, the old piece is retired. -/
  | pieceRetire (k : Nat)
  /-- CHECKPOINT (R317): The checkpoint interval expires, ingest pauses and the cut is recorded. -/
  | checkpoint
  /-- CKPT (R317): The checkpoint record has been programmed and the checkpoint becomes current. -/
  | ckpt
  /-- PAGE_MOVE_IN (R377): A page copy from flash completes and the page becomes HBM. -/
  | pageMoveIn (k i retries rebuilds : Nat) (lost : Bool)
  /-- WRITE_BACK (R379): A page write-back completes and the page becomes FLASH, or stays HBM when dirtied. -/
  | writeBack (k : Nat)
  /-- SPILL (R380): Firmware spills an idle piece's bank pages to flash. -/
  | spill (k pc piece : Nat)
  /-- FLASH_READ_DONE (R408): A flash unit read completes, with retries, rebuild or an unrecoverable result. -/
  | flashReadDone (k i retries rebuilds : Nat) (lost : Bool)
  /-- PROGRAM_DONE (R399): A flash page program completes. -/
  | programDone (k : Nat)
  /-- PROGRAM_FAIL (R411): A program fails and the block is remapped onto a spare. -/
  | programFail (k : Nat)
  /-- ERASE_DONE (R412): A block erase completes and the extent becomes FREE. -/
  | eraseDone (k : Nat)
  /-- ERASE_FAIL (R411): An erase fails and the block is remapped. -/
  | eraseFail (k pos : Nat)
  /-- EXTENT_RETIRE (R412): A RETIRING extent's readers have ended and its blocks are erased. -/
  | extentRetire (k e : Nat)
  /-- EXTENT_COMPACT (R413): Firmware compacts a sealed extent whose LIVE fell to ECPCT. -/
  | extentCompact (k src : Nat)
  /-- RELOCATION (R415): Firmware relocates an extent whole to another block set. -/
  | relocation (k src target : Nat)
  /-- SCRUB_PERIOD (R410): Scrub reads every sealed extent once per scrub period and repairs marked extents. -/
  | scrubPeriod (k : ScrubAt)
  /-- SEND_ENTRY (R498): A connection starts the next send-ring entry, assigns its MSN and writes its tag history. -/
  | sendEntry (conn : Nat) (entry : HostData) (payload : HostData)
  /-- PACKET_SEND (R500): A link sends the next data packet of a connection in round robin, within credit. -/
  | packetSend (link : Nat)
  /-- DATA (R507): A SEND of MKIND DATA is received and delivered into receive buffers. -/
  | data (link : Nat) (frame : List Byte) (slots : HostData)
  /-- QUERY (R517): A SEND of MKIND QUERY is written into the FRECV ring. -/
  | query (link : Nat) (frame : List Byte) (slots : HostData)
  /-- ABORT (R521): A fabric ABORT message aborts a query as QRY_ABORT does. -/
  | abortMsg (link : Nat) (frame : List Byte) (slots : HostData)
  /-- ABORTREPLY (R521): An ABORTREPLY message is received. -/
  | abortreply (link : Nat) (frame : List Byte) (slots : HostData)
  /-- QCTL_READ (R522): A QCTL READ returns a queue's GEN. -/
  | qctlRead (link : Nat) (frame : List Byte) (slots : HostData)
  /-- QCTL_MODIFY (R522): A QCTL MODIFY changes a queue's QUANTUM, SHAPER, GATE and MAXOUT. -/
  | qctlModify (link : Nat) (frame : List Byte) (slots : HostData)
  /-- QCTL_PAUSE (R522): A QCTL PAUSE pauses a queue. -/
  | qctlPause (link : Nat) (frame : List Byte) (slots : HostData)
  /-- QCTL_RESUME (R522): A QCTL RESUME resumes a queue. -/
  | qctlResume (link : Nat) (frame : List Byte) (slots : HostData)
  /-- QCTLREPLY (R521): A QCTLREPLY message is received. -/
  | qctlreply (link : Nat) (frame : List Byte) (slots : HostData)
  /-- POOL_MESSAGE (R355): A peer's POOL message is pooled and answered with a partial sum. -/
  | poolMessage (link : Nat) (frame : List Byte) (slots : HostData)
  /-- POOLREPLY (R523): A POOLREPLY arrives and its partial takes part in pooling. -/
  | poolreply (link : Nat) (frame : List Byte) (slots : HostData)
  /-- CQDB (R519): A CQDB message returns completion entries of a fabric completion ring. -/
  | cqdb (link : Nat) (frame : List Byte) (slots : HostData)
  /-- WRITE (R510): A WRITE packet is accepted into staging and acknowledged. -/
  | write (link : Nat) (frame : List Byte) (slots : HostData)
  /-- WRITE_PLACE (R512): A staged WRITE is checked and placed, FINAL ones after all lower PSNs. -/
  | writePlace (conn : Nat)
  /-- ACK (R503): An ACK advances APSN and the credit limits at the sender. -/
  | ack (link : Nat) (frame : List Byte)
  /-- NAK_SEQ (R503): A NAK SEQ makes the sender resend from NPSN. -/
  | nakSeq (link : Nat) (frame : List Byte)
  /-- NAK_RNR (R509): A NAK RNR makes the sender wait RNRDLY before resending. -/
  | nakRnr (link : Nat) (frame : List Byte)
  /-- CREDIT (R505): A CREDIT packet updates the message and byte limits. -/
  | credit (link : Nat) (frame : List Byte)
  /-- KEEPALIVE (R530): A KEEPALIVE packet is received. -/
  | keepalive (link : Nat) (frame : List Byte)
  /-- ERROR (R514): An ERROR packet puts the connection in ERROR with REMOTE set. -/
  | errorPacket (link : Nat) (frame : List Byte)
  /-- ARP_REQUEST (R487): A link answers an ARP request for its address. -/
  | arpRequest (link : Nat) (frame : List Byte)
  /-- NEIGHBOR_SOLICITATION (R487): A link answers an IPv6 Neighbor Solicitation for its address. -/
  | neighborSolicitation (link : Nat) (frame : List Byte)
  /-- RETRANSMIT_TIMEOUT (R503): RTO passes with no advance, and the oldest packet is resent or the connection enters ERROR. -/
  | retransmitTimeout (conn : Nat)
  /-- ACK_TIMER (R502): 2 µs after an uncovered accepted packet, an ACK is sent. -/
  | ackTimer (conn : Nat)
  /-- GAP_TIMER (R502): A gap open for 2 µs is answered with NAK SEQ. -/
  | gapTimer (conn : Nat)
  /-- CREDIT_TIMER (R505): 2 µs after an unsent limit advance, a CREDIT packet is sent. -/
  | creditTimer (conn : Nat)
  /-- KEEPALIVE_TIMER (R530): After KAINT with nothing sent, a KEEPALIVE (or ERROR) packet is sent. -/
  | keepaliveTimer (conn : Nat)
  /-- SILENT (R530): Nothing arrives for 4 × KAINT, and the connection enters ERROR with SILENT. -/
  | silent (conn : Nat)
  /-- RNR_DELAY (R509): RNRDLY expires and the message is sent again. -/
  | rnrDelay (conn : Nat)
  /-- LINK_DOWN (R531): A link is declared down after 50 µs of fault, and its connections fail over or enter ERROR. -/
  | linkDown (n : Nat)
  /-- LINK_UP (R488): A link is declared up after 1 ms without fault. -/
  | linkUp (n : Nat)
  /-- COUNTER_ADVANCE (R58): The Meridian counter advances by 10 ns on each MER_CLK_P rising edge or holdover-divider tick, including the end of a hold under R61. -/
  | counterAdvance
  /-- MER_CLK_RETURN (R64): MER_CLK edges return after a loss, CLK_OK sets, and the 10 µs presence needed for relock begins to count. -/
  | merClkReturn
  /-- PCIE_REFCLK_RETURN (R649): After PCIE_REFCLK has been present for 100 µs, the core and debug PLLs take it back as their reference. -/
  | pcieRefclkReturn
  /-- PWR_GOOD (R657): PWR_GOOD asserts, the always-on block leaves power-on reset and RAIL_FAULT sets if any rail is outside ±5 %. -/
  | pwrGood (bad : List Nat)
  /-- PCIE_LINK_TRAINED (R52): The PCIe link completes training, and BAR0 and configuration reads stop returning all ones. -/
  | pcieLinkTrained
  /-- VF_ENABLE_SET (R538): Host software sets VF Enable in the PF's SR-IOV capability, and the 16 VFs and their BARs come into existence. -/
  | vfEnableSet
  /-- BUS_MASTER_ENABLE (R539): A function's Bus Master Enable or power state changes, holding or releasing its waiting ring fetches, completion writes, mailbox writes and placements. -/
  | busMasterEnable (func : Nat) (bme : Bool) (d3 : Bool)
  /-- MSIX_VECTOR_UNMASK (R539): Host software unmasks an MSI-X vector, and its pending message is sent. -/
  | msixVectorUnmask (func vec : Nat)
  /-- NON_BFT_FRAME (R487): A received frame that is not a BFT packet, ARP, ND or IEEE 1588 message is discarded and counted in BFT_BADPKT. -/
  | nonBftFrame (link : Nat) (frame : List Byte)
  /-- FOLLOW_UP (R71): A PTP Follow_Up message from a two-step master is taken by the servo. -/
  | followUp (port : Nat) (domain : Nat) (head : PtpHead) (seqNo : Nat) (t1 : Nat)
  /-- DELAY_REQ (R71): The PTP slave sends a Delay_Req to measure the end-to-end delay. -/
  | delayReq (sub : Nat)
  /-- LOCAL_FAULT (R488): A link's PCS begins or ends reporting local fault, remote fault or loss of block lock, updating LFAULT and RFAULT and sending remote fault. -/
  | localFault (link : Nat) (local_ remote blockLoss : Bool)
  /-- TAP_RESET (R654): TRST_N low or the TMS sequence resets the TAP, and the instruction register returns to IDCODE. -/
  | tapReset
  /-- HBM_TEMP_CLEAR (R606): A stack falls below 93 °C, and its NBUs return to one fetch per cycle. -/
  | hbmTempClear (k : Nat) (t : Nat)
  /-- PCIE_FATAL (R589): An uncorrectable fatal PCIe error is logged in AER and sets source 259. -/
  | pcieFatal
  deriving DecidableEq, Repr

end Sys2Proof
end

