-- ==== Sys2Proof/Decode.lean ====
section
/-!
DEFINITION. Sys2Proof/Decode.lean: the command that a word spells by the table's bits (no row of the table of operations and
events gives bits, so no word spells a command), and the encoding of a core's array instructions (R153).
-/
namespace Sys2Proof

/-- The command that a word of the table spells: none, since no row gives bits. DESIGN CHOICE, log 2. -/
def decodeTableWord (_nbits _w : Nat) : Option Instr := none

/-! ## Array instructions of a search core (R153) -/

/-- OPC, SD and SA of a 64-bit array instruction. -/
def arrayOpc (w : Nat) : Nat := w % 256
def arraySd (w : Nat) : Nat := w / 256 % 32
def arraySa (w : Nat) : Nat := w / 8192 % 32

/-- The array instruction that a 64-bit word spells on a context of a core: a reserved array opcode is a reserved instruction of the
core, and another opcode is no array instruction. -/
def decodeArray (core ctx w : Nat) : Option Instr :=
  let sd := arraySd w
  let sa := arraySa w
  match arrayOpc w with
  | 0x60 => some (.mtile core ctx sd sa)
  | 0x61 => some (.mwait core ctx sa)
  | 0x62 => some (.mtest core ctx sd sa)
  | 0x63 => some (.mdrain core ctx)
  | n => if 0x64 ≤ n ∧ n ≤ 0x6F then some (.coreScalar core ctx .reserved) else none

/-- The word of an array instruction, reserved bits 0. -/
def encodeArray : Instr → Option Nat
  | .mtile _ _ sd sa => some (0x60 + 256 * sd + 8192 * sa)
  | .mwait _ _ sa => some (0x61 + 8192 * sa)
  | .mtest _ _ sd sa => some (0x62 + 256 * sd + 8192 * sa)
  | .mdrain _ _ => some 0x63
  | _ => none

end Sys2Proof
end

