-- ==== Sys2Proof/Config.lean ====
section
/-!
DEFINITION. Sys2Proof/Config.lean: what a particular package fixes and the spec leaves open, as constants with no body.
Nothing in Lean can prove a value of one of them.
-/
namespace Sys2Proof.Config

/-- Fresh 32 bytes drawn from the entropy source or left open by the spec; the State's counter numbers the draws.
DESIGN CHOICE, log 21. -/
opaque freeBytes : Nat → List Byte

/-- A fresh open value below 2^64, numbered by the State's counter. DESIGN CHOICE, log 21. -/
opaque freeNat : Nat → Nat

/-- SHA-384 of a byte string, 48 bytes: named by the spec, its computation is FIPS 180-4. DESIGN CHOICE, log 20. -/
opaque sha384 : List Byte → List Byte

/-- ECDSA P-384 verification of (public key, message, signature): named by the spec, its computation is FIPS 186-5.
DESIGN CHOICE, log 20. -/
opaque ecdsaVerify : List Byte → List Byte → List Byte → Bool

/-- Is a byte string a valid P-384 public key point (SP 800-56A)? DESIGN CHOICE, log 20. -/
opaque p384Valid : List Byte → Bool

/-- The P-384 public key of a private value. DESIGN CHOICE, log 20. -/
opaque p384Public : List Byte → List Byte

/-- The ECDH shared secret of a private value and a peer's public key. DESIGN CHOICE, log 20. -/
opaque p384Shared : List Byte → List Byte → List Byte

/-- HKDF-SHA-384 of (secret, salt, info, length). DESIGN CHOICE, log 20. -/
opaque hkdf : List Byte → List Byte → List Byte → Nat → List Byte

/-- AES-256-GCM sealing of (key, nonce, associated data, plaintext): ciphertext and 16-byte tag. DESIGN CHOICE, log 20. -/
opaque gcmSeal : List Byte → List Byte → List Byte → List Byte → List Byte

/-- AES-256-GCM opening of (key, nonce, associated data, ciphertext with tag); none when the tag fails.
DESIGN CHOICE, log 20. -/
opaque gcmOpen : List Byte → List Byte → List Byte → List Byte → Option (List Byte)

/-- The hash of the firmware root key burnt into the part's OTP fuses. DESIGN CHOICE, log 22. -/
opaque otpKeyHash : List Byte

/-- The JEP106 manufacturer code that the part's JTAG IDCODE carries. DESIGN CHOICE, log 22. -/
opaque jep106 : BitVec 11

/-- The PQ8 lookup tables of a query, 256 bytes for each sub-vector, from (codebook, rotated query, decoded metric): the
spec gives their place and their sum (R243, R244) and not how their entries are formed. DESIGN CHOICE, log 23. -/
opaque pqTables : List Byte → List W32 → Nat → List Byte

/-- QSCL, QOFF and QBIAS (0, 1, 2) of a PQ8 scan, from (codebook, rotated query, decoded metric): not given either.
DESIGN CHOICE, log 23. -/
opaque pqConst : List Byte → List W32 → Nat → Nat → W32

/-- The VECTOR feature of a candidate that re-rank read no vector of, by ordinal and element (R163): not given.
DESIGN CHOICE, log 24. -/
opaque absentFeature : Nat → Nat → W32

/-- Bytes of the accesses to a survivor buffer in the work-area window, by SMAX, entries tested and TAIL (R218, R221): the
radix count of the prune, and so its reads, are not given. DESIGN CHOICE, log 25. -/
opaque bufferBytes : Nat → Nat → Nat → Nat

/-- What a byte of an HBM unit that the code cannot correct reads as, by its key (R212): not given.
DESIGN CHOICE, log 26. -/
opaque ueByte : Nat → Byte

/-- A margin before its first measurement, and a set point that the table leaves out, by (KIND * 65536 + index) (R603).
DESIGN CHOICE, log 27. -/
opaque marginOpen : Nat → Int
/-- DESIGN CHOICE, log 27. -/
opaque setPointOpen : Nat → Int

/-- A lane of a core's vector instruction whose value the spec does not state, from (operation, format, three operand
lanes): a sum beyond the format, a lane that a conversion leaves without a source (R137). DESIGN CHOICE, log 28. -/
opaque laneOpen : Nat → Nat → Nat → Nat → Nat → Nat

/-- A core's scalar result that the spec does not state, from (operation, two operands): a shift by 64 or more, the quotient
of the most negative number by -1 (R137). DESIGN CHOICE, log 29. -/
opaque scalarOpen : Nat → Nat → Nat → W64

/-- A reduction whose value depends on an order that the spec does not state, from (operation, format, the register) (R137).
DESIGN CHOICE, log 30. -/
opaque reduceOpen : Nat → Nat → Nat → W64

/-- Plate address, below 0x540000, at which firmware keeps the PQ8 tables of a job on a core: not given (R244).
DESIGN CHOICE, log 174. -/
opaque pqPlace : Nat → Nat

/-- Plate address, below 0x720000, at which firmware keeps the quantised query of a job on its home core (R101): not given.
DESIGN CHOICE, log 174. -/
opaque queryPlace : Nat → Nat

/-- What a read of a plate word with a double-bit error gives, by core, address and bytes (R139): not given.
DESIGN CHOICE, log 176. -/
opaque plateOpen : Nat → Nat → Nat → Nat

/-- What a scratch byte holds after a firmware PQ8 request whose partial sums lie there, by request and address: their place is
not given (R233, R244). DESIGN CHOICE, log 147. -/
opaque scratchOpen : Nat → Nat → Byte

end Sys2Proof.Config
end

