-- ==== Sys2Proof/Machine/Bytes.lean ====
section
/-!
DEFINITION. Sys2Proof/Machine/Bytes.lean: byte order (R15: little-endian) and bit fields of byte strings, and CRC-32C.
-/
namespace Sys2Proof.Machine

/-- The number that a little-endian byte string spells (R15). -/
def leNat : List Byte → Nat
  | [] => 0
  | b :: bs => b.toNat + 256 * leNat bs

/-- The `n` little-endian bytes of a number (R15). -/
def leBytes : Nat → Nat → List Byte
  | 0, _ => []
  | n + 1, v => BitVec.ofNat 8 v :: leBytes n (v / 256)

/-- Exactly `n` bytes: the string cut short, or zero-extended. -/
def padTo (n : Nat) (bs : List Byte) : List Byte :=
  (bs.take n) ++ List.replicate (n - bs.length) 0#8

/-- `len` bytes of a string from byte `off`, zero beyond its end. -/
def slice (bs : List Byte) (off len : Nat) : List Byte := padTo len ((bs.drop off).take len)

/-- The bit field `[lo + len - 1 : lo]` of a structure, counted from bit 0 of its first byte (R15). -/
def field (bs : List Byte) (lo len : Nat) : Nat :=
  bitsOf (leNat ((bs.drop (lo / 8)).take ((lo % 8 + len + 7) / 8))) (lo % 8) len

/-- Bit `i` of a structure. -/
def fbit (bs : List Byte) (i : Nat) : Bool := field bs i 1 == 1

/-- The little-endian 16-bit word at byte `off`. -/
def le16 (bs : List Byte) (off : Nat) : Nat := leNat ((bs.drop off).take 2)
/-- The little-endian 32-bit word at byte `off`. -/
def le32 (bs : List Byte) (off : Nat) : Nat := leNat ((bs.drop off).take 4)
/-- The little-endian 64-bit word at byte `off`. -/
def le64 (bs : List Byte) (off : Nat) : Nat := leNat ((bs.drop off).take 8)

/-- A packed structure from its fields, lowest first, each a (width, value) pair (R15). -/
def packNat : List (Nat × Nat) → Nat
  | [] => 0
  | (w, v) :: fs => v % 2 ^ w + 2 ^ w * packNat fs

/-- The bytes of a packed structure of `n` bytes. -/
def packBytes (n : Nat) (fs : List (Nat × Nat)) : List Byte := leBytes n (packNat fs)

/-- Replace the bytes of `bs` from `off` by `new`, extending with zeros as needed. -/
def overlay (bs : List Byte) (off : Nat) (new : List Byte) : List Byte :=
  padTo off bs ++ new ++ bs.drop (off + new.length)

/-- One bit step of the reflected CRC-32C register (polynomial 0x1EDC_6F41, reflected 0x82F6_3B78). -/
def crcBit (c : Nat) : Nat := if c % 2 = 1 then (c / 2) ^^^ 0x82F63B78 else c / 2

/-- One byte step of the CRC-32C register. -/
def crcByte (c : Nat) (b : Byte) : Nat :=
  crcBit (crcBit (crcBit (crcBit (crcBit (crcBit (crcBit (crcBit (c ^^^ b.toNat))))))))

/-- CRC-32C of a byte string, initial value all ones, final complement. -/
def crc32c (bs : List Byte) : W32 :=
  BitVec.ofNat 32 ((bs.foldl crcByte 0xFFFFFFFF) ^^^ 0xFFFFFFFF)

/-- Signed value of the low `n` bits of a number. -/
def signed (n v : Nat) : Int :=
  let w := v % 2 ^ n
  if w ≥ 2 ^ (n - 1) then (w : Int) - (2 ^ n : Nat) else w

/-- The `n`-bit two's complement code of an integer. -/
def twos (n : Nat) (x : Int) : Nat := (x % ((2 ^ n : Nat) : Int)).toNat

end Sys2Proof.Machine
end

