-- ==== Sys2Proof/Machine/Tbl.lean ====
section
/-!
DEFINITION. Sys2Proof/Machine/Tbl.lean: sparse tables keyed by number, held as lists in rising order of key.
-/
namespace Sys2Proof.Machine

/-- A table of entries by number: keys strictly rising, one entry for a key. -/
abbrev Tbl (α : Type) := List (Nat × α)

/-- The entry of a key, if the table lists one. -/
def Tbl.get? {α : Type} : Tbl α → Nat → Option α
  | [], _ => none
  | (k, v) :: t, n => if n = k then some v else if n < k then none else Tbl.get? t n

/-- The entry of a key, or the value an unlisted key has. -/
def Tbl.getD {α : Type} (t : Tbl α) (n : Nat) (d : α) : α := (Tbl.get? t n).getD d

/-- Write the entry of a key. -/
def Tbl.set {α : Type} : Tbl α → Nat → α → Tbl α
  | [], n, x => [(n, x)]
  | (k, v) :: t, n, x =>
    if n = k then (n, x) :: t else if n < k then (n, x) :: (k, v) :: t else (k, v) :: Tbl.set t n x

/-- Remove the entry of a key. -/
def Tbl.erase {α : Type} : Tbl α → Nat → Tbl α
  | [], _ => []
  | (k, v) :: t, n => if n = k then t else (k, v) :: Tbl.erase t n

/-- Change the entry of a listed key. -/
def Tbl.adj {α : Type} : Tbl α → Nat → (α → α) → Tbl α
  | [], _, _ => []
  | (k, v) :: t, n, f => if n = k then (k, f v) :: t else (k, v) :: Tbl.adj t n f

/-- Write the entry of a key, or remove it when the new entry is absent. -/
def Tbl.put {α : Type} (t : Tbl α) (n : Nat) : Option α → Tbl α
  | some x => Tbl.set t n x
  | none => Tbl.erase t n

/-- Does the table list the key? -/
def Tbl.has {α : Type} (t : Tbl α) (n : Nat) : Bool := (Tbl.get? t n).isSome

/-- The listed keys, rising. -/
def Tbl.keys {α : Type} (t : Tbl α) : List Nat := t.map Prod.fst

/-- The listed entries, in rising order of key. -/
def Tbl.vals {α : Type} (t : Tbl α) : List α := t.map Prod.snd

/-- Change every listed entry. -/
def Tbl.mapv {α β : Type} (t : Tbl α) (f : α → β) : Tbl β := t.map (fun p => (p.1, f p.2))

/-- The lowest number below `n` that the table does not list. -/
def Tbl.freeKey {α : Type} (t : Tbl α) (n : Nat) : Option Nat := (List.range n).find? (fun i => !t.has i)

/-- The lowest key from `lo` on that the table does not list (`fuel` tries). -/
def Tbl.freshFrom {α : Type} (t : Tbl α) (lo : Nat) : Nat :=
  t.foldl (fun m p => if p.1 ≥ m then p.1 + 1 else m) lo

/-- A key order that the tables keep: strictly rising. -/
def Tbl.rising {α : Type} : Tbl α → Bool
  | [] => true
  | [_] => true
  | (a, _) :: (b, y) :: t => decide (a < b) && Tbl.rising ((b, y) :: t)

/-- The entry of index `i` of a list replaced by `f` of it. -/
def modNth {α : Type} : List α → Nat → (α → α) → List α
  | [], _, _ => []
  | x :: xs, 0, f => f x :: xs
  | x :: xs, n + 1, f => x :: modNth xs n f

/-- The entry of index `i` of a list replaced. -/
def setNth {α : Type} (l : List α) (i : Nat) (x : α) : List α := modNth l i (fun _ => x)

/-- Insert into an ordered list, after the entries that do not come later. -/
def insertBy {α : Type} (lt : α → α → Bool) (x : α) : List α → List α
  | [] => [x]
  | y :: ys => if lt x y then x :: y :: ys else y :: insertBy lt x ys

/-- Order a list; entries of equal rank keep their order. -/
def sortBy {α : Type} (lt : α → α → Bool) (l : List α) : List α := l.foldl (fun acc x => insertBy lt x acc) []

/-- Cut a list into blocks of at most `n` (`fuel` bounds the blocks). -/
def chunks {α : Type} (n : Nat) : Nat → List α → List (List α)
  | 0, _ => []
  | k + 1, l => if l.isEmpty then [] else l.take n :: chunks n k (l.drop n)

end Sys2Proof.Machine
end

