-- ==== Sys2Proof/Machine/StateFabric.lean ====
section
/-!
DEFINITION. Sys2Proof/Machine/StateFabric.lean: the state of the fabric ports and of the Bircia Fabric Transport
(chapter 16).
-/
namespace Sys2Proof.Machine

/-- A link record as FAB_PORT_CONFIG gives it. -/
structure LinkCfg where
  mac : Nat
  vid : Nat
  vlan : Bool
  ipv4 : Nat
  bftPort : Nat
  ipv6 : Nat
  deriving DecidableEq, Repr

/-- A link (R485, R488, FAB_LINKn). -/
structure FabLink where
  cfg : LinkCfg
  exists_ : Bool
  up : Bool
  lfault : Bool
  rfault : Bool
  blockLoss : Bool
  downEv : Bool
  rx : Nat
  tx : Nat
  /-- the connection that had the last turn in round robin (R500). -/
  turn : Nat
  deriving DecidableEq, Repr

def FabLink.reset : FabLink :=
  { cfg := ⟨0, 0, false, 0, 0xB8D4, 0⟩, exists_ := false, up := false, lfault := false, rfault := false,
    blockLoss := false, downEv := false, rx := 0, tx := 0, turn := 0 }

/-- A port: mode, transmitters enabled, and the LANES bytes of FAB_PORT_CONFIG. -/
structure FabPort where
  mode : Nat
  enable : Bool
  lanes : List Nat
  deriving DecidableEq, Repr

/-- A connection's parameters (R495, connection record). -/
structure ConnCfg where
  pd : Nat
  pconn : Nat
  link : Nat
  alt : Option Nat
  enc : Bool
  role : Bool
  ipv6 : Bool
  dscp : Nat
  pcp : Nat
  mtu : Nat
  act : Nat
  pmac : Nat
  pport : Nat
  amac : Nat
  aport : Nat
  pip : Nat
  aip : Nat
  sbase : Nat
  ssize : Nat
  /-- true: GENERAL addresses. -/
  sloc : Bool
  /-- function of host accesses: 0 the PF, k + 1 the VF. -/
  sfunc : Nat
  esize : Nat
  eloc : Bool
  sport : Nat
  emsix : Nat
  ebase : Nat
  wbaddr : Nat
  thaddr : Option Nat
  rr : Option Nat
  fq : Option Nat
  rxmsg : Nat
  rxbytes : Nat
  rto : Nat
  retry : Nat
  rnrRetry : Nat
  rnrDly : Nat
  kaint : Nat
  cqszlog : Nat
  rbszlog : Nat
  rbclog : Nat
  replKey : Nat
  replOff : Nat
  replSize : Nat
  deriving DecidableEq, Repr

/-- What waits for an entry to count as posted: nothing of the package's, or a log entry's replication (R525). -/
inductive Purpose where
  | host
  | message
  | log (part seq : Nat)
  deriving DecidableEq, Repr

/-- A package message or result write that waits for its turn as an entry of a connection (R521, R518, R525). -/
structure PkgMsg where
  write : Bool
  final : Bool
  mkind : Nat
  rkey : Nat
  roff : Nat
  payload : List Byte
  act : Nat
  part : Nat
  purpose : Purpose
  deriving DecidableEq, Repr

/-- A data packet made from an entry, kept until acknowledged (R503). -/
structure TxPkt where
  psn : Nat
  msn : Nat
  write : Bool
  final : Bool
  first : Bool
  last : Bool
  mkind : Nat
  mlen : Nat
  moff : Nat
  rkey : Nat
  roff : Nat
  payload : List Byte
  act : Nat
  part : Nat
  sent : Bool
  resends : Nat
  deriving DecidableEq, Repr

/-- A started entry that does not yet count as posted (R498). -/
structure TxEntry where
  msn : Nat
  firstPsn : Nat
  packets : Nat
  send : Bool
  /-- counted in SCOUNT (R504). -/
  counted : Bool
  rnrTries : Nat
  rnrWait : Bool
  purpose : Purpose
  deriving DecidableEq, Repr

/-- A packet accepted into staging (R501, R510). -/
structure RxPkt where
  psn : Nat
  msn : Nat
  write : Bool
  final : Bool
  first : Bool
  last : Bool
  mkind : Nat
  mlen : Nat
  moff : Nat
  rkey : Nat
  roff : Nat
  payload : List Byte
  /-- a WRITE that has been placed, kept while its PSN is above APSN. -/
  placed : Bool
  deriving DecidableEq, Repr

/-- Causes of the table "Event and error entry". -/
inductive ErrCause where
  | key | domain | bounds | rights | fenced | rnr | retry | silent | port | nonce
  deriving DecidableEq, Repr

/-- A connection that is ACTIVE, or in ERROR with its cause (R496). A FREE one is not listed. -/
structure Conn where
  cfg : ConnCfg
  error : Option ErrCause
  /-- the ERROR packet that R515 repeats: cause code and MSN. -/
  errPkt : Option (Nat × Nat)
  onAlt : Bool
  /-- send ring: producer index, consumer index, next entry to start. -/
  spidx : Nat
  scidx : Nat
  snext : Nat
  nextMsn : Nat
  nextPsn : Nat
  pkg : List PkgMsg
  entries : List TxEntry
  pkts : List TxPkt
  /-- PSNs to send again, and whether the resend counts against RETRY (R503). -/
  resend : List (Nat × Bool)
  scount : Nat
  bcount : Nat
  mlim : Nat
  blim : Nat
  /-- the tag history, by MSN mod 65,536 (R498). -/
  tags : Tbl Nat
  /-- receiver: APSN, staged packets, packets since the last ACK, an ACK owed. -/
  apsn : Nat
  staged : List RxPkt
  sinceAck : Nat
  ackOwed : Bool
  delivered : Nat
  released : Nat
  grant : Nat
  sentMlim : Nat
  sentBlim : Nat
  /-- keys, transmit counter, highest nonce accepted and the nonces seen (R526 to R528). -/
  txKey : Option (List Byte)
  rxKey : Option (List Byte)
  txCtr : Nat
  rxHigh : Nat
  rxSeen : List Nat
  /-- error ring: producer and consumer counts. -/
  ep : Nat
  ec : Nat
  /-- results of the peer's queries (R518): producer, consumer, phase, RBNEXT, RBHELD, and each written entry's
  RB_FIRST and RB_USED. -/
  cqP : Nat
  cqC : Nat
  cphase : Bool
  rbNext : Nat
  rbHeld : Nat
  written : Tbl (Nat × Nat)
  /-- buffers reserved by the placement in progress, and its job, 0 for none (R441, R518). -/
  resv : Nat
  resvJob : Nat
  /-- replication ring position (R525). -/
  replPos : Nat
  deriving DecidableEq, Repr

/-- A registered region (R494); its tag outlives it. -/
structure Region where
  used : Bool
  tag : Nat
  pd : Nat
  /-- 0 the PF's host memory, 1 the VF's, 2 GENERAL. -/
  space : Nat
  remoteWrite : Bool
  base : Nat
  len : Nat
  deriving DecidableEq, Repr

/-- A receive ring (R506): producer and consumer index modulo the size, and PHASE of the current pass. -/
structure RxRing where
  pd : Nat
  loc : Bool
  func : Nat
  size : Nat
  base : Nat
  pidx : Nat
  cidx : Nat
  phase : Bool
  deriving DecidableEq, Repr

/-- A protection domain with its event ring (R493). -/
structure Pd where
  loc : Bool
  func : Nat
  size : Nat
  msix : Nat
  base : Nat
  p : Nat
  c : Nat
  deriving DecidableEq, Repr

/-- The fabric block. -/
structure Fabric where
  ports : List FabPort
  links : List FabLink
  conns : Tbl Conn
  regions : Tbl Region
  rings : Tbl RxRing
  pds : Tbl Pd
  rnr : W32
  badPkt : W32
  authFail : W32
  evDrop : W32
  orphan : W32
  dbDrop : W32
  deriving DecidableEq, Repr

/-- The fabric after any reset (R536). DESIGN CHOICE, log 14. -/
def Fabric.reset : Fabric :=
  { ports := List.replicate 8 ⟨0, false, [0, 1, 2, 3]⟩, links := List.replicate 32 FabLink.reset, conns := [],
    regions := [], rings := [], pds := [], rnr := 0, badPkt := 0, authFail := 0, evDrop := 0, orphan := 0, dbDrop := 0 }

end Sys2Proof.Machine
end

