-- ==== Sys2Proof/Machine/Net.lean ====
section
/-!
DEFINITION. Sys2Proof/Machine/Net.lean: the Ethernet, IP and UDP headers that carry BFT, ARP and Neighbor Discovery
(R486, R487, R489). These standard headers are in network byte order (R15).
-/
namespace Sys2Proof.Machine

/-- The `n` big-endian bytes of a number. -/
def beBytes (n v : Nat) : List Byte := (leBytes n v).reverse

/-- The number that a big-endian byte string spells. -/
def beNat (bs : List Byte) : Nat := leNat bs.reverse

/-- A big-endian field of a frame. -/
def beAt (bs : List Byte) (off len : Nat) : Nat := beNat ((bs.drop off).take len)

/-- Sum of the 16-bit words of a byte string, odd lengths padded with 0. -/
def sum16 : List Byte → Nat
  | [] => 0
  | [a] => a.toNat * 256
  | a :: b :: t => a.toNat * 256 + b.toNat + sum16 t

/-- The Internet checksum of a byte string. -/
def inetSum (bs : List Byte) : Nat :=
  let s := sum16 bs
  let s := s % 65536 + s / 65536
  let s := s % 65536 + s / 65536
  let s := s % 65536 + s / 65536
  65535 - s

/-- An Ethernet header with the link's tag (R486): EtherType `t`. -/
def ethHdr (lk : LinkCfg) (dst pcp t : Nat) : List Byte :=
  beBytes 6 dst ++ beBytes 6 lk.mac ++
    (if lk.vlan then beBytes 2 0x8100 ++ beBytes 2 (pcp % 8 * 2 ^ 13 + lk.vid % 2 ^ 12) else []) ++ beBytes 2 t

/-- A UDP datagram (R489): checksum over the pseudo-header, 0 sent as 0xFFFF. -/
def udpBytes (pseudo : List Byte) (sport dport : Nat) (pl : List Byte) : List Byte :=
  let len := 8 + pl.length
  let h := beBytes 2 sport ++ beBytes 2 dport ++ beBytes 2 len
  let c := inetSum (pseudo ++ beBytes 2 len ++ h ++ [0#8, 0#8] ++ pl)
  h ++ beBytes 2 (if c = 0 then 0xFFFF else c) ++ pl

/-- An IPv4 header: DF set, no options, TTL 64, ECN 00 (R489). -/
def ip4Hdr (dscp src dst proto len : Nat) : List Byte :=
  let a := [0x45#8] ++ beBytes 1 (dscp * 4) ++ beBytes 2 (20 + len) ++ beBytes 2 0 ++ beBytes 2 0x4000
    ++ [0x40#8] ++ beBytes 1 proto
  let b := beBytes 4 src ++ beBytes 4 dst
  a ++ beBytes 2 (inetSum (a ++ [0#8, 0#8] ++ b)) ++ b

/-- An IPv6 header: flow label 0, no extension headers (R489). -/
def ip6Hdr (dscp src dst next hop len : Nat) : List Byte :=
  beBytes 4 (6 * 2 ^ 28 + dscp * 4 * 2 ^ 20) ++ beBytes 2 len ++ beBytes 1 next ++ beBytes 1 hop
    ++ beBytes 16 src ++ beBytes 16 dst

/-- The frame that carries a UDP payload of a connection over a link (R489). -/
def udpFrame (lk : LinkCfg) (v6 : Bool) (dstMac dstIp sport dport dscp pcp : Nat) (pl : List Byte) : List Byte :=
  if v6 then
    let u := udpBytes (beBytes 16 lk.ipv6 ++ beBytes 16 dstIp ++ beBytes 2 0 ++ beBytes 2 17) sport dport pl
    ethHdr lk dstMac pcp 0x86DD ++ ip6Hdr dscp lk.ipv6 dstIp 17 64 u.length ++ u
  else
    let u := udpBytes (beBytes 4 lk.ipv4 ++ beBytes 4 dstIp ++ beBytes 2 17) sport dport pl
    ethHdr lk dstMac pcp 0x0800 ++ ip4Hdr dscp lk.ipv4 dstIp 17 u.length ++ u

/-- What a received frame is: EtherType and what follows the Ethernet header, when it is addressed to the link. -/
def stripEth (lk : LinkCfg) (f : List Byte) : Option (Nat × List Byte) :=
  if f.length < 14 then none
  else if lk.vlan then
    (if beAt f 12 2 = 0x8100 && beAt f 14 2 % 2 ^ 12 = lk.vid then some (beAt f 16 2, f.drop 18) else none)
  else some (beAt f 12 2, f.drop 14)

/-- A received UDP datagram. -/
structure Datagram where
  v6 : Bool
  src : Nat
  sport : Nat
  payload : List Byte
  deriving DecidableEq, Repr

/-- The UDP part of a datagram for the link's BFT port, checksum checked (R489). -/
def parseUdp (lk : LinkCfg) (v6 : Bool) (src : Nat) (pseudo u : List Byte) : Option Datagram :=
  let len := beAt u 4 2
  if u.length < 8 || len < 8 || u.length < len then none
  else
    let u := u.take len
    if inetSum (pseudo ++ beBytes 2 len ++ u) = 0 && beAt u 6 2 != 0 && beAt u 2 2 = lk.bftPort then
      some ⟨v6, src, beAt u 0 2, u.drop 8⟩
    else none

/-- The BFT datagram in a received frame, if it is one for this link (R489): no options, no extension headers, checksums
good, the link's own address and BFT port. -/
def parseFrame (lk : LinkCfg) (f : List Byte) : Option Datagram :=
  match stripEth lk f with
  | none => none
  | some (t, p) =>
    if t = 0x0800 then
      let len := beAt p 2 2
      if p.length ≥ 20 && beAt p 0 1 = 0x45 && inetSum (p.take 20) = 0 && beAt p 9 1 = 17
          && beAt p 6 2 % 2 ^ 14 = 0 && beAt p 16 4 = lk.ipv4 && lk.ipv4 != 0 && len ≥ 28 && p.length ≥ len then
        parseUdp lk false (beAt p 12 4) (slice p 12 8 ++ beBytes 2 17) ((p.take len).drop 20)
      else none
    else if t = 0x86DD then
      if p.length ≥ 40 && beAt p 0 1 / 16 = 6 && beAt p 6 1 = 17 && beAt p 24 16 = lk.ipv6 && lk.ipv6 != 0
          && p.length ≥ 40 + beAt p 4 2 then
        parseUdp lk true (beAt p 8 16) (slice p 8 32 ++ beBytes 2 0 ++ beBytes 2 17)
          ((p.drop 40).take (beAt p 4 2))
      else none
    else none

/-- Is the size of a frame, without its FCS, one that a link takes: 64 to 9,216 bytes with it (R486)? And a short frame padded to
the least size. DESIGN CHOICE, log 185. -/
def frameSizeOk (f : List Byte) : Bool := decide (60 ≤ f.length) && decide (f.length ≤ 9212)
def padFrame (f : List Byte) : List Byte := f ++ List.replicate (60 - f.length) 0#8

/-- The answer to an ARP request for the link's own address (R487), if the frame is one. -/
def arpReply (lk : LinkCfg) (f : List Byte) : Option (List Byte) :=
  match stripEth lk f with
  | some (t, p) =>
    if t = 0x0806 && p.length ≥ 28 && beAt p 0 8 = 0x0001080006040001 && beAt p 24 4 = lk.ipv4 && lk.ipv4 != 0 then
      some (padFrame (ethHdr lk (beAt p 8 6) 0 0x0806 ++ beBytes 8 0x0001080006040002 ++ beBytes 6 lk.mac
        ++ beBytes 4 lk.ipv4 ++ slice p 8 10))
    else none
  | none => none

/-- The answer to a Neighbor Solicitation for the link's own address (R487), if the frame is one: a solicited
Neighbor Advertisement with the link's MAC address. -/
def ndReply (lk : LinkCfg) (f : List Byte) : Option (List Byte) :=
  match stripEth lk f with
  | some (t, p) =>
    if t = 0x86DD && p.length ≥ 64 && beAt p 0 1 / 16 = 6 && beAt p 6 1 = 58 && beAt p 7 1 = 255
        && beAt p 40 2 = 0x8700 && beAt p 48 16 = lk.ipv6 && lk.ipv6 != 0
        && inetSum (slice p 8 32 ++ beBytes 4 (beAt p 4 2) ++ beBytes 4 58 ++ (p.drop 40).take (beAt p 4 2)) = 0 then
      let src := beAt p 8 16
      let dst := if src = 0 then 0xFF020000000000000000000000000001 else src
      let body := beBytes 4 (if src = 0 then 0x20000000 else 0x60000000) ++ beBytes 16 lk.ipv6
        ++ [2#8, 1#8] ++ beBytes 6 lk.mac
      let pseudo := beBytes 16 lk.ipv6 ++ beBytes 16 dst ++ beBytes 4 32 ++ beBytes 4 58
      let c := inetSum (pseudo ++ beBytes 2 0x8800 ++ [0#8, 0#8] ++ body)
      some (ethHdr lk (beAt f 6 6) 0 0x86DD ++ ip6Hdr 0 lk.ipv6 dst 58 255 32
        ++ beBytes 2 0x8800 ++ beBytes 2 c ++ body)
    else none
  | none => none

end Sys2Proof.Machine
end

