-- ==== Sys2Proof/Machine/Memory.lean ====
section
/-!
DEFINITION. Sys2Proof/Machine/Memory.lean: byte memories as canonical lists of cells. An unlisted byte reads 0
(HBM is zeroed by boot stage HBM, R230; plate memory reads zero after reset, R167).
-/
namespace Sys2Proof.Machine

/-- A byte memory: addresses strictly rising, no listed byte equal to 0. -/
abbrev Mem := List Host.Cell

/-- The byte at an address; an unlisted byte reads 0. DESIGN CHOICE, log 8. -/
def Mem.read : Mem → Nat → Byte
  | [], _ => 0#8
  | (k, v) :: t, a => if a = k then v else if a < k then 0#8 else Mem.read t a

/-- Insert or replace a listed byte, or remove it when it becomes 0. -/
def Mem.write : Mem → Nat → Byte → Mem
  | [], a, b => if b = 0#8 then [] else [(a, b)]
  | (k, v) :: t, a, b =>
    if a = k then (if b = 0#8 then t else (k, b) :: t)
    else if a < k then (if b = 0#8 then (k, v) :: t else (a, b) :: (k, v) :: t)
    else (k, v) :: Mem.write t a b

/-- The canonical form: addresses strictly rising, no entry equal to what an unlisted address reads as. -/
def Memory.wf : Mem → Bool
  | [] => true
  | [(_, v)] => v != 0#8
  | (a, v) :: (b, w) :: t => (v != 0#8) && decide (a < b) && Memory.wf ((b, w) :: t)

/-- The `n` bytes from an address. -/
def Mem.readN (m : Mem) (a : Nat) : Nat → List Byte
  | 0 => []
  | n + 1 => m.read a :: Mem.readN m (a + 1) n

/-- Write a byte string from an address. -/
def Mem.writeN : Mem → Nat → List Byte → Mem
  | m, _, [] => m
  | m, a, b :: bs => Mem.writeN (m.write a b) (a + 1) bs

/-- Zero the addresses of a range: drop every listed byte in it. -/
def Mem.clear (m : Mem) (lo len : Nat) : Mem := m.filter (fun c => !(decide (lo ≤ c.1) && decide (c.1 < lo + len)))

/-- Copy `n` bytes at `a` of one memory to `b` of another. -/
def Mem.copyTo (src : Mem) (a n : Nat) (dst : Mem) (b : Nat) : Mem :=
  (src.filter (fun c => decide (a ≤ c.1) && decide (c.1 < a + n))).foldl (fun d c => d.write (b + (c.1 - a)) c.2)
    (dst.clear b n)

/-- XOR `n` bytes at `a` of a memory into those at `b` of another. -/
def Mem.xorTo (src : Mem) (a n : Nat) (dst : Mem) (b : Nat) : Mem :=
  (src.filter (fun c => decide (a ≤ c.1) && decide (c.1 < a + n))).foldl (fun d c =>
    d.write (b + (c.1 - a)) (d.read (b + (c.1 - a)) ^^^ c.2)) dst

/-- The little-endian number in `n` bytes from an address (R15). -/
def Mem.leAt (m : Mem) (a n : Nat) : Nat := leNat (m.readN a n)

end Sys2Proof.Machine
end

