-- ==== Sys2Proof/Machine/StateSystem.lean ====
section
/-!
DEFINITION. Sys2Proof/Machine/StateSystem.lean: the state of the blocks around the data path: fault collector, limits,
die-to-die links, sideband pins, debug registers and TAP (chapters 19, 21, 22), PCIe endpoint, mailboxes and Coelostat
(chapters 17, 18), boot and NOR flash (chapter 20), and the hold-up flush (chapter 13).
-/
namespace Sys2Proof.Machine

/-! ## Fault collector (R589 to R595) -/

/-- A reaction, in increasing strength (R591). -/
inductive Reaction where
  | record | interrupt | fence | safe
  deriving DecidableEq, Repr

/-- The fault collector (R589 to R595): source s is bit s; `react` lists the reactions that FCU_REACT changed. -/
structure Fcu where
  bits : BitVec 512
  react : Tbl Reaction
  /-- the package is in the safe state (R596), and its flash has gone idle and its clocks are gated. -/
  safe : Bool
  safeIdle : Bool
  /-- FCU_PARITY was set during the flush, and its safe state waits for the end of the flush (R595). -/
  parityWaits : Bool
  deriving DecidableEq, Repr

/-- The collector after a power-on reset (R609). -/
def Fcu.reset : Fcu := { bits := 0, react := [], safe := false, safeIdle := false, parityWaits := false }

/-! ## Limits, rails and clocks (R604 to R608, R649, R655 to R661) -/

/-- The clock domains (R38): CD_COREd and CD_NOCd of search die d, and the others by name. -/
inductive ClockDomain where
  | core (d : Nat)
  | noc (d : Nat)
  | nbu | hbm | flash | fab | serdes | pcie | coel | aon | mer | d2d | dbg | hold
  deriving DecidableEq, Repr

/-- Place of a domain in the table of R38. -/
def ClockDomain.idx : ClockDomain → Nat
  | .core d => d % 4
  | .noc d => 4 + d % 4
  | .nbu => 8
  | .hbm => 9
  | .flash => 10
  | .fab => 11
  | .serdes => 12
  | .pcie => 13
  | .coel => 14
  | .aon => 15
  | .mer => 16
  | .d2d => 17
  | .dbg => 18
  | .hold => 19

/-- A clock domain's setting (R38): whether its clock runs, and the frequency that firmware has asked for, in kHz. -/
structure ClockSet where
  run : Bool
  khz : Nat
  deriving DecidableEq, Repr

/-- Nominal frequency of each domain in kHz (R38), which is its ceiling (R605). -/
def clockNominal : List Nat :=
  List.replicate 4 2000000 ++ List.replicate 4 1500000 ++
    [1600000, 3200000, 1800000, 1400000, 156250, 1000000, 1200000, 32000, 100000, 2000000, 100000, 200000]

/-- The domains that run in any reset state (R38): SERDES, PCIE, COEL, AON, DBG and HOLD; CD_MER runs with MER_CLK. -/
def clockFree : List Nat := [12, 13, 14, 15, 16, 18, 19]

/-- The domains after reset (R38, R39): CD_COEL at 400 MHz, the others gated or at their nominal frequency. -/
def clocksReset : List ClockSet :=
  clockNominal.mapIdx (fun i f => { run := clockFree.contains i, khz := if i = 14 then 400000 else f })

/-- The limits block and the clocks and rails that rows report. -/
structure Power where
  /-- PWR_GOOD high, PERST_N asserted. -/
  good : Bool
  perst : Bool
  /-- the THERMTRIP latch (R607). -/
  trip : Bool
  /-- die d is throttled for temperature, SDd for current (LIM_STAT). -/
  thr : List Bool
  ilim : List Bool
  /-- sixteenths of nominal by which the throttled domains are lowered, 0 to 12 (R606). -/
  lower : List Nat
  ilower : List Nat
  /-- last measured TJ of the six dies, in degrees C. -/
  tj : List Nat
  /-- stack Hk runs its NBUs at half fetch rate (R606). -/
  hot : List Bool
  /-- VDD_COREd as measured, in mV (R605). -/
  vcore : List Nat
  /-- PCIE_REFCLK and FAB_REFCLK present; the core PLLs run from CD_HOLD (R649). -/
  pcieClk : Bool
  fabClk : Bool
  onHold : Bool
  /-- the 20 clock domains, in the order of the table of R38. -/
  clocks : List ClockSet
  /-- latest margin values by (KIND * 65536 + index) (R603). -/
  margins : Tbl Int
  deriving DecidableEq, Repr

/-- The limits block after reset (R609): LIM_STAT clear. Rails read nominal until measured. DESIGN CHOICE, log 10. -/
def Power.reset : Power :=
  { good := true, perst := true, trip := false, thr := List.replicate 6 false, ilim := List.replicate 4 false,
    lower := List.replicate 6 0, ilower := List.replicate 4 0, tj := List.replicate 6 0,
    hot := List.replicate 16 false, vcore := List.replicate 4 750, pcieClk := true, fabClk := true, onHold := false,
    clocks := clocksReset, margins := [] }

/-! ## Die-to-die links (R599 to R602) -/

/-- A die-to-die link: the failed lanes of each module (0 to 63 data, 64 and 65 spare), and whether it is up. -/
structure D2dLink where
  trained : Bool
  failed : List (List Nat)
  /-- brought down by eight failed replays in a row (R601). -/
  dead : Bool
  deriving DecidableEq, Repr

/-- Modules of link i (D2D_LINKi): links 4 to 11 have two. -/
def d2dModules (i : Nat) : Nat := if i < 4 then 4 else 2

/-- Links as reset leaves them until firmware trains them (R609). -/
def d2dReset : List D2dLink :=
  (List.range 12).map (fun i => { trained := false, failed := List.replicate (d2dModules i) [], dead := false })

/-! ## Sideband pins and debug registers (R650 to R654, R663 debug registers) -/

/-- The sideband block (R650 to R652): `func` as written, `eff` the function that drives each pin, and the pins in
their inert interval. -/
structure Sideband where
  func : BitVec 32
  out : BitVec 16
  oe : BitVec 16
  eff : BitVec 32
  inert : List Nat
  /-- levels that the board drives; an undriven pin reads 1. -/
  ext : BitVec 16
  deriving DecidableEq, Repr

/-- DESIGN CHOICE, log 11. -/
def Sideband.reset : Sideband := { func := 0, out := 0, oe := 0, eff := 0, inert := [], ext := 0xFFFF }

/-- The debug registers and the TAP (R654, R673 to R675). -/
structure Debug where
  scratch : List (BitVec 32)
  injEn : Bool
  ir : BitVec 8
  ext : Bool
  deriving DecidableEq, Repr

def Debug.reset : Debug := { scratch := List.replicate 4 0, injEn := false, ir := 0x01, ext := false }

/-! ## PCIe endpoint (R537 to R544) -/

/-- What the package sends out: a posted write into a function's memory (0 the PF, k + 1 VF k + 1) with its
relaxed-ordering attribute where the spec gives it (R118, R509 to R511, R537), an MSI-X message, or a frame's BFT packet on a
fabric link. -/
inductive Out where
  | write (func addr : Nat) (bytes : List (BitVec 8)) (relaxed : Option Bool)
  | msix (func vec : Nat)
  | frame (link conn : Nat) (bytes : List (BitVec 8))
  | net (link : Nat) (bytes : List (BitVec 8))
  deriving DecidableEq, Repr

/-- The PCIe endpoint. -/
structure Pcie where
  trained : Bool
  /-- held in Detect by the safe state (R596). -/
  detect : Bool
  vfEnable : Bool
  /-- Bus Master Enable and D3hot of each function. -/
  bme : List Bool
  d3 : List Bool
  /-- posted writes that wait for bus mastering (R539), oldest first. -/
  held : List Out
  /-- unmasked vectors, and pending messages, as (function, vector). -/
  unmasked : List (Nat × Nat)
  pend : List (Nat × Nat)
  deriving DecidableEq, Repr

/-- PRESUMED, log 9. -/
def Pcie.reset : Pcie :=
  { trained := false, detect := false, vfEnable := false, bme := List.replicate 17 false,
    d3 := List.replicate 17 false, held := [], unmasked := [], pend := [] }

/-! ## Mailboxes and the Coelostat (R545 to R559, R560 to R579) -/

/-- A request slot that the front end took (R547): its mailbox, the slot's bytes, and its place in the order of
taking. -/
structure Request where
  mb : Nat
  slot : List (BitVec 8)
  seq : Nat
  deriving DecidableEq, Repr

/-- STATE of a result table entry (CMD_RESULT). -/
inductive ResState where
  | done | deferred | running
  deriving DecidableEq, Repr

/-- A result table entry (R571); `stored` once it lies in the Coelostat store (R587). -/
structure ResEntry where
  token : Nat
  opcode : Nat
  state : ResState
  status : Nat
  gen : Nat
  seq : Nat
  stored : Bool
  deriving DecidableEq, Repr

/-- A deferred command (R568): the partitions whose shortage it waits for, and whether a watch end has already sent
it to the command queue. -/
structure Deferred where
  req : Request
  parts : List Nat
  ready : Bool
  deriving DecidableEq, Repr

/-- A mailbox (R545 to R550). -/
structure Mailbox where
  rqLo : BitVec 32
  rqHi : BitVec 32
  rsLo : BitVec 32
  rsHi : BitVec 32
  en : Bool
  szlog : Nat
  rqPidx : Nat
  rsCidx : Nat
  rqCidx : Nat
  rsPidx : Nat
  /-- commands outstanding (R547). -/
  outst : Nat
  ringErr : Bool
  evLost : Bool
  /-- a request read failed: nothing is taken until EN goes from 0 to 1 (R549). -/
  stuck : Bool
  evSeq : Nat
  /-- taken commands that no core has started, in ring order. -/
  waiting : List Request
  deferred : List Deferred
  results : List ResEntry
  /-- slots that wait until the function can master again (R539, R548), oldest first: a response or not, and its bytes. -/
  held : List (Bool × List (BitVec 8))
  deriving DecidableEq, Repr

def Mailbox.reset : Mailbox :=
  { rqLo := 0, rqHi := 0, rsLo := 0, rsHi := 0, en := false, szlog := 0, rqPidx := 0, rsCidx := 0, rqCidx := 0,
    rsPidx := 0, outst := 0, ringErr := false, evLost := false, stuck := false, evSeq := 0, waiting := [],
    deferred := [], results := [], held := [] }

/-- COEL_STAT.STATE (R558 table). -/
inductive CoelState where
  | rom | training | ready | restarting | activating
  deriving DecidableEq, Repr

/-- A command that a Coelostat core runs: `late` when it was deferred and so answers nothing further; `begun` once it has
passed its tests and waits to go on, with how far it has come and what it has counted. -/
structure Running where
  req : Request
  late : Bool
  begun : Bool
  pos : Nat
  tally : Nat
  deriving DecidableEq, Repr

/-- A command that has passed its commit point and whose response waits (R567, R588): for the end of a fence or an
unfence of a partition. -/
structure Waiter where
  req : Request
  part : Nat
  unfence : Bool
  deriving DecidableEq, Repr

/-- An event raised (R548), not yet written only while its function cannot master. -/
structure Coel where
  state : CoelState
  dpen : Bool
  wdcnt : BitVec 32
  running : Tbl Running
  waiters : List Waiter
  /-- the mailbox whose turn comes next (R552), and the number of the next request taken. -/
  turn : Nat
  nextSeq : Nat
  /-- private key pairs of BFT_KEY_AGREE by connection: number of the draw. -/
  keyPairs : Tbl Nat
  deriving DecidableEq, Repr

/-- DESIGN CHOICE, log 164. -/
def Coel.reset : Coel :=
  { state := .rom, dpen := false, wdcnt := 0, running := [], waiters := [], turn := 0, nextSeq := 0, keyPairs := [] }

/-! ## Boot, NOR flash and firmware update (R610 to R643) -/

/-- STAGE of BOOT_STAT. -/
inductive Stage where
  | reset | rom | norRead | verify | fwStart | clocks | hbm | flash | restore | ready | serving
  | flush | safe | recovery
  deriving DecidableEq, Repr

/-- State of a NOR slot (R626 table). -/
inductive SlotState where
  | empty | partial_ | complete | verified | trial | confirmed | failed
  deriving DecidableEq, Repr

/-- A control block copy (R626), valid; an invalid copy is absent. `unconf` counts the 0 bits of UNCONF. -/
structure Cb where
  seq : Nat
  active : Bool
  /-- PREV: none, or the slot. -/
  prev : Option Bool
  trial : Bool
  sa : SlotState
  sb : SlotState
  unconf : Nat
  deriving DecidableEq, Repr

/-- A settings copy (R629): sequence, format, the cell-mode pair of R574 (address and four parameters), and the rest
of its bytes. -/
structure Settings where
  seq : Nat
  setver : Nat
  pair : Option (List Nat)
  sbFunc : BitVec 32
  deriving DecidableEq, Repr

/-- The NOR flash (R625): held through power. Slot bytes are kept complemented, so that an erased byte reads 0xFF. -/
structure Nor where
  present : Bool
  cb0 : Option Cb
  cb1 : Option Cb
  /-- the download state: image length and the chunks marked present (R632). -/
  dl : Option (Nat × List Nat)
  s0 : Option Settings
  s1 : Option Settings
  slots : Mem
  deriving DecidableEq, Repr

/-- A blank NOR flash. DESIGN CHOICE, log 7. -/
def Nor.blank : Nor := { present := true, cb0 := none, cb1 := none, dl := none, s0 := none, s1 := none, slots := [] }

/-- LASTRST of BOOT_STAT. -/
inductive LastRst where
  | powerOn | perst | rstCtl
  deriving DecidableEq, Repr

/-- The boot ROM's and firmware's registers and timers (R617 to R643). -/
structure Boot where
  stage : Stage
  err : Nat
  slot : Bool
  trial : Bool
  unconf : Nat
  lastRst : LastRst
  version : Nat
  digest : List (BitVec 8)
  /-- the trial timer runs; it has expired (R639). -/
  trialRun : Bool
  trialExpired : Bool
  /-- the entropy source has passed its start-up tests (R623). -/
  entropy : Bool
  /-- a pending activation window: its instant, and the counter value at which it was set (R636). -/
  window : Option (Nat × Nat)
  /-- FW_ACTIVATE ran with no window to wait for: the window opens at once. -/
  openNow : Bool
  /-- partitions that were SERVING before the activation; a watchdog restart in the trial (R638). -/
  servedBefore : List Nat
  wdInTrial : Bool
  /-- settings in force: which copy (R629). -/
  useS1 : Bool
  /-- the ROM ended a trial and fell back at this start (R617, R629). -/
  fellBack : Bool
  deriving DecidableEq, Repr

/-- DESIGN CHOICE, log 13. -/
def Boot.reset : Boot :=
  { stage := .reset, err := 0, slot := false, trial := false, unconf := 0, lastRst := .powerOn, version := 0,
    digest := List.replicate 48 0#8, trialRun := false, trialExpired := false, entropy := false, window := none,
    openNow := false, servedBefore := [], wdInTrial := false, useS1 := false, fellBack := false }

/-! ## The hold-up flush (R422 to R427) -/

/-- FLS_HOLDSTAT.STATE. -/
inductive HoldState where
  | idle | flushing | done
  deriving DecidableEq, Repr

/-- What follows the end of a flush (R612): nothing, a reset by PERST_N, or a reset by RST_CTL. -/
inductive AfterFlush where
  | stay | perst | rstCtl
  deriving DecidableEq, Repr

/-- The flush (R423): parts still to flush by partition (0 log tail, 1 journal tail, 2 dirty-page map, 3 done). -/
structure Flush where
  state : HoldState
  /-- HOLDUP_N counts as asserted. -/
  holdup : Bool
  alarms : BitVec 8
  parts : List Nat
  after : AfterFlush
  /-- FLS_LASTFLUSH: OUTCOME and ALARMS. -/
  lastOutcome : Nat
  lastAlarms : BitVec 8
  /-- HOLDUP_N or a flush's end has left the package inert until the next reset (R422). -/
  inertDone : Bool
  deriving DecidableEq, Repr

def Flush.reset : Flush :=
  { state := .idle, holdup := false, alarms := 0, parts := [], after := .stay, lastOutcome := 0, lastAlarms := 0,
    inertDone := false }

end Sys2Proof.Machine
end

