-- ==== Sys2Proof/Machine/FabricOps.lean ====
section
/-!
DEFINITION. Sys2Proof/Machine/FabricOps.lean: ports, links, packets, credits and both ends of a BFT connection as
operations on the fabric block alone (chapter 16).
-/
namespace Sys2Proof.Machine

/-- What an operation of the fabric asks of the rest of the package: an output, a write to GENERAL addresses (R375),
bytes charged to an activity of a partition (R499, R524), and a log entry's replication that counts as posted (R525). -/
inductive FabEff where
  | out (o : Out)
  | gen (addr : Nat) (bs : List Byte)
  | charge (part act n : Nat)
  | posted (part seq : Nat)
  deriving DecidableEq, Repr

/-! ## Ports and links (R485, R488) -/

/-- MODE with its reserved code decoded. -/
def portMode (m : Nat) : Nat := if m = 3 then 0 else m

/-- Does the mode create link s of the port (R485)? -/
def modeHasLink (m s : Nat) : Bool :=
  match portMode m with
  | 0 => s == 0
  | 1 => decide (s ≤ 1)
  | _ => decide (s ≤ 3)

/-- Are the transmitters of a port squelched? `quiet`: the package squelches all of them (R535, R534, R536). -/
def Fabric.squelched (f : Fabric) (n : Nat) (quiet : Bool) : Bool :=
  quiet || !((f.ports[n / 4]?).map (·.enable)).getD false

/-- A link by its number. -/
def Fabric.link (f : Fabric) (n : Nat) : FabLink := (f.links[n]?).getD FabLink.reset

/-- FAB_LINKn. -/
def Fabric.linkReg (f : Fabric) (n : Nat) (quiet : Bool) : Nat :=
  let l := f.link n
  portMode (((f.ports[n / 4]?).map (·.mode)).getD 0) + 2 ^ 2 * b2n l.exists_ + 2 ^ 3 * b2n l.up
    + 2 ^ 4 * b2n l.lfault + 2 ^ 5 * b2n l.rfault + 2 ^ 6 * b2n (f.squelched n quiet) + 2 ^ 7 * b2n l.downEv

/-- Change one link. -/
def Fabric.modLink (f : Fabric) (n : Nat) (g : FabLink → FabLink) : Fabric := { f with links := modNth f.links n g }

/-- Change one connection. -/
def Fabric.modConn (f : Fabric) (n : Nat) (g : Conn → Conn) : Fabric := { f with conns := f.conns.adj n g }

/-! ## Packets (R489 to R491) -/

/-- A BFT header, decoded (R490). -/
structure BftHdr where
  typ : Nat
  first : Bool
  last : Bool
  final : Bool
  enc : Bool
  ackReq : Bool
  plen : Nat
  dconn : Nat
  psn : Nat
  msn : Nat
  mlen : Nat
  moff : Nat
  mkind : Nat
  rkey : Nat
  roff : Nat
  apsn : Nat
  mlim : Nat
  blim : Nat
  ncode : Nat
  npsn : Nat
  cause : Nat
  deriving DecidableEq, Repr

/-- Decode the 32 header bytes (R490): reserved codes as the table gives. -/
def decodeBft (b : List Byte) : BftHdr :=
  let t := field b 4 4
  let mk := field b 192 4
  let nc := field b 208 4
  { typ := if t > 6 then 5 else t, first := fbit b 8, last := fbit b 9, final := fbit b 10, enc := fbit b 11,
    ackReq := fbit b 12, plen := field b 16 16, dconn := field b 32 18, psn := field b 64 32, msn := field b 96 32,
    mlen := min (field b 128 32) 1048576, moff := field b 160 32, mkind := if mk > 8 then 0 else mk,
    rkey := field b 128 32, roff := field b 160 64, apsn := field b 128 32, mlim := field b 160 16,
    blim := field b 176 32, ncode := if nc = 1 then 1 else 0, npsn := field b 224 32, cause := field b 128 8 }

/-- The base header, bytes 0 to 15. -/
def baseHdr (typ : Nat) (first last final enc ackReq : Bool) (plen dconn psn msn : Nat) : List Byte :=
  packBytes 16 [(4, 1), (4, typ), (1, b2n first), (1, b2n last), (1, b2n final), (1, b2n enc), (1, b2n ackReq), (3, 0),
    (16, plen), (18, dconn), (14, 0), (32, psn), (32, msn)]

/-- The operation header of a SEND, a WRITE, a control packet and an ERROR packet, bytes 16 to 31. -/
def sendHdr (mlen moff mkind : Nat) : List Byte := packBytes 16 [(32, mlen), (32, moff), (4, mkind)]
def writeHdr (rkey roff : Nat) : List Byte := packBytes 16 [(32, rkey), (64, roff)]
def ctlHdr (apsn mlim blim ncode npsn : Nat) : List Byte :=
  packBytes 16 [(32, apsn), (16, mlim), (32, blim), (4, ncode), (12, 0), (32, npsn)]
def errHdr (cause : Nat) : List Byte := packBytes 16 [(8, cause)]

/-- Cause codes (R515 table). -/
def ErrCause.code : ErrCause → Nat
  | .key => 1 | .domain => 2 | .bounds => 3 | .rights => 4 | .fenced => 5 | .rnr => 6 | .retry => 7 | .silent => 8
  | .port => 9 | .nonce => 10

/-- A code of an ERROR packet: those not produced decode as KEY. -/
def causeOf (c : Nat) : ErrCause :=
  match c with
  | 2 => .domain | 3 => .bounds | 4 => .rights | 5 => .fenced | 6 => .rnr | 7 => .retry | 8 => .silent | 9 => .port
  | 10 => .nonce | _ => .key

/-- The link a connection uses now (R531), and the peer's address there. -/
def Conn.link (c : Conn) : Nat := if c.onAlt then c.cfg.alt.getD c.cfg.link else c.cfg.link
def Conn.peerMac (c : Conn) : Nat := if c.onAlt then c.cfg.amac else c.cfg.pmac
def Conn.peerIp (c : Conn) : Nat := if c.onAlt then c.cfg.aip else c.cfg.pip
def Conn.peerPort (c : Conn) : Nat := if c.onAlt then c.cfg.aport else c.cfg.pport

/-- May the connection send at all: plaintext, or both keys set (R576)? -/
def Conn.keyed (c : Conn) : Bool := !c.cfg.enc || (c.txKey.isSome && c.rxKey.isSome)

/-- A packet's UDP payload under the connection's encryption (R526). -/
def Conn.seal (c : Conn) (hdr pl : List Byte) : Conn × List Byte :=
  match c.cfg.enc, c.txKey with
  | true, some k =>
    let nonce := leBytes 12 c.txCtr
    ({ c with txCtr := c.txCtr + 1 }, hdr ++ nonce ++ List.replicate 4 0#8 ++ Config.gcmSeal k nonce hdr pl)
  | _, _ => (c, hdr ++ pl)

/-- A packet put on a given link toward given addresses, and its bytes charged (R489, R499). -/
def Fabric.put (f : Fabric) (n link mac ip port act part : Nat) (c : Conn) (udp : List Byte) (quiet : Bool) :
    Fabric × List FabEff :=
  let l := f.link link
  if !l.up || f.squelched link quiet then (f, [])
  else
    let fr := udpFrame l.cfg c.cfg.ipv6 mac ip c.cfg.sport port c.cfg.dscp c.cfg.pcp udp
    (f.modLink link (fun l => { l with tx := l.tx + 1 }), [.out (.frame link n fr), .charge part act fr.length])

/-- Home partition of a connection (R492). -/
def connHome (n : Nat) : Nat := n / 16384 % 16

/-- Send one packet of a connection on the link it uses (R489, R526). -/
def Fabric.xmit (f : Fabric) (n : Nat) (hdr pl : List Byte) (act part : Nat) (quiet : Bool) : Fabric × List FabEff :=
  match f.conns.get? n with
  | none => (f, [])
  | some c =>
    if !c.keyed || (c.cfg.enc && c.txCtr ≥ 2 ^ 96) then (f, [])
    else
      let (c1, udp) := c.seal hdr pl
      let f1 := { f with conns := f.conns.set n c1 }
      f1.put n c1.link c1.peerMac c1.peerIp c1.peerPort act part c1 udp quiet

/-! ## Credits (R504, R505) -/

/-- 64-byte units of a payload. -/
def units64 (n : Nat) : Nat := ceilDiv n 64

/-- Staging units granted to all connections. -/
def Fabric.granted (f : Fabric) : Nat := (f.conns.vals.map (·.grant)).foldl (· + ·) 0

/-- Grow a connection's byte grant as far as free staging allows (R505): 32 MiB are 524,288 units. -/
def Fabric.grow (f : Fabric) (n : Nat) : Fabric :=
  let free := 524288 - f.granted
  f.modConn n (fun c => { c with grant := min (c.cfg.rxbytes / 64) (c.grant + free) })

/-- The limits a receiver grants (R505). -/
def Conn.mlimNow (c : Conn) : Nat := (c.delivered + c.cfg.rxmsg) % 2 ^ 16
def Conn.blimNow (c : Conn) : Nat := (c.released + c.grant) % 2 ^ 32

/-- Send an ACK, NAK, CREDIT or KEEPALIVE (R502, R505, R530): it carries the limits and the received-up-to number. -/
def Fabric.control (f : Fabric) (n typ ncode npsn msn : Nat) (quiet : Bool) : Fabric × List FabEff :=
  let f := f.grow n
  match f.conns.get? n with
  | none => (f, [])
  | some c =>
    let hdr := baseHdr typ false false false c.cfg.enc false 0 c.cfg.pconn 0 msn
      ++ ctlHdr c.apsn c.mlimNow c.blimNow ncode npsn
    let f1 := f.modConn n (fun c => { c with
      sentMlim := c.mlimNow, sentBlim := c.blimNow,
      sinceAck := if typ = 2 then 0 else c.sinceAck, ackOwed := if typ = 2 then false else c.ackOwed })
    f1.xmit n hdr [] c.cfg.act (connHome n) quiet

/-- Send the connection's ERROR packet (R513, R515). DEDUCED, log 119. -/
def Fabric.errorPkt (f : Fabric) (n cause msn : Nat) (quiet : Bool) : Fabric × List FabEff :=
  match f.conns.get? n with
  | none => (f, [])
  | some c =>
    f.xmit n (baseHdr 6 false false false c.cfg.enc false 0 c.cfg.pconn 0 msn ++ errHdr cause) [] c.cfg.act
      (connHome n) quiet

/-- Must a CREDIT packet go at once: a limit advanced by a quarter of its allowance (R505)? -/
def Conn.creditDue (c : Conn) : Bool :=
  decide (4 * ((c.mlimNow + 2 ^ 16 - c.sentMlim) % 2 ^ 16) ≥ c.cfg.rxmsg) ||
  decide (4 * ((c.blimNow + 2 ^ 32 - c.sentBlim) % 2 ^ 32) ≥ c.cfg.rxbytes / 64)

/-- May a SEND be started, and may a packet of `u` units be sent (R504)? -/
def Conn.sendCredit (c : Conn) : Bool :=
  let d := (c.mlim + 2 ^ 16 - c.scount % 2 ^ 16) % 2 ^ 16
  decide (1 ≤ d) && decide (d ≤ 32767)
def Conn.byteCredit (c : Conn) (u : Nat) : Bool :=
  let d := (c.blim + 2 ^ 32 - c.bcount % 2 ^ 32) % 2 ^ 32
  decide (u ≤ d) && decide (d < 2 ^ 31)

/-! ## Error entries (R496, R513 to R516) -/

/-- An event or error entry (R515 table). -/
def errorEntry (cause : ErrCause) (remote : Bool) (tag : Option Nat) (phase : Bool) (conn pd msn psn rkey : Nat) :
    List Byte :=
  packBytes 32 [(8, cause.code), (1, b2n remote), (1, b2n tag.isSome), (1, b2n phase), (5, 0), (18, conn), (14, 0),
    (16, pd), (32, msn), (32, psn), (64, tag.getD 0), (32, rkey)]

/-- A write into a ring of the host or of GENERAL addresses. -/
def ringWrite (general : Bool) (func addr : Nat) (bs : List Byte) : FabEff :=
  if general then .gen addr bs else .out (.write func addr bs none)

/-- Has a ring with producer count `p` and consumer index `c` a free entry (indices modulo the size)? DEDUCED, log 125. -/
def ringFree (size p c : Nat) : Bool := decide ((p + size - c % size) % size ≠ size - 1)

/-- PHASE of a ring's current pass: 1 on the first pass (R506, R515 table). -/
def passPhase (size p : Nat) : Bool := p / size % 2 = 0

/-- The connection enters ERROR (R496): one entry to its error ring and one to its PD's event ring.
DEDUCED, log 115. DEDUCED, log 119. DESIGN CHOICE, log 124. -/
def Fabric.fail (f : Fabric) (n : Nat) (cause : ErrCause) (remote : Bool) (tag : Option Nat) (msn psn rkey : Nat)
    (pkt : Option (Nat × Nat)) : Fabric × List FabEff :=
  match f.conns.get? n with
  | none => (f, [])
  | some c =>
    if c.error.isSome then (f, [])
    else
      let (c1, e1, d1) :=
        if ringFree c.cfg.esize c.ep c.ec then
          ({ c with ep := c.ep + 1 },
           [ringWrite c.cfg.eloc c.cfg.sfunc (c.cfg.ebase + 32 * (c.ep % c.cfg.esize))
              (errorEntry cause remote tag (passPhase c.cfg.esize c.ep) n c.cfg.pd msn psn 0),
            FabEff.out (.msix c.cfg.sfunc c.cfg.emsix)], 0)
        else (c, [], 1)
      let c2 := { c1 with error := some cause, errPkt := pkt, resend := [], staged := [] }
      let f1 := { f with conns := f.conns.set n c2 }
      match f1.pds.get? c.cfg.pd with
      | none => ({ f1 with evDrop := satAdd f1.evDrop d1 }, e1)
      | some p =>
        if ringFree p.size p.p p.c then
          ({ f1 with pds := f1.pds.set c.cfg.pd { p with p := p.p + 1 }, evDrop := satAdd f1.evDrop d1 },
           e1 ++ [ringWrite p.loc p.func (p.base + 32 * (p.p % p.size))
              (errorEntry cause remote tag (passPhase p.size p.p) n c.cfg.pd msn psn rkey),
            FabEff.out (.msix p.func p.msix)])
        else ({ f1 with evDrop := satAdd f1.evDrop (d1 + 1) }, e1)

/-- ERROR for a cause found here, with its ERROR packet sent (R503, R509, R513, R533). -/
def Fabric.failSend (f : Fabric) (n : Nat) (cause : ErrCause) (msn psn rkey : Nat) (quiet : Bool) :
    Fabric × List FabEff :=
  match f.conns.get? n with
  | none => (f, [])
  | some c =>
    if c.error.isSome then (f, [])
    else
      let (f1, e1) := f.fail n cause false none msn psn rkey (some (cause.code, msn))
      let (f2, e2) := f1.errorPkt n cause.code msn quiet
      (f2, e1 ++ e2)

/-! ## The sender (R497 to R504) -/

/-- The packets of an entry (R498): ceil(LEN / MTU), or one with PLEN 0. -/
def packetsOf (psn msn : Nat) (m : PkgMsg) (mtu : Nat) : List TxPkt :=
  let n := if m.payload.length = 0 then 1 else ceilDiv m.payload.length mtu
  (List.range n).map (fun i =>
    { psn := (psn + i) % 2 ^ 32, msn := msn, write := m.write, final := m.write && m.final, first := i == 0,
      last := i + 1 == n, mkind := m.mkind, mlen := m.payload.length, moff := mtu * i, rkey := m.rkey,
      roff := m.roff + mtu * i, payload := (m.payload.drop (mtu * i)).take mtu, act := m.act, part := m.part,
      sent := false, resends := 0 })

/-- Start an entry (R498, R504): MSN, packets, the tag history written before the first packet. -/
def Conn.start (c : Conn) (m : PkgMsg) (tag : Option Nat) : Conn × List FabEff :=
  let ps := packetsOf c.nextPsn c.nextMsn m c.cfg.mtu
  let e : TxEntry :=
    { msn := c.nextMsn, firstPsn := c.nextPsn, packets := ps.length, send := !m.write, counted := !m.write,
      rnrTries := 0, rnrWait := false, purpose := m.purpose }
  let c1 := { c with
    nextMsn := (c.nextMsn + 1) % 2 ^ 32, nextPsn := (c.nextPsn + ps.length) % 2 ^ 32, entries := c.entries ++ [e],
    pkts := c.pkts ++ ps, scount := if m.write then c.scount else (c.scount + 1) % 2 ^ 16,
    tags := match tag with | some t => c.tags.set (c.nextMsn % 65536) t | none => c.tags.erase (c.nextMsn % 65536) }
  match tag, c.cfg.thaddr with
  | some t, some a =>
    (c1, [ringWrite c.cfg.sloc c.cfg.sfunc (a + 8 * (c.nextMsn % 65536)) (leBytes 8 t)])
  | _, _ => (c1, [])

/-- A work entry decoded (R497), its source bytes given. -/
def workEntry (b payload : List Byte) (act part : Nat) : PkgMsg × Nat :=
  let w := field b 0 2 = 1
  let len := if w then field b 8 24 else min (field b 8 24) 1048576
  let mk := field b 4 4
  ({ write := w, final := fbit b 2, mkind := if mk > 8 then 0 else mk, rkey := field b 32 32, roff := le64 b 16,
     payload := padTo len payload, act := act, part := part, purpose := .host }, le64 b 24)

/-- Serial order: does `a` come before `b` (mod 2^32)? -/
def psnLt (a b : Nat) : Bool := decide (0 < (b + 2 ^ 32 - a) % 2 ^ 32) && decide ((b + 2 ^ 32 - a) % 2 ^ 32 < 2 ^ 31)

/-- Is packet p of an entry outside every RNR wait (R509)? -/
def Conn.waits (c : Conn) (p : TxPkt) : Bool := c.entries.any (fun e => e.msn == p.msn && e.rnrWait)

/-- The next packet a connection would send: a resend, or its first unsent packet within credit (R500, R504). -/
def Conn.nextPkt (c : Conn) : Option (TxPkt × Bool × Bool) :=
  if c.error.isSome || !c.keyed then none
  else
    match c.resend with
    | (p, counts) :: _ =>
      match c.pkts.find? (fun x => x.psn == p) with
      | some x => some (x, true, counts)
      | none => none
    | [] =>
      match c.pkts.find? (fun x => !x.sent && !c.waits x) with
      | some x => if c.byteCredit (units64 x.payload.length) then some (x, false, false) else none
      | none => none

/-- Drop resends whose packets have been acknowledged. -/
def Conn.trim (c : Conn) : Conn :=
  { c with resend := c.resend.filter (fun r => c.pkts.any (fun x => x.psn == r.1)) }

/-- The bytes of a data packet's headers. -/
def dataHdr (c : Conn) (p : TxPkt) : List Byte :=
  baseHdr (if p.write then 1 else 0) p.first p.last p.final c.cfg.enc p.last p.payload.length c.cfg.pconn p.psn p.msn
    ++ (if p.write then writeHdr p.rkey p.roff else sendHdr p.mlen p.moff p.mkind)

/-- Send one packet of a connection (R500, R503): a resend beyond RETRY ends the connection instead. -/
def Fabric.sendPkt (f : Fabric) (n : Nat) (quiet : Bool) : Fabric × List FabEff :=
  match f.conns.get? n with
  | none => (f, [])
  | some c =>
    match c.nextPkt with
    | none => (f, [])
    | some (p, again, counts) =>
      if c.cfg.enc && c.txCtr ≥ 2 ^ 96 then f.fail n .nonce false none 0 0 0 none
      else if again && counts && p.resends ≥ c.cfg.retry then f.failSend n .retry p.msn p.psn 0 quiet
      else
        let c1 := { c with
          resend := if again then c.resend.drop 1 else c.resend,
          bcount := if again then c.bcount else (c.bcount + units64 p.payload.length) % 2 ^ 32,
          pkts := c.pkts.map (fun x => if x.psn = p.psn then
            { x with sent := true, resends := if again && counts then x.resends + 1 else x.resends } else x) }
        ({ f with conns := f.conns.set n c1 }).xmit n (dataHdr c1 p) p.payload p.act p.part quiet

/-- The connection whose turn it is on a link (R500): the next after the last one served that has a packet ready. -/
def Fabric.turnOf (f : Fabric) (link : Nat) : Option Nat :=
  let ready := (f.conns.filter (fun p => p.2.link == link && (p.2.trim.nextPkt).isSome)).map Prod.fst
  let t := (f.link link).turn
  match ready.find? (fun n => decide (n > t)) with
  | some n => some n
  | none => ready.head?

/-- Entries whose packets are all acknowledged leave in order (R498): consumer index, write-back, replication. -/
def popPosted (n : Nat) : List TxEntry → Conn → Conn × List FabEff
  | [], c => ({ c with entries := [] }, [])
  | e :: es, c =>
    if c.pkts.any (fun p => p.msn == e.msn) then ({ c with entries := e :: es }, [])
    else
      match e.purpose with
      | .host =>
        let idx := (c.scidx + 1) % c.cfg.ssize
        let (c1, es1) := popPosted n es { c with scidx := idx }
        (c1, ringWrite c.cfg.sloc c.cfg.sfunc c.cfg.wbaddr (leBytes 4 idx) :: es1)
      | .message => popPosted n es c
      | .log p s =>
        let (c1, es1) := popPosted n es c
        (c1, .posted p s :: es1)

/-- A control packet's APSN, MLIM and BLIM at the sender (R503, R505). DESIGN CHOICE, log 124. -/
def Conn.takeLimits (c : Conn) (n : Nat) (h : BftHdr) : Conn × List FabEff :=
  let c1 := { c with
    mlim := if (h.mlim + 2 ^ 16 - c.mlim) % 2 ^ 16 < 2 ^ 15 then h.mlim else c.mlim,
    blim := if (h.blim + 2 ^ 32 - c.blim) % 2 ^ 32 < 2 ^ 31 then h.blim else c.blim,
    pkts := c.pkts.filter (fun p => !(p.sent && psnLt p.psn h.apsn)) }
  let (c2, es) := popPosted n c1.entries c1
  (c2.trim, es)

/-- A NAK SEQ (R503): the packet at NPSN is sent again. -/
def Conn.nakSeq (c : Conn) (npsn : Nat) : Conn :=
  if c.pkts.any (fun p => p.psn == npsn && p.sent) && !c.resend.any (·.1 == npsn) then
    { c with resend := c.resend ++ [(npsn, true)] } else c

/-- The retransmission timeout (R503): the oldest unacknowledged packet is sent again. -/
def Conn.timeout (c : Conn) : Conn :=
  match c.pkts.find? (fun p => p.sent && !c.waits p) with
  | some p => if c.resend.any (·.1 == p.psn) then c else { c with resend := (p.psn, true) :: c.resend }
  | none => c

/-- A NAK RNR (R509): does one more exceed RNRRETRY, and the connection with the entry waiting? DEDUCED, log 122. -/
def Conn.nakRnr (c : Conn) (msn : Nat) : Bool × Conn :=
  match c.entries.find? (fun e => e.msn == msn) with
  | none => (false, c)
  | some e =>
    if c.cfg.rnrRetry ≠ 7 && e.rnrTries ≥ c.cfg.rnrRetry then (true, c)
    else (false, { c with
      entries := c.entries.map (fun x => if x.msn = msn then { x with rnrTries := x.rnrTries + 1, rnrWait := true } else x),
      resend := c.resend.filter (fun r => !c.pkts.any (fun p => p.psn == r.1 && p.msn == msn)) })

/-- RNRDLY expires (R509): the message's packets are sent again with their PSNs. -/
def Conn.rnrDelay (c : Conn) : Conn :=
  match c.entries.find? (fun e => e.rnrWait) with
  | none => c
  | some e =>
    { c with
      entries := c.entries.map (fun x => if x.msn = e.msn then { x with rnrWait := false } else x),
      resend := c.resend ++ ((c.pkts.filter (fun p => p.msn == e.msn && p.sent)).map (fun p => (p.psn, false))) }

/-! ## The receiver (R501, R502, R510 to R512) -/

/-- What a data packet meets at the receiver (R501). -/
inductive RxResult where
  | accepted | duplicate | beyond
  deriving DecidableEq, Repr

/-- A received packet for staging. -/
def rxPkt (h : BftHdr) (pl : List Byte) : RxPkt :=
  { psn := h.psn, msn := h.msn, write := h.typ == 1, final := h.final, first := h.first, last := h.last,
    mkind := h.mkind, mlen := h.mlen, moff := h.moff, rkey := h.rkey, roff := h.roff, payload := pl, placed := false }

/-- Insert in order of PSN. -/
def rxInsert (p : RxPkt) : List RxPkt → List RxPkt
  | [] => [p]
  | q :: qs => if psnLt p.psn q.psn then p :: q :: qs else q :: rxInsert p qs

/-- Accept a data packet (R501). -/
def Conn.accept (c : Conn) (p : RxPkt) : RxResult × Conn :=
  let d := (p.psn + 2 ^ 32 - c.apsn) % 2 ^ 32
  if d ≥ 2 ^ 31 || c.staged.any (fun q => q.psn == p.psn) then (.duplicate, c)
  else if d > 1023 then (.beyond, c)
  else (.accepted, { c with staged := rxInsert p c.staged, sinceAck := c.sinceAck + 1, ackOwed := true })

/-- The packet accepted at a PSN. -/
def Conn.stagedAt (c : Conn) (psn : Nat) : Option RxPkt := c.staged.find? (fun q => q.psn == psn)

/-- The packets of a SEND message from a PSN to its LAST, when all are accepted (`fuel` bounds the window). -/
def Conn.run (c : Conn) : Nat → Nat → Option (List RxPkt)
  | 0, _ => none
  | k + 1, psn =>
    match c.stagedAt psn with
    | none => none
    | some p =>
      if p.write then none
      else if p.last then some [p]
      else (c.run k ((psn + 1) % 2 ^ 32)).map (p :: ·)

/-- APSN advances over accepted WRITE packets (R501); placed ones leave the record. -/
def Conn.advance (c : Conn) : Nat → Conn
  | 0 => c
  | k + 1 =>
    match c.stagedAt c.apsn with
    | some p =>
      if p.write then
        ({ c with apsn := (c.apsn + 1) % 2 ^ 32,
                  staged := c.staged.filter (fun q => !(q.psn == p.psn && q.placed)) }).advance k
      else c
    | none => c

/-- Is there a gap below the highest accepted PSN (R502)? The first missing PSN. -/
def Conn.gap (c : Conn) : Option Nat :=
  match c.staged.getLast? with
  | none => none
  | some hi =>
    let d := (hi.psn + 2 ^ 32 - c.apsn) % 2 ^ 32
    if d ≥ 2 ^ 31 then none
    else ((List.range d).map (fun i => (c.apsn + i) % 2 ^ 32)).find? (fun p => (c.stagedAt p).isNone)

/-- A delivered message leaves staging (R505, R507): its packets' units are released, and APSN passes it. -/
def Conn.deliver (c : Conn) (ps : List RxPkt) : Conn :=
  { c with
    apsn := ((ps.getLast?.map (·.psn)).getD c.apsn + 1) % 2 ^ 32,
    staged := c.staged.filter (fun q => !ps.any (fun p => p.psn == q.psn)),
    delivered := c.delivered + 1,
    released := c.released + (ps.map (fun p => units64 p.payload.length)).foldl (· + ·) 0 }

/-- A discarded message (R508): its packets leave the accepted set, and APSN stays. -/
def Conn.discard (c : Conn) (ps : List RxPkt) : Conn :=
  { c with
    staged := c.staged.filter (fun q => !ps.any (fun p => p.psn == q.psn)),
    delivered := c.delivered + 1,
    released := c.released + (ps.map (fun p => units64 p.payload.length)).foldl (· + ·) 0 }

/-- The payload of a message, its packets in MOFF order (R507). -/
def messageOf (ps : List RxPkt) : List Byte :=
  ps.foldl (fun b p => overlay b p.moff p.payload) []

/-- Home partition of a region (R492). -/
def regionHome (n : Nat) : Nat := n / 65536 % 16

/-- The check of a staged WRITE packet (R512), `fenced` the fenced partitions: the first test that fails. -/
def Fabric.check (f : Fabric) (c : Conn) (p : RxPkt) (fenced : List Nat) : Option ErrCause :=
  let num := p.rkey % 2 ^ 20
  match f.regions.get? num with
  | none => some .key
  | some r =>
    if !r.used || r.tag % 2 ^ 12 ≠ p.rkey / 2 ^ 20 then some .key
    else if r.pd ≠ c.cfg.pd then some .domain
    else if p.roff + p.payload.length > r.len then some .bounds
    else if !r.remoteWrite then some .rights
    else if fenced.contains (regionHome num) then some .fenced
    else none

/-- May a staged WRITE be placed now (R510, R511)? A FINAL one waits for every lower PSN. -/
def Conn.placeable (c : Conn) (p : RxPkt) : Bool :=
  p.write && !p.placed &&
    (!p.final ||
      ((c.staged.all (fun q => !(q.write && !q.placed && psnLt q.psn p.psn))) &&
        (if psnLt p.psn c.apsn then true
         else (List.range ((p.psn + 2 ^ 32 - c.apsn) % 2 ^ 32)).all (fun i => (c.stagedAt ((c.apsn + i) % 2 ^ 32)).isSome))))

/-- A packet placed: its units released, and its record kept only while APSN has not passed it. -/
def Conn.placed (c : Conn) (psn : Nat) : Conn :=
  let u := match c.stagedAt psn with | some p => units64 p.payload.length | none => 0
  let c1 := { c with
    released := c.released + u,
    staged := c.staged.map (fun (q : RxPkt) => if q.psn = psn then { q with placed := true, payload := [] } else q) }
  { c1 with staged := c1.staged.filter (fun (q : RxPkt) => !(q.placed && psnLt q.psn c1.apsn)) }

/-- The effect of a placement into a region's space (R494, R510, R511, R375): relaxed ordering unless FINAL. -/
def placeWrite (num : Nat) (r : Region) (p : RxPkt) : List FabEff :=
  if p.payload.isEmpty then []
  else if r.space = 2 then [.gen (r.base + p.roff) p.payload]
  else [.out (.write (if r.space = 0 then 0 else regionHome num + 1) (r.base + p.roff) p.payload (some (!p.final)))]

/-! ## Reception of a frame (R487, R489, R490, R526, R527) -/

/-- What a received frame is. -/
inductive RxFrame where
  | bft (conn : Nat) (h : BftHdr) (payload : List Byte)
  | auth
  | bad
  deriving DecidableEq, Repr

/-- Does the sender's address fit the connection's primary or alternate peer (R489)? -/
def Conn.fromPeer (c : Conn) (d : Datagram) : Bool :=
  d.v6 == c.cfg.ipv6 && ((d.src == c.cfg.pip && d.sport == c.cfg.pport) ||
    (c.cfg.alt.isSome && d.src == c.cfg.aip && d.sport == c.cfg.aport))

/-- Open a packet under the connection's encryption (R527): none on a failed test. DEDUCED, log 123. -/
def Conn.unseal (c : Conn) (h : BftHdr) (hdr rest : List Byte) : Option (Conn × List Byte) :=
  if !c.cfg.enc then (if h.enc then none else some (c, rest))
  else if !h.enc then none
  else
    match c.rxKey, c.txKey with
    | some k, some _ =>
      let nonce := rest.take 12
      let v := leNat nonce
      if c.rxSeen.contains v || v + 4096 ≤ c.rxHigh then none
      else
        match Config.gcmOpen k nonce hdr (rest.drop 16) with
        | none => none
        | some pl =>
          let hi := max v c.rxHigh
          some ({ c with rxHigh := hi, rxSeen := (v :: c.rxSeen).filter (fun x => decide (x + 4096 > hi)) }, pl)
    | _, _ => none

/-- Take a received frame apart (R489, R490, R527). -/
def Fabric.receive (f : Fabric) (link : Nat) (frame : List Byte) : Fabric × RxFrame :=
  match parseFrame (f.link link).cfg frame with
  | none => (f, .bad)
  | some d =>
    if d.payload.length < 32 then (f, .bad)
    else
      let hdr := d.payload.take 32
      let h := decodeBft hdr
      match f.conns.get? h.dconn with
      | none => (f, .bad)
      | some c =>
        let extra := if h.enc then 32 else 0
        if !c.fromPeer d || h.plen > 8192 || d.payload.length ≠ 32 + h.plen + extra then (f, .bad)
        else
          match c.unseal h hdr (d.payload.drop 32) with
          | none => (f, .auth)
          | some (c1, pl) => ({ f with conns := f.conns.set h.dconn c1 }, .bft h.dconn h pl)

/-- Is a frame one that the package takes other than as BFT: ARP, ND, or IEEE 1588 on its own rows (R487)? -/
def otherFrame (lk : LinkCfg) (f : List Byte) : Bool :=
  (arpReply lk f).isSome || (ndReply lk f).isSome ||
    (match stripEth lk f with | some (t, _) => t == 0x88F7 | none => false)

/-! ## Failover (R531) -/

/-- Move a connection to its other link, and resend every unacknowledged packet there. DEDUCED, log 122. -/
def Conn.move (c : Conn) : Conn :=
  { c with onAlt := !c.onAlt, resend := (c.pkts.filter (fun p => p.sent && !c.waits p)).map (fun p => (p.psn, false)) }

/-- The other link of a connection, if it has one. -/
def Conn.other (c : Conn) : Option Nat :=
  match c.cfg.alt with
  | none => none
  | some a => some (if c.onAlt then c.cfg.link else a)

/-- ERROR with cause PORT (R531): one ERROR packet from the lowest link that is up, to the peer's primary address. -/
def Fabric.portFail (f : Fabric) (n : Nat) (quiet : Bool) : Fabric × List FabEff :=
  let (f1, e1) := f.fail n .port false none 0 0 0 (some (ErrCause.port.code, 0))
  match f1.conns.get? n, (List.range 32).find? (fun l => (f1.link l).up) with
  | some c, some l =>
    if !c.keyed || (c.cfg.enc && c.txCtr ≥ 2 ^ 96) then (f1, e1)
    else
      let hdr := baseHdr 6 false false false c.cfg.enc false 0 c.cfg.pconn 0 0 ++ errHdr ErrCause.port.code
      let (c1, udp) := c.seal hdr []
      let f2 := { f1 with conns := f1.conns.set n c1 }
      let (f3, e3) := f2.put n l c1.cfg.pmac c1.cfg.pip c1.cfg.pport c1.cfg.act (connHome n) c1 udp quiet
      (f3, e1 ++ e3)
  | _, _ => (f1, e1)

/-- A link is declared down: its connections, in order of number (R531). -/
def Fabric.failConns (f : Fabric) (link : Nat) (quiet : Bool) : List Nat → Fabric × List FabEff
  | [] => (f, [])
  | n :: ns =>
    match f.conns.get? n with
    | none => f.failConns link quiet ns
    | some c =>
      if c.error.isSome || c.link ≠ link then f.failConns link quiet ns
      else
        match c.other with
        | some o =>
          if (f.link o).up then (f.modConn n Conn.move).failConns link quiet ns
          else
            let (f1, e1) := f.portFail n quiet
            let (f2, e2) := f1.failConns link quiet ns
            (f2, e1 ++ e2)
        | none =>
          let (f1, e1) := f.portFail n quiet
          let (f2, e2) := f1.failConns link quiet ns
          (f2, e1 ++ e2)

/-- A link is declared down (R488, R531). -/
def Fabric.linkDown (f : Fabric) (n : Nat) (quiet : Bool) : Fabric × List FabEff :=
  let f1 := f.modLink n (fun l => { l with up := false, downEv := true })
  f1.failConns n quiet f1.conns.keys

/-! ## Configuration (R485, R577, R494 to R496) -/

/-- A link record (48 bytes). DESIGN CHOICE, log 126. -/
def decodeLink (b : List Byte) : LinkCfg :=
  let p := field b 96 16
  { mac := field b 0 48, vid := field b 48 12, vlan := fbit b 60, ipv4 := field b 64 32,
    bftPort := if p = 0 then 0xB8D4 else p, ipv6 := field b 128 128 }

/-- A clamp with 0 decoding as a default. -/
def clampNat (lo hi dflt v : Nat) : Nat := if v = 0 then dflt else if v < lo then lo else if v > hi then hi else v

/-- A connection record (160 bytes), decoded. `viaMbk` forces SFUNC 0 (R563 entry); `home` is its partition.
DESIGN CHOICE, log 126. -/
def decodeConn (b : List Byte) (home : Nat) (viaMbk : Bool) : ConnCfg :=
  let fn := fun (pf : Bool) => if pf && !viaMbk then 0 else home + 1
  let act := field b 96 4
  let th := le64 b 96
  let rb := field b 896 32
  { pd := field b 24 16, pconn := field b 40 18, link := field b 64 5,
    alt := if fbit b 69 then some (field b 70 5) else none, enc := fbit b 75, role := fbit b 76, ipv6 := fbit b 77,
    dscp := field b 80 6, pcp := field b 86 3, mtu := 1024 * 2 ^ field b 89 2, act := if act > 8 then 8 else act,
    pmac := field b 128 48, pport := field b 176 16, amac := field b 192 48, aport := field b 240 16,
    pip := if fbit b 77 then field b 256 128 else field b 256 32,
    aip := if fbit b 77 then field b 384 128 else field b 384 32,
    sbase := le64 b 64, ssize := 32 * 2 ^ min (field b 576 4) 11, sloc := fbit b 580, sfunc := fn (fbit b 581),
    esize := 32 * 2 ^ field b 584 3, eloc := fbit b 587, sport := field b 592 16, emsix := field b 608 11,
    ebase := le64 b 80, wbaddr := le64 b 88, thaddr := if th = 0xFFFFFFFFFFFFFFFF then none else some th,
    rr := if fbit b 848 then some (field b 832 16) else none,
    fq := if field b 856 24 = 0xFFFFFF then none else some (field b 856 24),
    rxmsg := if field b 880 12 = 0 then 4096 else field b 880 12,
    rxbytes := if rb < 4096 then 4096 else if rb > 16777216 then 16777216 else rb,
    rto := clampNat 20 10000 100 (field b 928 14), retry := if field b 942 3 = 0 then 7 else field b 942 3,
    rnrRetry := field b 945 3, rnrDly := clampNat 1 1000 20 (field b 948 10),
    kaint := clampNat 1 1000 1000 (field b 960 10), cqszlog := field b 970 3, rbszlog := field b 973 4,
    rbclog := field b 977 4, replKey := field b 992 32, replOff := le64 b 128, replSize := field b 1088 40 }

/-- A connection just created (R495, R496). DESIGN CHOICE, log 116. -/
def Conn.fresh (c : ConnCfg) : Conn :=
  { cfg := c, error := none, errPkt := none, onAlt := false, spidx := 0, scidx := 0, snext := 0, nextMsn := 0,
    nextPsn := 0, pkg := [], entries := [], pkts := [], resend := [], scount := 0, bcount := 0, mlim := 0, blim := 0,
    tags := [], apsn := 0, staged := [], sinceAck := 0, ackOwed := false, delivered := 0, released := 0, grant := 0,
    sentMlim := 0, sentBlim := 0, txKey := none, rxKey := none, txCtr := 1, rxHigh := 0, rxSeen := [], ep := 0, ec := 0,
    cqP := 0, cqC := 0, cphase := true, rbNext := 0, rbHeld := 0, written := [], resv := 0, resvJob := 0, replPos := 0 }

end Sys2Proof.Machine
end

