-- ==== Sys2Proof/Machine/StateMeridian.lean ====
section
/-!
DEFINITION. Sys2Proof/Machine/StateMeridian.lean: the state of the Meridian time base (chapter 02).
-/
namespace Sys2Proof.Machine

/-- MER_STAT.STATE (R63, R89). -/
inductive MerState where
  | unsynced | locked | ptp | holdover | expired
  deriving DecidableEq, Repr

/-- STATE of an Ephemeris entry (R79). -/
inductive EphState where
  | empty | armed | done | skipped
  deriving DecidableEq, Repr

/-- An Ephemeris entry (R79). `wrote` is the counter value at which EPH_WRITE put it there (R84: a write applies
after the events of that value). -/
structure EphEntry where
  time : Nat
  epoch : Nat
  state : EphState
  late : Bool
  wrote : Nat
  deriving DecidableEq, Repr

/-- The Announce data set of a PTP master that the slave has heard (R71): the numbers that the best master clock
algorithm compares, in its order, and the sender's port identity. -/
structure Announce where
  rank : List Nat
  source : Nat
  deriving DecidableEq, Repr

/-- The PTP servo (R71 to R74). -/
structure PtpServo where
  /-- domain number, PTP_CONFIG. -/
  domain : Nat
  /-- the 64-bit offset of R72. -/
  offset : Nat
  /-- consecutive offsets below 1 us (R73). -/
  good : Nat
  /-- consecutive offsets above 1 us (R73). -/
  bad : Nat
  /-- masters heard. -/
  masters : List Announce
  /-- receive time and sequence number of a two-step Sync that waits for its Follow_Up. -/
  sync : Option (Nat × Nat)
  /-- (t1, t2) of the last complete Sync. -/
  last : Option (Nat × Nat)
  /-- send time of a Delay_Req under way. -/
  req : Option Nat
  /-- mean path delay measured. -/
  delay : Int
  deriving DecidableEq, Repr

/-- The Meridian block (R55 to R90). -/
structure Meridian where
  state : MerState
  /-- the 64-bit counter (R58), its value before its last change, and the local ticks since reset release. -/
  now : Nat
  prev : Nat
  ticks : Nat
  /-- MER_CLK present, and the tick since which it has been (R64). -/
  clkOk : Bool
  clkSince : Nat
  /-- the loaded next value (R56). -/
  loaded : Option Nat
  /-- the value applied at the previous pulse edge (R60). -/
  lastEdge : Option Nat
  /-- ticks that the counter still holds (R61). -/
  hold : Nat
  /-- tick of entry to HOLDOVER (R66). -/
  holdStart : Nat
  /-- the counter value of the last entry to LOCKED or PTP from EXPIRED or UNSYNCED (R69). -/
  relock : Option Nat
  /-- the watch end of the present counter value has been performed. -/
  watchDone : Bool
  clkLost : Bool
  syncLost : Bool
  stepped : Bool
  freeze : Bool
  latePub : Bool
  limit : Bool
  ptpLock : Bool
  syncIgnored : Bool
  /-- MER_CFG (R89). -/
  holdLim : Nat
  watchN : Nat
  /-- a WATCH_N that waits for its watch end (R76). -/
  nextN : Option Nat
  ptpEn : Bool
  ptpPort : Nat
  delayComp : Nat
  /-- the latches of MER_NOW_HI and MER_PUB_HI (R89). -/
  nowHi : BitVec 32
  pubHi : BitVec 32
  lateCnt : BitVec 32
  skipCnt : BitVec 32
  eph : Tbl EphEntry
  ptp : PtpServo
  /-- the package's published and pending epochs (R81, R85). -/
  pub : Nat
  pend : Nat
  deriving DecidableEq, Repr

/-- The Meridian block after any reset (R90, R72, R86). -/
def Meridian.reset : Meridian :=
  { state := .unsynced, now := 0, prev := 0, ticks := 0, clkOk := false, clkSince := 0, loaded := none,
    lastEdge := none, hold := 0, holdStart := 0, relock := none, watchDone := false, clkLost := false,
    syncLost := false, stepped := false, freeze := false, latePub := false, limit := false, ptpLock := false,
    syncIgnored := false, holdLim := 0x32, watchN := 0xA, nextN := none, ptpEn := false, ptpPort := 0,
    delayComp := 0, nowHi := 0, pubHi := 0, lateCnt := 0, skipCnt := 0, eph := [],
    ptp := { domain := 0, offset := 0, good := 0, bad := 0, masters := [], sync := none, last := none,
             req := none, delay := 0 },
    pub := 0, pend := 1 }

end Sys2Proof.Machine
end

