-- ==== Sys2Proof/Machine/MeridianOps.lean ====
section
/-!
DEFINITION. Sys2Proof/Machine/MeridianOps.lean: the counter, its sources, its events and its registers (chapter 02), as
operations on the Meridian block alone.
-/
namespace Sys2Proof.Machine

/-- The greatest counter value: the last multiple of 10 in 64 bits (R58). DESIGN CHOICE, log 41. -/
def merMax : Nat := 18446744073709551610

/-- The decoded holdover limit in ms (R89). -/
def Meridian.holdMs (m : Meridian) : Nat := if m.holdLim > 10000 then 10000 else m.holdLim

/-- The watch length of a WATCH_N code in ns (R75, R89). -/
def watchLen (n : Nat) : Nat := 2 ^ (min n 10) * 1000

/-- The watch number (R75). -/
def Meridian.watchNo (m : Meridian) : Nat := m.now / watchLen m.watchN

/-- What MER_CLK or the divider's reference reads: the counter less what it still holds (R61). -/
def Meridian.ref (m : Meridian) : Nat := m.now - 10 * m.hold

/-- Is a watch end owed at the present counter value (R75, R77)? -/
def Meridian.watchDue (m : Meridian) : Bool :=
  !m.watchDone && decide (m.prev / watchLen m.watchN < m.now / watchLen m.watchN)

/-- The counter moves to a new value: the events of that value are then owed (R59), and a watch end that is still owed
merges with those of the new value (R62). A publication or takeover that is still owed is performed at the new value, late.
DESIGN CHOICE, log 41. DESIGN CHOICE, log 167. -/
def Meridian.goTo (m : Meridian) (v : Nat) : Meridian :=
  { m with prev := if m.watchDue then m.prev else m.now, now := min v merMax, watchDone := false }

/-- Does the package perform takeovers, publications and activation windows (R63)? -/
def Meridian.performs (m : Meridian) : Bool :=
  match m.state with
  | .locked | .ptp | .holdover => true
  | .unsynced | .expired => false

/-- The next multiple of 10 at or above a value (R60). -/
def grid10 (v : Nat) : Nat := (v + 9) / 10 * 10


/-- The counter takes a value (R60, R61): it steps forward, holds, or runs on. A further lower value taken during a hold begins
a hold anew, and FREEZE sets again. DESIGN CHOICE, log 166. -/
def Meridian.take (m : Meridian) (v : Nat) : Meridian :=
  let v := grid10 v
  if v > m.now + 10 then { m.goTo v with stepped := true, hold := 0 }
  else if v < m.now then { m with hold := (m.now - v) / 10, freeze := true }
  else if v = m.now then { m with hold := 0 }
  else { m.goTo v with hold := 0 }

/-- Entry to HOLDOVER starts the holdover time from 0 (R66). -/
def Meridian.toHoldover (m : Meridian) : Meridian := { m with state := .holdover, holdStart := m.ticks }

/-- Entry to LOCKED or PTP; from EXPIRED or UNSYNCED the held actions become owed late (R69). -/
def Meridian.enter (m : Meridian) (st : MerState) : Meridian :=
  match m.state with
  | .expired | .unsynced => { m with state := st, relock := some m.now }
  | _ => { m with state := st }

/-- The state change of a declared loss of MER_CLK or MER_SYNC in LOCKED (R64). -/
def Meridian.lose (m : Meridian) : Meridian :=
  if m.state = .locked then
    (if m.ptpEn && m.ptpLock then { m with state := .ptp } else m.toHoldover)
  else m

/-- PTP_LOCK becomes 1 (R64, R73). -/
def Meridian.setPtpLock (m : Meridian) : Meridian :=
  let m1 := { m with ptpLock := true }
  if m.ptpLock then m else
  match m.state with
  | .unsynced | .expired | .holdover => m1.enter .ptp
  | _ => m1

/-- PTP_LOCK becomes 0 (R64, R73). -/
def Meridian.clearPtpLock (m : Meridian) : Meridian :=
  let m1 := { m with ptpLock := false, ptp := { m.ptp with good := 0, bad := 0 } }
  if m.ptpLock && m.state = .ptp then m1.toHoldover else m1

/-- Has MER_CLK been present for 10 us (R64)? -/
def Meridian.clkPresent10us (m : Meridian) : Bool := m.clkOk && decide (m.ticks - m.clkSince ≥ 1000)

/-- A pulse edge (R55 to R57, R60, R61, R64). Without MER_CLK there is no sampling edge. DEDUCED, log 44. -/
def Meridian.pulse (m : Meridian) : Meridian :=
  if !m.clkOk then m else
  match m.loaded with
  | some v =>
    let applied := grid10 (v + 10 * m.delayComp)
    let m1 := { m.take applied with loaded := none, lastEdge := some applied }
    if m.state ≠ .locked && m.clkPresent10us then m1.enter .locked else m1
  | none =>
    match m.state, m.lastEdge with
    | .locked, some e =>
      let expected := e + 1000000
      if m.ref ≤ expected + 1000 && expected ≤ m.ref + 1000 then
        { m.take expected with lastEdge := some expected }
      else { m with syncIgnored := true }
    | _, _ => { m with syncIgnored := true }

/-- Declared loss of MER_CLK (R65). -/
def Meridian.clkLoss (m : Meridian) : Meridian :=
  { m.lose with clkOk := false, clkLost := true }

/-- May MER_SYNC loss be declared: MER_CLK present, LOCKED and 2 us past the expected edge (R64, R65). -/
def Meridian.syncLossDue (m : Meridian) : Bool :=
  m.clkOk && m.state = .locked &&
    (match m.lastEdge with
     | some e => decide (m.ref ≥ e + 1000000 + 2000)
     | none => false)

/-- Has the latest instant passed at which that loss is declared, 2.05 us after the expected edge? DEDUCED, log 5. -/
def Meridian.syncLossOverdue (m : Meridian) : Bool :=
  m.syncLossDue && (match m.lastEdge with
    | some e => decide (m.ref ≥ e + 1000000 + 2050)
    | none => false)

/-- Declared loss of MER_SYNC (R64, R65). -/
def Meridian.syncLoss (m : Meridian) : Meridian := { m.lose with syncLost := true }

/-- Has the holdover time reached HOLDLIM (R64, R66)? One tick is 10 ns. -/
def Meridian.limitDue (m : Meridian) : Bool :=
  m.state = .holdover && decide (m.ticks - m.holdStart ≥ m.holdMs * 100000)

/-- The holdover limit is reached (R64, R68). -/
def Meridian.holdLimit (m : Meridian) : Meridian := { m with state := .expired, limit := true }

/-- MER_CLK edges return (R64). -/
def Meridian.clkReturn (m : Meridian) : Meridian :=
  if m.clkOk then m else { m with clkOk := true, clkSince := m.ticks }

/-- One tick of the counter's source (R58, R61): the counter advances by 10, or holds. -/
def Meridian.tick (m : Meridian) : Meridian :=
  let m1 := { m with ticks := m.ticks + 1 }
  if m.hold > 0 then { m1 with hold := m.hold - 1 } else m1.goTo (m.now + 10)

/-- Watch numbers that a forward step skipped (R77). -/
def Meridian.watchSkipped (m : Meridian) : Nat :=
  m.now / watchLen m.watchN - m.prev / watchLen m.watchN - 1

/-- The Meridian block's part of a watch end: a waiting WATCH_N takes effect at a watch end of the longer of the
two lengths (R76). -/
def Meridian.watchEnd (m : Meridian) : Meridian :=
  match m.nextN with
  | some n =>
    let l := max (watchLen n) (watchLen m.watchN)
    if m.prev / l < m.now / l then { m with watchDone := true, watchN := n, nextN := none }
    else { m with watchDone := true }
  | none => { m with watchDone := true }

/-- Is an Ephemeris entry due at the present counter value (R59, R81, R84)? DEDUCED, log 47. -/
def Meridian.entryDue (m : Meridian) (e : EphEntry) : Bool :=
  e.state = .armed && decide (e.time ≤ m.now) && decide (e.wrote < m.now)

/-- The next entry to perform: lowest TIME, then lowest slot (R80). -/
def Meridian.nextDue (m : Meridian) : Option (Nat × EphEntry) :=
  m.eph.foldl (fun best p =>
    if m.entryDue p.2 then
      match best with
      | none => some p
      | some b => if p.2.time < b.2.time then some p else some b
    else best) none

/-- Is a publication owed now (R63, R87)? -/
def Meridian.publishDue (m : Meridian) : Bool := m.performs && m.nextDue.isSome

/-- Is an entry performed late (LATE of the table "Ephemeris entry", R69, R84): after the counter value that R59 gives
its TIME, or at a relock? -/
def Meridian.isLate (m : Meridian) (e : EphEntry) : Bool :=
  decide (grid10 e.time < m.now) || m.relock == some m.now

/-- Does performing an entry publish it (R81)? -/
def Meridian.publishes (m : Meridian) (e : EphEntry) : Bool :=
  decide (e.epoch > m.pub) && decide (e.epoch < 0xFFFFFFFFFFFF)

/-- Perform one entry in the Meridian block (R69, R81, R84). -/
def Meridian.perform (m : Meridian) (slot : Nat) (e : EphEntry) : Meridian :=
  let late := m.isLate e
  if m.publishes e then
    { m with
      pub := e.epoch, pend := min (e.epoch + 1) 0xFFFFFFFFFFFF,
      eph := m.eph.set slot { e with state := .done, late := late },
      latePub := m.latePub || late,
      lateCnt := if late then satAdd m.lateCnt 1 else m.lateCnt }
  else
    { m with
      eph := m.eph.set slot { e with state := .skipped, late := late },
      skipCnt := satAdd m.skipCnt 1 }

/-- Order of two Announce data sets: the first differing number decides, lower is better (R71). -/
def rankLt : List Nat → List Nat → Bool
  | [], _ => false
  | _ :: _, [] => false
  | a :: as, b :: bs => if a = b then rankLt as bs else decide (a < b)

/-- The best master heard (R71). -/
def PtpServo.best (p : PtpServo) : Option Announce :=
  p.masters.foldl (fun b a => match b with
    | none => some a
    | some x => if rankLt a.rank x.rank then some a else some x) none

/-- Is a Sync interval accepted, given as the power of two of its seconds: 2^-7 s to 2^0 s (R71)? -/
def syncIntervalOk (log2 : Int) : Bool := decide (-7 ≤ log2) && decide (log2 ≤ 0)

/-- Does the slave take a message of this port and domain (R71, R73)? One that uses an option that the table of R71 does not
list (unicast, security, peer delay, layer-2 transport) is discarded. -/
def Meridian.takesPtp (m : Meridian) (port domain : Nat) (unlisted : Bool) : Bool :=
  m.ptpEn && !unlisted && port == m.ptpPort && domain == m.ptp.domain && decide (domain ≤ 127)

/-- Is the sender the chosen master (R71)? -/
def Meridian.fromMaster (m : Meridian) (source : Nat) : Bool :=
  match m.ptp.best with
  | some a => a.source == source
  | none => false

/-- The servo takes one offset from the master (R58, R73, R74): it counts the runs, steps or holds the counter for
a correction above 1 us outside LOCKED, and sets or clears PTP_LOCK. A target below 0 is taken as 0. DEDUCED, log 42.
DEDUCED, log 43. DESIGN CHOICE, log 165. -/
def Meridian.takeOffset (m : Meridian) (off : Int) : Meridian :=
  let good := if off.natAbs < 1000 then m.ptp.good + 1 else 0
  let bad := if off.natAbs > 1000 then m.ptp.bad + 1 else 0
  let m1 := { m with ptp := { m.ptp with good := min good 16, bad := min bad 4 } }
  let m2 := if off.natAbs > 1000 && m.state ≠ .locked then m1.take ((m.ref : Int) - off).toNat else m1
  if good ≥ 16 then m2.setPtpLock else if bad ≥ 4 then m2.clearPtpLock else m2

/-- PTP time of a Meridian instant (R72), in whole numbers that do not wrap. DESIGN CHOICE, log 165. -/
def Meridian.ptpTime (m : Meridian) (sub : Nat) : Nat := m.ref + m.ptp.offset + sub % 10

/-- A complete Sync: origin time t1, receive time t2 (R71, R73). -/
def Meridian.syncPair (m : Meridian) (t1 t2 : Nat) : Meridian :=
  let m1 := m.takeOffset ((t2 : Int) - t1 - m.ptp.delay)
  { m1 with ptp := { m1.ptp with last := some (t1, t2), sync := none } }

/-- MER_STAT as software reads it (R89). -/
def Meridian.stat (m : Meridian) : Nat :=
  (match m.state with | .unsynced => 0 | .locked => 1 | .ptp => 2 | .holdover => 3 | .expired => 4)
  + 8 * b2n m.clkOk + 16 * b2n m.loaded.isSome + 2 ^ 8 * b2n m.clkLost + 2 ^ 9 * b2n m.syncLost
  + 2 ^ 10 * b2n m.stepped + 2 ^ 11 * b2n m.freeze + 2 ^ 12 * b2n m.latePub + 2 ^ 13 * b2n m.limit
  + 2 ^ 14 * b2n m.ptpLock + 2 ^ 15 * b2n m.syncIgnored

/-- The W1C write of MER_STAT (R25, R89). -/
def Meridian.statW1c (m : Meridian) (v : Nat) : Meridian :=
  { m with
    clkLost := m.clkLost && !bitOf v 8, syncLost := m.syncLost && !bitOf v 9, stepped := m.stepped && !bitOf v 10,
    freeze := m.freeze && !bitOf v 11, latePub := m.latePub && !bitOf v 12, limit := m.limit && !bitOf v 13,
    syncIgnored := m.syncIgnored && !bitOf v 15 }

/-- MER_CFG as software reads it (R89): WATCH_N reads the value last written. -/
def Meridian.cfg (m : Meridian) : Nat :=
  m.holdLim + 2 ^ 16 * (m.nextN.getD m.watchN) + 2 ^ 20 * b2n m.ptpEn + 2 ^ 21 * m.ptpPort + 2 ^ 24 * m.delayComp

/-- MER_CONFIG writes MER_CFG (R76, R73, R89). DEDUCED, log 46. -/
def Meridian.writeCfg (m : Meridian) (v : Nat) : Meridian :=
  let n := bitsOf v 16 4
  let m1 := { m with
    holdLim := bitsOf v 0 14, nextN := if n = m.watchN then none else some n,
    ptpEn := bitOf v 20, ptpPort := bitsOf v 21 3, delayComp := bitsOf v 24 8 }
  if m.ptpEn && !bitOf v 20 then
    let m2 := m1.clearPtpLock
    { m2 with ptp := { m2.ptp with masters := [], sync := none, last := none, req := none } }
  else m1

/-- The slots that are ARMED (R89 MER_ARMED). -/
def Meridian.armed (m : Meridian) : Nat := (m.eph.filter (fun p => p.2.state == .armed)).length

/-- The entry of a slot; an unlisted slot is EMPTY (R79, R86). -/
def Meridian.slot (m : Meridian) (n : Nat) : EphEntry :=
  m.eph.getD n { time := 0, epoch := 0, state := .empty, late := false, wrote := 0 }

end Sys2Proof.Machine
end

