-- ==== Sys2Proof/Machine/Float.lean ====
section
/-!
DEFINITION. Sys2Proof/Machine/Float.lean: the number formats of R170, exact values as signed magnitudes times powers of
two, one rounding to nearest even (R173), and the conversions of R172 to R175.
-/
namespace Sys2Proof.Machine

/-- A binary float format (R170): exponent and mantissa widths, bias, and whether it is the E4M3 layout, which has
no infinity and one NaN code of each sign. -/
structure Fmt where
  ebits : Nat
  mbits : Nat
  bias : Nat
  e4m3 : Bool
  deriving DecidableEq, Repr

def fp32 : Fmt := ⟨8, 23, 127, false⟩
def bf16 : Fmt := ⟨8, 7, 127, false⟩
def fp16 : Fmt := ⟨5, 10, 15, false⟩
def fp8e4m3 : Fmt := ⟨4, 3, 7, true⟩
def fp8e5m2 : Fmt := ⟨5, 2, 15, false⟩

/-- An exact value: NaN, an infinity, or `(-1)^neg * m * 2^e` (a signed zero when `m` is 0). -/
inductive Num where
  | nan
  | inf (neg : Bool)
  | fin (neg : Bool) (m : Nat) (e : Int)
  deriving DecidableEq, Repr

/-- The total width of a format in bits. -/
def Fmt.width (f : Fmt) : Nat := 1 + f.ebits + f.mbits

/-- The code of the largest finite value, without its sign (R170). -/
def Fmt.maxFin (f : Fmt) : Nat :=
  if f.e4m3 then 2 ^ (f.ebits + f.mbits) - 2 else (2 ^ f.ebits - 1) * 2 ^ f.mbits - 1

/-- The value of a code (R170). -/
def Fmt.decode (f : Fmt) (c : Nat) : Num :=
  let mag := c % 2 ^ (f.ebits + f.mbits)
  let neg := c.testBit (f.ebits + f.mbits)
  let ex := mag / 2 ^ f.mbits
  let ma := mag % 2 ^ f.mbits
  if f.e4m3 && mag == 2 ^ (f.ebits + f.mbits) - 1 then .nan
  else if !f.e4m3 && ex == 2 ^ f.ebits - 1 then (if ma == 0 then .inf neg else .nan)
  else if ex == 0 then .fin neg ma (1 - (f.bias : Int) - f.mbits)
  else .fin neg (ma + 2 ^ f.mbits) ((ex : Int) - f.bias - f.mbits)

/-- A magnitude `m * 2^e` in units of `2^q`, rounded to nearest, ties to even (R173). -/
def roundAt (m : Nat) (e q : Int) : Nat :=
  if e ≥ q then m * 2 ^ (e - q).toNat
  else
    let s := (q - e).toNat
    let t := m / 2 ^ s
    let r := m % 2 ^ s
    let half := 2 ^ (s - 1)
    if r > half || (r == half && t % 2 == 1) then t + 1 else t

/-- The unsigned code of the magnitude `m * 2^e` before any overflow rule. -/
def Fmt.roundMag (f : Fmt) (m : Nat) (e : Int) : Nat :=
  if m == 0 then 0 else
    let emin : Int := 1 - (f.bias : Int)
    let top : Int := (Nat.log2 m : Int) + e
    let q : Int := max (top - f.mbits) (emin - f.mbits)
    let t := roundAt m e q
    if q == emin - f.mbits then t
    else ((q + f.mbits + f.bias).toNat - 1) * 2 ^ f.mbits + t

/-- A sign bit put on an unsigned code. -/
def Fmt.withSign (f : Fmt) (neg : Bool) (mag : Nat) : Nat := mag + b2n neg * 2 ^ (f.ebits + f.mbits)

/-- The NaN code that the package writes where a NaN results (R239: the quiet NaN of each format). -/
def Fmt.qnan (f : Fmt) : Nat :=
  if f.e4m3 then 2 ^ (f.ebits + f.mbits) - 1
  else (2 ^ f.ebits - 1) * 2 ^ f.mbits + 2 ^ (f.mbits - 1)

/-- Rounding with IEEE overflow to infinity (a format without one saturates). -/
def Fmt.enc (f : Fmt) : Num → Nat
  | .nan => f.qnan
  | .inf neg => f.withSign neg (if f.e4m3 then f.maxFin else (2 ^ f.ebits - 1) * 2 ^ f.mbits)
  | .fin neg m e =>
    let r := f.roundMag m e
    if r > f.maxFin then f.withSign neg (if f.e4m3 then f.maxFin else (2 ^ f.ebits - 1) * 2 ^ f.mbits)
    else f.withSign neg r

/-- Rounding that saturates to the largest finite value (R174, R175). -/
def Fmt.encSat (f : Fmt) : Num → Nat
  | .nan => f.qnan
  | .inf neg => f.withSign neg f.maxFin
  | .fin neg m e => f.withSign neg (min (f.roundMag m e) f.maxFin)

/-- The signed mantissa of a finite value. -/
def sgnMant (neg : Bool) (m : Nat) : Int := if neg then -(m : Int) else m

/-- A finite value from a signed mantissa; `nz` is the sign an exact zero takes. -/
def ofInt (x : Int) (e : Int) (nz : Bool) : Num :=
  if x == 0 then .fin nz 0 0 else .fin (x < 0) x.natAbs e

/-- Exact sum (an exact zero of operands of unlike sign is +0). -/
def Num.add : Num → Num → Num
  | .nan, _ => .nan
  | _, .nan => .nan
  | .inf a, .inf b => if a == b then .inf a else .nan
  | .inf a, _ => .inf a
  | _, .inf b => .inf b
  | .fin a m e, .fin b n g =>
    let q := min e g
    ofInt (sgnMant a (m * 2 ^ (e - q).toNat) + sgnMant b (n * 2 ^ (g - q).toNat)) q (a && b)

/-- Negation. -/
def Num.neg : Num → Num
  | .nan => .nan
  | .inf a => .inf (!a)
  | .fin a m e => .fin (!a) m e

/-- Magnitude. -/
def Num.abs : Num → Num
  | .nan => .nan
  | .inf _ => .inf false
  | .fin _ m e => .fin false m e

/-- Exact product. -/
def Num.mul : Num → Num → Num
  | .nan, _ => .nan
  | _, .nan => .nan
  | .inf a, .inf b => .inf (a != b)
  | .inf a, .fin b n _ => if n == 0 then .nan else .inf (a != b)
  | .fin a m _, .inf b => if m == 0 then .nan else .inf (a != b)
  | .fin a m e, .fin b n g => .fin (a != b) (m * n) (e + g)

/-- Quotient with 80 further bits and a sticky bit, so that one rounding after it is exact rounding. -/
def Num.div : Num → Num → Num
  | .nan, _ => .nan
  | _, .nan => .nan
  | .inf _, .inf _ => .nan
  | .inf a, .fin b _ _ => .inf (a != b)
  | .fin a _ _, .inf b => .fin (a != b) 0 0
  | .fin a m e, .fin b n g =>
    if n == 0 then (if m == 0 then .nan else .inf (a != b))
    else
      let s := m * 2 ^ 80
      .fin (a != b) (2 * (s / n) + b2n (s % n != 0)) (e - g - 81)

/-- Integer square root by bisection of the bits, from bit `k` down. -/
def isqrtBits (n : Nat) : Nat → Nat → Nat
  | 0, acc => if (acc + 1) * (acc + 1) ≤ n then acc + 1 else acc
  | k + 1, acc => isqrtBits n k (if (acc + 2 ^ (k + 1)) * (acc + 2 ^ (k + 1)) ≤ n then acc + 2 ^ (k + 1) else acc)

/-- Square root with a sticky bit, for one rounding after it. -/
def Num.sqrt : Num → Num
  | .nan => .nan
  | .inf neg => if neg then .nan else .inf false
  | .fin neg m e =>
    if m == 0 then .fin neg 0 0
    else if neg then .nan
    else
      let sh := if (e % 2) == 0 then 80 else 81
      let v := m * 2 ^ sh
      let r := isqrtBits v ((Nat.log2 v) / 2 + 1) 0
      .fin false (2 * r + b2n (r * r != v)) ((e - (sh : Nat)) / 2 - 1)

/-- Order of two values that are not NaN; zeros of either sign are equal. -/
def Num.lt : Num → Num → Bool
  | .nan, _ => false
  | _, .nan => false
  | .inf a, .inf b => a && !b
  | .inf a, .fin _ _ _ => a
  | .fin _ _ _, .inf b => !b
  | .fin a m e, .fin b n g =>
    let q := min e g
    decide (sgnMant a (m * 2 ^ (e - q).toNat) < sgnMant b (n * 2 ^ (g - q).toNat))

/-- Equality of values; NaN equals nothing. -/
def Num.eqv : Num → Num → Bool
  | .nan, _ => false
  | _, .nan => false
  | x, y => !(x.lt y) && !(y.lt x)

/-- Is it a NaN? -/
def Num.isNan : Num → Bool
  | .nan => true
  | _ => false

/-- Is it a zero of either sign? -/
def Num.isZero : Num → Bool
  | .fin _ m _ => m == 0
  | _ => false

/-- The value of an fp32 code. -/
def f32 (w : W32) : Num := fp32.decode w.toNat
/-- An integer as an exact value. -/
def numOfInt (x : Int) : Num := ofInt x 0 false

/-- fp32 with IEEE results (R239, R157): one rounding, ties to even. -/
def f32Enc (x : Num) : W32 := BitVec.ofNat 32 (fp32.enc x)
/-- fp32 that saturates (R175). -/
def f32Sat (x : Num) : W32 := BitVec.ofNat 32 (fp32.encSat x)

def f32Add (a b : W32) : W32 := f32Enc ((f32 a).add (f32 b))
def f32Sub (a b : W32) : W32 := f32Enc ((f32 a).add (f32 b).neg)
def f32Mul (a b : W32) : W32 := f32Enc ((f32 a).mul (f32 b))
def f32Lt (a b : W32) : Bool := (f32 a).lt (f32 b)
def f32Eq (a b : W32) : Bool := (f32 a).eqv (f32 b)
def f32IsNan (a : W32) : Bool := (f32 a).isNan

/-- Sum that saturates (R175). -/
def satAddF (a b : W32) : W32 := f32Sat ((f32 a).add (f32 b))
/-- Difference that saturates (R175). -/
def satSubF (a b : W32) : W32 := f32Sat ((f32 a).add (f32 b).neg)
/-- Product that saturates (R175). -/
def satMulF (a b : W32) : W32 := f32Sat ((f32 a).mul (f32 b))
/-- Quotient that saturates (R175). -/
def satDivF (a b : W32) : W32 := f32Sat ((f32 a).div (f32 b))

/-- fp32 of an integer, rounded to nearest even. -/
def f32OfInt (x : Int) : W32 := f32Enc (numOfInt x)

/-- Minus zero becomes plus zero (R174, R179 step 10). -/
def noNegZero (w : W32) : W32 := if w = 0x80000000#32 then 0#32 else w

/-- Conversion of an fp32 code to a narrower float format by the table of R174: saturating, and no minus zero. -/
def narrow (f : Fmt) (w : W32) : Nat :=
  let c := f.encSat (f32 w)
  if c == f.withSign true 0 then 0 else c

/-- The fp32 code of a narrower format's code, exact. -/
def widen (f : Fmt) (c : Nat) : W32 := f32Enc (f.decode c)

/-- The integer nearest to a value, ties to even; infinities give `big` of their sign, NaN gives 0. -/
def roundInt (big : Int) : Num → Int
  | .nan => 0
  | .inf neg => if neg then -big else big
  | .fin neg m e =>
    let r : Int := roundAt m e 0
    if neg then -r else r

/-- Clamp an integer to a range. -/
def clampInt (lo hi x : Int) : Int := if x < lo then lo else if x > hi then hi else x

/-- Rounding of the fp32 product `y * r` to an integer code saturated to `[lo, hi]` (R173, R174). -/
def quantCode (lo hi : Int) (y r : W32) : Int :=
  clampInt lo hi (roundInt 0x100000000 (f32 (satMulF y r)))

/-- The value of a memory scale or offset of fp16: NaN as 0, infinities as plus or minus 65,504 (R188). -/
def fp16Safe (c : Nat) : W32 :=
  match fp16.decode c with
  | .nan => 0#32
  | .inf neg => widen fp16 (fp16.withSign neg fp16.maxFin)
  | x => f32Enc x

/-- fp32 plus one and other constants. -/
def f32One : W32 := 0x3F800000#32
def f32NegTwo : W32 := 0xC0000000#32
def f32NegHalf : W32 := 0xBF000000#32
def f32PosInf : W32 := 0x7F800000#32
def f32NegInf : W32 := 0xFF800000#32

/-- fp32 sum of codes in increasing order, rounding each step (R179, R182, R184). -/
def f32Sum (xs : List W32) : W32 := xs.foldl satAddF 0#32

end Sys2Proof.Machine
end

