-- ==== Sys2Proof/Machine/Score.lean ====
section
/-!
DEFINITION. Sys2Proof/Machine/Score.lean: the elements of quantised codes, the accumulation and the epilogue that the
matrix arrays and the NBUs share (R157, R158, R215, R247).
-/
namespace Sys2Proof.Machine

/-- int8 value of a byte. -/
def i8 (b : Byte) : Int := b.toInt
/-- int4 value of a nibble. -/
def i4 (n : Nat) : Int := signed 4 n

/-- Element `d` of a packed code: format 0x0 int8, 0x1 int4 with the low nibble first, 0x7 one bit, bit 1 as +1 and
bit 0 as -1 (R146, R247). Other formats are read as int8. Elements beyond the bytes read as code 0. -/
def codeElem (fmt : Nat) (bs : List Byte) (d : Nat) : Int :=
  if fmt = 1 then
    let b := (bs.getD (d / 2) 0#8).toNat
    i4 (if d % 2 = 0 then b % 16 else b / 16)
  else if fmt = 7 then
    (if (bs.getD (d / 8) 0#8).toNat.testBit (d % 8) then 1 else -1)
  else i8 (bs.getD d 0#8)

/-- Elements in `n` bytes of code (R246). -/
def codeElems (fmt n : Nat) : Nat := if fmt = 1 then 2 * n else if fmt = 7 then 8 * n else n

/-- The sign of a code element as Hamming counts it (R247). -/
def hammSign (c : Int) : Int := if c < 0 then -1 else 1

/-- The exact dot product of two element sequences. -/
def dotInt (a b : List Int) : Int := (List.zipWith (· * ·) a b).foldl (· + ·) 0

/-- The sum of squares of an element sequence. -/
def sumSq (a : List Int) : Int := dotInt a a

/-- The sum of an element sequence. -/
def sumInt (a : List Int) : Int := a.foldl (· + ·) 0

/-- The constants of one output (R157). -/
structure EpiConst where
  qscl : W32
  qoff : W32
  qbias : W32
  cscl : W32
  coff : W32
  cbias : W32
  deriving DecidableEq, Repr

/-- The affine epilogue of R157, each step rounded. -/
def epilogue (k : EpiConst) (acc : W32) : W32 :=
  let t := f32Mul acc k.qscl
  let t := f32Mul t k.cscl
  let t := f32Add t (f32Mul k.qoff k.coff)
  let t := f32Add t k.qbias
  f32Add t k.cbias

/-- CBIAS from NORM (R158), in fp32, in the order written. -/
def normBias (cscl coff ns nq d : W32) : W32 :=
  let a := f32Mul (f32Mul cscl cscl) nq
  let b := f32Mul (f32Mul (f32Mul 0x40000000#32 cscl) coff) ns
  let c := f32Mul d (f32Mul coff coff)
  f32Add (f32Add a b) c

/-- A score in score order (R19, R215): negated for NEG. -/
def scoreOrder (neg : Bool) (y : W32) : W32 := if neg then y ^^^ 0x80000000#32 else y

/-- A threshold as it decodes: NaN as +infinity. -/
def threshOf (w : W32) : W32 := if f32IsNan w then f32PosInf else w

end Sys2Proof.Machine
end

