-- ==== Sys2Proof/Machine/StateNbu.lean ====
section
/-!
DEFINITION. Sys2Proof/Machine/StateNbu.lean: the state of the near-bank units (chapters 06 and 07).
-/
namespace Sys2Proof.Machine

/-- A request to an NBU, its fields decoded (R214), with its operand. -/
structure NbuReq where
  kernel : Nat
  cls : Nat
  neg : Bool
  norm : Bool
  fcomb : Bool
  hamm : Bool
  piece : Nat
  thresh : W32
  smax : Nat
  repoch : Nat
  filt : List Nat
  qscl : W32
  qoff : W32
  qbias : W32
  job : Nat
  home : Nat
  selreq : Nat
  arg0 : Nat
  arg1 : Nat
  /-- the operand, QLEN units of 32 bytes. -/
  operand : List Byte
  /-- the order in which requests reached the package's networks (R219, R306). -/
  seq : Nat
  /-- a context of a core handed it off, and no stage program awaits its end (R137). -/
  handOff : Bool
  deriving DecidableEq, Repr

/-- A piece header (R207), its fields decoded. -/
structure PieceHdr where
  codeb : Nat
  sfmt : Nat
  cap : Nat
  ordbase : Nat
  codes : Nat
  scales : Nat
  records : Nat
  fdir : Nat
  adj : Nat
  tail : Nat
  deriving DecidableEq, Repr

/-- The entry unit of one thread (R234): a piece context, query format, bound, local threshold and last score. -/
structure EntryUnit where
  hdr : Option PieceHdr
  qfmt : Nat
  bound : Nat
  lth : W32
  last : W64
  deriving DecidableEq, Repr

/-- One hardware thread (R194, R231): `req` is none while the thread is free. -/
structure Thread where
  req : Option NbuReq
  pc : Nat
  g : List W64
  v : List (BitVec 512)
  /-- t0 to t3: 16 KiB, 64 tables of 256 bytes. -/
  tabs : Mem
  /-- the thread's 16 KiB scratch area. -/
  scratch : Mem
  eu : EntryUnit
  /-- the unsent partial survivor block, oldest first, and the survivors sent. -/
  block : List (W32 × Nat)
  sent : Nat
  lastEmit : Option Nat
  scanned : Nat
  bytes : Nat
  issued : Nat
  tailRead : Nat
  /-- a cancel that names the request: bytes fetched and instructions at its arrival (R228, R259). -/
  cancel : Option (Nat × Nat)
  /-- bytes fetched for the request (R259). -/
  fetched : Nat
  /-- last unit that ENEXT fetched of each stream (R250). -/
  seen : Tbl Nat
  /-- entry offset of its loaded program when it took the request, none for any other (R253, R254), and the filters resident
  then (R294). -/
  prog : Option Nat
  resident : List Nat
  deriving DecidableEq, Repr

/-- STATUS of an end message (R222). -/
inductive EndStatus where
  | done | ue | trap | cancelled | full | nop
  deriving DecidableEq, Repr

/-- The traps of a loaded program (R257). -/
inductive Trap where
  | illegal | range | align | limit | order
  deriving DecidableEq, Repr

/-- A thread that is free and as R233 leaves it after R230: registers, tables and scratch all zero. -/
def Thread.idle : Thread :=
  { req := none, pc := 0, g := List.replicate 16 0#64, v := List.replicate 8 0#512, tabs := [], scratch := [],
    eu := { hdr := none, qfmt := 3, bound := 0, lth := 0x7F800000#32, last := 0 }, block := [], sent := 0,
    lastEmit := none, scanned := 0, bytes := 0, issued := 0, tailRead := 0, cancel := none, fetched := 0, seen := [],
    prog := none, resident := [] }

/-- A program image that host software loaded (R252, R253): words of the region at 0x3000 and 16 entry offsets. -/
structure NbuImage where
  words : List W32
  offsets : List Nat
  deriving DecidableEq, Repr

/-- One NBU (R194). -/
structure Nbu where
  queue : List NbuReq
  threads : List Thread
  image : NbuImage
  /-- an image that waits for running loaded programs to end (R254). -/
  nextImage : Option NbuImage
  /-- last epoch marker of each source partition (R304). -/
  markers : List Nat
  /-- successor links of pieces under compaction (R311, R313): (old header, new header). -/
  links : List (Nat × Nat)
  deriving DecidableEq, Repr

/-- An NBU after the kernels are loaded (R230): empty, no program loaded (R254), no link (R320). -/
def Nbu.idle : Nbu :=
  { queue := [], threads := List.replicate 4 Thread.idle, image := ⟨[], []⟩, nextImage := none,
    markers := List.replicate 16 0, links := [] }

/-- The access port of one pseudo-channel during one step: the stack's bytes, where the pseudo-channel lies in them,
its sizes, what is poisoned, the raw errors that this step's reads meet, and what the step has counted so far. -/
structure Bank where
  mem : Mem
  /-- key of local address 0 in `mem`. -/
  base : Nat
  /-- pseudo-channel size, and end of the index data region (R201). -/
  size : Nat
  data : Nat
  /-- keys of the 32-byte units that give an uncorrectable read (R213). -/
  poison : List Nat
  /-- keys of the units with an error that the code corrects (R209, R211). -/
  weak : List Nat
  /-- local unit numbers with a raw error in this step: true, correctable. -/
  errs : List (Nat × Bool)
  /-- last unit fetched of each stream (R208, R250). -/
  seen : Tbl Nat
  ce : Nat
  ue : Bool
  bytes : Nat
  /-- of them, the bytes fetched; a cancel stops the step once they reach `stop` (R228). -/
  fetched : Nat
  stop : Option Nat
  /-- regions of the pseudo-channel in use, (start, length), and those that firmware took in this step. -/
  used : List (Nat × Nat)
  taken : List (Nat × Nat)
  /-- the thread number of a loaded program, whose accesses R235 limits, and whether one was refused. -/
  guard : Option Nat
  deny : Bool
  /-- frames written in this step, and writes dropped by the Almanac share (R364, R680). -/
  wrote : List Nat
  drops : Nat
  deriving DecidableEq, Repr

end Sys2Proof.Machine
end

