-- ==== Sys2Proof/Machine/NbuUnit.lean ====
section
/-!
DEFINITION. Sys2Proof/Machine/NbuUnit.lean: the fetch port, the piece header, the entry unit and the firmware kernels
of an NBU (chapter 06; R245 to R250, R293 to R296, R311, R312, R324, R337, R352).
-/
namespace Sys2Proof.Machine

/-! ## The fetch port -/

/-- A local address as firmware takes it (R202). -/
def Bank.loc (b : Bank) (a : Nat) : Nat := if b.size = 0 then 0 else a % b.size

/-- Does a local address lie in the Almanac share (R201)? -/
def Bank.inShare (b : Bank) (a : Nat) : Bool := decide (a ≥ b.data + 0x100000)

/-- The byte at a local address; the Almanac share reads zeros (R202). -/
def Bank.byte (b : Bank) (a : Nat) : Byte :=
  let l := b.loc a
  if b.inShare l then 0#8 else b.mem.read (b.base + l)

/-- Fetch one 32-byte unit for a stream: a unit that the stream has just fetched is not fetched again (R250). The number is taken
modulo the pseudo-channel's units (R202). The fetch counts bytes, corrects, or is uncorrectable (R209 to R213). -/
def Bank.fetchUnit (b : Bank) (stream n : Nat) : Bank :=
  let u := if b.size < 32 then n else n % (b.size / 32)
  if stream ≠ 0 && b.seen.get? stream == some u then b
  else if b.inShare (32 * u) then b
  else
    let key := b.base / 32 + u
    let b1 := { b with
      seen := if stream = 0 then b.seen else b.seen.set stream u, bytes := b.bytes + 32, fetched := b.fetched + 32 }
    if b.poison.contains key then { b1 with ue := true }
    else if b.errs.contains (u, false) then { b1 with ue := true, poison := key :: b.poison }
    else if b.weak.contains key then { b1 with ce := b.ce + 1 }
    else if b.errs.contains (u, true) then { b1 with ce := b.ce + 1, weak := key :: b.weak }
    else b1

/-- Has the step come to the fetch boundary at which a cancel stops it (R228)? -/
def Bank.halted (b : Bank) : Bool := match b.stop with | some n => decide (b.fetched ≥ n) | none => false

/-- Fetch `n` units from unit `u` on. -/
def Bank.fetchUnits (b : Bank) (stream u : Nat) : Nat → Bank
  | 0 => b
  | n + 1 => (b.fetchUnit stream u).fetchUnits stream (u + 1) n

/-- May a loaded program read `n` bytes at a local address (R235)? The window of thread 0 follows the index data. -/
def Bank.mayRead (b : Bank) (w a n : Nat) : Bool :=
  decide (a + n ≤ b.data + (if w = 0 then 0x40000 else 0)) ||
    (decide (a ≥ b.data + 0x40000 * w) && decide (a + n ≤ b.data + 0x40000 * (w + 1)))

/-- May a loaded program write there (R235)? -/
def Bank.mayWrite (b : Bank) (w a n : Nat) : Bool :=
  decide (a ≥ b.data + 0x40000 * w) && decide (a + n ≤ b.data + 0x40000 * (w + 1))

/-- Note a read that a loaded program may not make (R235). -/
def Bank.chk (b : Bank) (a n : Nat) : Bank :=
  match b.guard with
  | some w => if b.mayRead w a n then b else { b with deny := true }
  | none => b

/-- The units of a local range fetched: the port reads whole units (R208). -/
def Bank.touch (b : Bank) (stream a n : Nat) : Bank :=
  let l := b.loc a
  let b1 := b.chk a n
  if n = 0 || b1.deny then b1 else b1.fetchUnits stream (l / 32) ((l + n - 1) / 32 - l / 32 + 1)

/-- A word that the entry unit looks up: its unit is read on a stream of its own and not counted. The spec's example of a scan
counts the header, codes, scale entries, slices and records alone (R221, R250). DEDUCED, log 175. -/
def Bank.peek (b : Bank) (stream a n : Nat) : Bank :=
  let b1 := b.touch stream a n
  { b1 with bytes := b.bytes, fetched := b.fetched }

/-- The bytes of a local range. -/
def Bank.bytesAt (b : Bank) (a : Nat) : Nat → List Byte
  | 0 => []
  | n + 1 => b.byte a :: b.bytesAt (a + 1) n

/-- Read `n` bytes at a local address on a stream (stream 0: unrelated addresses). -/
def Bank.read (b : Bank) (stream a n : Nat) : List Byte × Bank := (b.bytesAt a n, b.touch stream a n)

/-- The number at a local address, without an access of its own. -/
def Bank.num (b : Bank) (a n : Nat) : Nat := leNat (b.bytesAt a n)

/-- Write bytes that lie within one 32-byte unit: a whole unit at once, a part of a unit as a read, a merge and a
write (R210), counted as one access of 32 bytes (R200, R221). An uncorrectable read of that step leaves the unit as it was
(R236). DEDUCED, log 142. -/
def Bank.writeUnit (b : Bank) (l : Nat) (bs : List Byte) : Bank :=
  if b.ue then b
  else if b.inShare l then { b with drops := b.drops + 1 }
  else
    let key := (b.base + l) / 32
    let b := { b with wrote := if b.wrote.contains (l / 65536) then b.wrote else l / 65536 :: b.wrote }
    if bs.length = 32 && l % 32 = 0 then
      { b with mem := b.mem.writeN (b.base + l) bs, bytes := b.bytes + 32, poison := b.poison.filter (· ≠ key),
               weak := b.weak.filter (· ≠ key) }
    else
      let b1 := b.fetchUnit 0 (l / 32)
      if b1.ue then b1 else { b1 with mem := b1.mem.writeN (b.base + l) bs, weak := b1.weak.filter (· ≠ key) }

/-- Write bytes at a local address, unit by unit in order of address (`fuel` bounds the units). -/
def Bank.writeFuel (b : Bank) (a : Nat) (bs : List Byte) : Nat → Bank
  | 0 => b
  | k + 1 =>
    match bs with
    | [] => b
    | _ =>
      let l := b.loc a
      let n := 32 - l % 32
      (b.writeUnit l (bs.take n)).writeFuel (a + n) (bs.drop n) k

/-- Write a byte string at a local address. -/
def Bank.write (b : Bank) (a : Nat) (bs : List Byte) : Bank := b.writeFuel a bs (bs.length / 32 + 2)

/-- A region of `len` bytes is free at `a`. -/
def Bank.freeAt (b : Bank) (a len : Nat) : Bool :=
  decide (a + len ≤ b.data) && (b.used ++ b.taken).all (fun r => decide (a + len ≤ r.1) || decide (r.1 + r.2 ≤ a))

/-- Firmware takes the lowest free region of `len` bytes on a 64-byte boundary: after one of the regions in use, or
at address 0. -/
def Bank.alloc (b : Bank) (len : Nat) : Option (Nat × Bank) :=
  let cands := 0 :: (b.used ++ b.taken).map (fun r => (r.1 + r.2 + 63) / 64 * 64)
  let ok := cands.filter (fun a => b.freeAt a len)
  match ok with
  | [] => none
  | a :: as =>
    let lo := as.foldl min a
    some (lo, { b with taken := (lo, len) :: b.taken })

/-! ## Piece headers -/

/-- A 14-bit byte-length field that decodes 0 and large values as 8,192 (R207). -/
def codebOf (v : Nat) : Nat := if v = 0 || v > 8192 then 8192 else v

/-- SFMT with its reserved codes decoded (R176, R207). -/
def sfmtOf (v : Nat) : Nat := if v = 1 || v = 7 || v = 8 then v else 0

/-- Decode a piece header from its 64 bytes (R207). -/
def decodeHdr (h : List Byte) : PieceHdr :=
  let cap := le32 h 4
  { codeb := codebOf (field h 0 14), sfmt := sfmtOf (field h 16 4), cap := cap, ordbase := le32 h 8,
    codes := le32 h 12 / 32 * 32, scales := le32 h 16 / 32 * 32, records := le32 h 20 / 32 * 32,
    fdir := le32 h 24, adj := le32 h 28, tail := min (le32 h 32) cap }

/-- Read a piece header: its two units are fetched. DESIGN CHOICE, log 146. -/
def Bank.hdr (b : Bank) (a : Nat) : PieceHdr × Bank :=
  let l := a / 64 * 64
  (decodeHdr (b.bytesAt l 64), b.touch 0 l 64)

/-- The bytes of a piece header that firmware writes (R207). -/
def hdrBytes (h : PieceHdr) : List Byte :=
  packBytes 64 [(14, h.codeb), (2, 0), (4, h.sfmt), (12, 0), (32, h.cap), (32, h.ordbase), (32, h.codes),
    (32, h.scales), (32, h.records), (32, h.fdir), (32, h.adj), (32, h.tail)]

/-! ## Item records -/

/-- EXT_ID, BIRTH, DEATH and the rest of an item record (R290). -/
def recExt (r : List Byte) : Nat := field r 0 64
def recBirth (r : List Byte) : Nat := field r 64 48
def recDeath (r : List Byte) : Nat := field r 112 48
def recExtent (r : List Byte) : Nat := field r 160 24
def recOffset (r : List Byte) : Nat := field r 184 24
def recFclass (r : List Byte) : Nat := field r 208 16
def recNan (r : List Byte) : Bool := fbit r 224
def recCached (r : List Byte) : Bool := fbit r 225

/-- The bytes of an item record (R290). -/
def recBytes (ext birth death extent offset fclass : Nat) (nan cached : Bool) : List Byte :=
  packBytes 32 [(64, ext), (48, birth), (48, death), (24, extent), (24, offset), (16, fclass),
    (1, b2n nan), (1, b2n cached)]

/-- Visibility to a read epoch (R292). -/
def visible (birth death e : Nat) : Bool := decide (birth ≤ e) && decide (e < death)

/-- A dead entry at an oldest retained epoch (R310). -/
def deadAt (birth death o : Nat) : Bool := decide (death ≤ o) || birth == death

/-! ## Filters -/

/-- The state of one filter for one entry, read from the slice directory and the slice (R293): a stream for each filter, so
that slots that name one filter read its unit once (R250). -/
def Bank.filterBit (b : Bank) (h : PieceHdr) (f n : Nat) : Bool × Bank :=
  let b := b.peek (8192 + f) (h.fdir + 4 * f) 4
  let d := b.num (h.fdir + 4 * f) 4
  let kind := bitsOf d 30 2
  if kind = 2 then (true, b)
  else if kind = 1 then
    let a := bitsOf d 0 26 * 64 + n / 8
    ((b.byte a).toNat.testBit (n % 8), b.touch (4096 + f) a 1)
  else (false, b)

/-- One enabled filter slot on one entry (R97, R249, R294). -/
def Bank.slotTest (b : Bank) (h : PieceHdr) (resident : List Nat) (w n : Nat) : Bool × Bank :=
  let f := bitsOf w 0 12
  if !resident.contains f then (false, b)
  else
    let (x, b1) := b.filterBit h f n
    (x != bitOf w 13, b1)

/-- The filter combination on one entry (R249): `some true` of no enabled slot. -/
def Bank.filterTest (b : Bank) (h : PieceHdr) (resident : List Nat) (fcomb : Bool) (n : Nat) :
    List Nat → Bool → Bool → Bool × Bank
  | [], any, acc => (if any then acc else true, b)
  | w :: ws, any, acc =>
    if bitOf w 12 then
      let (x, b1) := b.slotTest h resident w n
      let acc' := if any then (if fcomb then acc || x else acc && x) else x
      b1.filterTest h resident fcomb n ws true acc'
    else b.filterTest h resident fcomb n ws any acc

/-! ## The entry unit -/

/-- What the entry unit of a thread scores with (R234): the request's constants, the query codes in scratch, the
query format, the tables of a PQ8 code and the partition's residency bits. -/
structure ScoreEnv where
  req : NbuReq
  query : List Byte
  qfmt : Nat
  tabs : Nat → Byte
  resident : List Nat

/-- The query format: AUTO chooses by the operand length (R246). -/
def queryFmt (fn codeb sfmt q : Nat) : Nat :=
  let ne := codeElems sfmt codeb
  if fn % 4 = 0 then 0 else if fn % 4 = 1 then 1 else if fn % 4 = 2 then 7
  else if q ≥ ne then 0 else if q ≥ ceilDiv ne 2 then 1 else 7

/-- The PQ8 sum of sub-vectors `lo` to `hi - 1` (R243, R247). -/
def pqSum (tabs : Nat → Byte) (code : List Byte) (lo : Nat) : Nat → Nat
  | 0 => 0
  | k + 1 => pqSum tabs code lo k +
      (if lo + k < code.length then (tabs (256 * (lo + k) + (code.getD (lo + k) 0#8).toNat)).toNat else 0)

/-- Raw accumulation of a code (R247), with NS and NQ. -/
def accumulate (e : ScoreEnv) (h : PieceHdr) (code : List Byte) : Int × Int × Int :=
  if h.sfmt = 8 then (pqSum e.tabs code 0 h.codeb, 0, 0)
  else
    let ne := codeElems h.sfmt h.codeb
    let cs := (List.range ne).map (codeElem h.sfmt code)
    let qs := (List.range ne).map (codeElem e.qfmt e.query)
    let cs' := if e.req.hamm then cs.map hammSign else cs
    (dotInt qs cs', sumInt cs, sumSq cs)

/-- The epilogue of one entry from its accumulation and its scale entry (R215, R248). -/
def entryScore (e : ScoreEnv) (h : PieceHdr) (acc ns nq : Int) (scale : List Byte) : W32 :=
  let cscl := if e.req.hamm then f32One else fp16Safe (le16 scale 0)
  let coff := if e.req.hamm then 0#32 else fp16Safe (le16 scale 2)
  let cb := if e.req.norm && !e.req.hamm then
      normBias cscl coff (f32OfInt ns) (f32OfInt nq) (f32OfInt (codeElems h.sfmt h.codeb)) else 0#32
  epilogue ⟨e.req.qscl, e.req.qoff, e.req.qbias, cscl, coff, cb⟩ (f32OfInt acc)

/-- The scale entry of entry `n`, not read under HAMM (R215). Stream 2. -/
def Bank.scaleEntry (b : Bank) (h : PieceHdr) (hamm : Bool) (n : Nat) : List Byte × Bank :=
  if hamm then ([], b) else b.read 2 (h.scales + 4 * n) 4

/-- Score entry `n`: its code (stream 1), then its scale entry (R247, R248): y and s. -/
def Bank.score (b : Bank) (e : ScoreEnv) (h : PieceHdr) (n : Nat) : W32 × W32 × Bank :=
  let (code, b1) := b.read 1 (h.codes + n * h.codeb) h.codeb
  let (sc, b2) := b1.scaleEntry h e.req.hamm n
  let (acc, ns, nq) := accumulate e h code
  let y := entryScore e h acc ns nq sc
  (y, scoreOrder e.req.neg y, b2)

/-- Read the item record of entry `n` (at unrelated addresses, R250). -/
def Bank.record (b : Bank) (h : PieceHdr) (n : Nat) : List Byte × Bank := b.read 0 (h.records + 32 * n) 32

/-- The three tests of R105 on entry `n`, in their order: does it pass, and y and s. -/
def Bank.testEntry (b : Bank) (e : ScoreEnv) (h : PieceHdr) (lth : W32) (n : Nat) : Bool × W32 × W32 × Bank :=
  let (y, s, b1) := b.score e h n
  if f32Lt s (threshOf e.req.thresh) && f32Lt s lth then
    let (ok, b2) := b1.filterTest h e.resident e.req.fcomb n e.req.filt false false
    if ok then
      let (r, b3) := b2.record h n
      (visible (recBirth r) (recDeath r) e.req.repoch, y, s, b3)
    else (false, y, s, b2)
  else (false, y, s, b1)

/-! ## SCAN -/

/-- A survivor kept in the buffer of R218: entry number, y and s. -/
abbrev Surv := Nat × W32 × W32

/-- Does `a` rank before `b`: better score, then the lower number (R218)? -/
def survBefore (a b : Surv) : Bool := f32Lt a.2.2 b.2.2 || (!f32Lt b.2.2 a.2.2 && decide (a.1 < b.1))

/-- Insert in rank order. -/
def survInsert (x : Surv) : List Surv → List Surv
  | [] => [x]
  | y :: ys => if survBefore x y then x :: y :: ys else y :: survInsert x ys

/-- The best `k` of a buffer, in rank order. -/
def survBest (k : Nat) (l : List Surv) : List Surv := (l.foldr survInsert []).take k

/-- Insert in order of entry number. -/
def survByNum (x : Surv) : List Surv → List Surv
  | [] => [x]
  | y :: ys => if x.1 < y.1 then x :: y :: ys else y :: survByNum x ys

/-- The survivor buffer of a SCAN (R218): its slots as they stand, the first `len` of them in use, in entry order. -/
structure ScanBuf where
  slots : List Surv
  len : Nat

/-- The entries in use. -/
def ScanBuf.live (b : ScanBuf) : List Surv := b.slots.take b.len

/-- A passing entry takes the next slot. -/
def ScanBuf.push (b : ScanBuf) (x : Surv) : ScanBuf := { slots := b.slots.take b.len ++ [x] ++ b.slots.drop (b.len + 1), len := b.len + 1 }

/-- The prune (R218): the best `k` entries, compacted in place in entry order, and the worst score kept; a buffer of no more
entries stays as it is. -/
def ScanBuf.prune (b : ScanBuf) (k : Nat) (lth : W32) : ScanBuf × W32 :=
  if b.len ≤ k then (b, lth)
  else
    let best := survBest k b.live
    let kept := best.foldr survByNum []
    ({ slots := kept ++ b.slots.drop kept.length, len := kept.length },
      match best.getLast? with | some x => x.2.2 | none => lth)

/-- The bytes of the buffer: y, then the entry number, of each slot. -/
def ScanBuf.bytes (b : ScanBuf) : List Byte := b.slots.flatMap (fun x => leBytes 4 x.2.1.toNat ++ leBytes 4 x.1)

/-- Slots of the buffer (R218, R244): 2 × SMAX, or what a PQ8 request with `sweeps` further sweeps leaves them in the window. -/
def bufSlots (smax sweeps : Nat) : Nat := if sweeps = 0 then 2 * smax else min (2 * smax) ((0x40000 - 16384) / 8)

/-- The scan loop over `k` entries from `n` on (R215 to R218) with a buffer of `cap` slots: the buffer, entries tested, the port. -/
def scanLoop (e : ScoreEnv) (h : PieceHdr) (cap : Nat) : Nat → Nat → ScanBuf → W32 → Nat → Bank → ScanBuf × Nat × Bank
  | 0, _, buf, _, tested, b => (buf, tested, b)
  | k + 1, n, buf, lth, tested, b =>
    if b.ue || b.halted then (buf, tested, b) else
    let (pass, y, s, b1) := b.testEntry e h lth n
    if pass then
      let buf1 := buf.push (n, y, s)
      if buf1.len ≥ cap then
        let (kept, worst) := buf1.prune e.req.smax lth
        scanLoop e h cap k (n + 1) kept worst (tested + 1) b1
      else scanLoop e h cap k (n + 1) buf1 lth (tested + 1) b1
    else scanLoop e h cap k (n + 1) buf lth (tested + 1) b1

/-- What a kernel run ends with: status, survivors (y, ordinal), entries tested, TAIL read, and the port. -/
structure KernelEnd where
  status : EndStatus
  survivors : List (W32 × Nat)
  scanned : Nat
  tailRead : Nat
  bank : Bank

/-- The ordinal of an entry (R207). -/
def ordOf (h : PieceHdr) (n : Nat) : Nat := (h.ordbase + n) % 2 ^ 32

/-- Bytes of a PQ8 SCAN's table sweeps (R221, R244): `s` sub-vectors, `tail` entries, `room` sweep slots.
DEDUCED, log 143. -/
def pqSweepBytes (s tail room : Nat) : Nat :=
  let sweeps := ceilDiv s 64 - 1
  let fit := min sweeps (max room 1)
  let blocks := ceilDiv tail 256
  16384 * (fit + (sweeps - fit) * blocks + sweeps * blocks)

/-- Further sweeps of a PQ8 code of `codeb` sub-vectors (R244). -/
def pqSweeps (h : PieceHdr) : Nat := if h.sfmt = 8 then ceilDiv h.codeb 64 - 1 else 0

/-- Core HOME writes the tables of the further sweeps into the thread's window (R244): as many as fit in `room` slots, and those
that do not, one after another, in the last slot when there is a block to sweep. Their bytes and those of the loads count (R221). -/
def Bank.sweepTabs (b : Bank) (e : ScoreEnv) (h : PieceHdr) (w tail room : Nat) : Bank :=
  let n := pqSweeps h
  if n = 0 then b
  else
    let fit := min n (max room 1)
    let at_ := fun (i : Nat) => b.data + 0x40000 * w + 16384 * i
    let tab := fun (s : Nat) => (List.range 16384).map (fun i => if 64 * s + i / 256 < h.codeb then e.tabs (16384 * s + i) else 0#8)
    let b1 := (List.range fit).foldl (fun (b : Bank) i =>
      b.write (at_ i) (tab (if i + 1 = fit && tail > 0 then n else i + 1))) b
    { b1 with bytes := b.bytes + pqSweepBytes h.codeb tail room }

/-- A survivor buffer that needs more than 8 KiB lies in the thread's window, from its start, or at its top beside PQ8 tables
(R218, R244). DESIGN CHOICE, log 147. -/
def Bank.putBuf (b : Bank) (e : ScoreEnv) (h : PieceHdr) (w cap tested : Nat) (buf : ScanBuf) : Bank :=
  if 16 * e.req.smax ≤ 8192 then b
  else
    let a := b.data + 0x40000 * w + (if pqSweeps h = 0 then 0 else 0x40000 - 8 * cap)
    let b1 := (chunks 8 (buf.slots.length + 1) buf.bytes).zipIdx.foldl (fun (b : Bank) x => b.write (a + 8 * x.2) x.1) b
    { b1 with bytes := b.bytes + Config.bufferBytes e.req.smax tested h.tail, fetched := b.fetched }

/-- The SCAN kernel of thread `w` (R215 to R218, R244): its end, and the survivor buffer. DESIGN CHOICE, log 147. -/
def kernelScan (e : ScoreEnv) (w : Nat) (b : Bank) : KernelEnd × ScanBuf :=
  let (h, b1) := b.hdr e.req.piece
  let e := { e with qfmt := queryFmt 3 h.codeb h.sfmt e.query.length }
  let cap := bufSlots e.req.smax (pqSweeps h)
  let b2 := b1.sweepTabs e h w h.tail ((0x40000 - 8 * cap) / 16384)
  let (buf, tested, b3) := scanLoop e h cap h.tail 0 ⟨[], 0⟩ f32PosInf 0 b2
  let kept := (buf.prune e.req.smax f32PosInf).1
  let b4 := b3.putBuf e h w cap tested kept
  ({ status := if b4.ue then .ue else .done, survivors := kept.live.map (fun x => (x.2.1, ordOf h x.1)),
     scanned := tested, tailRead := h.tail, bank := b4 }, kept)

/-! ## BLOCK -/

/-- A BLOCK reply entry (R337). -/
structure Reply where
  score : W32
  ord : Nat
  enter : Bool
  beyond : Bool
  nan : Bool
  deriving DecidableEq, Repr

/-- The listed entries of a BLOCK, in list order (R337): replies, entries scored, the port. -/
def blockLoop (e : ScoreEnv) (h : PieceHdr) : List Nat → Bank → List Reply × Nat × Bank
  | [], b => ([], 0, b)
  | n :: ns, b =>
    if b.ue || b.halted then ([], 0, b)
    else if n ≥ h.tail then
      let (rs, k, b1) := blockLoop e h ns b
      (⟨0#32, ordOf h n, false, true, false⟩ :: rs, k, b1)
    else
      let (y, s, b1) := b.score e h n
      let (ok, b2) := b1.filterTest h e.resident e.req.fcomb n e.req.filt false false
      let (enter, b3) :=
        if ok && f32Lt s (threshOf e.req.thresh) then
          let (r, b3) := b2.record h n
          (visible (recBirth r) (recDeath r) e.req.repoch, b3)
        else (false, b2)
      let (rs, k, b4) := blockLoop e h ns b3
      (⟨y, ordOf h n, enter, false, f32IsNan y⟩ :: rs, k + 1, b4)

/-- The BLOCK kernel of thread `w` (R244, R324, R336, R337): status, replies, entries scored and the port. -/
def kernelBlock (e : ScoreEnv) (w : Nat) (b : Bank) : KernelEnd × List Reply :=
  let (h, b1) := b.hdr e.req.piece
  let e := { e with qfmt := queryFmt 3 h.codeb h.sfmt e.query.length }
  if h.adj = 0xFFFFFFFF then (⟨if b1.ue then .ue else .done, [], 0, h.tail, b1⟩, [])
  else
    let (blk, b2) := b1.read 0 (h.adj + 32 * h.cap + 128 * e.req.arg0) 128
    let c := min (field blk 0 5) 30
    let list := (List.range c).map (fun i => le32 blk (8 + 4 * i))
    let (rs, k, b3) := blockLoop e h list (b2.sweepTabs e h w c 16)
    (⟨if b3.ue then .ue else .done, [], k, h.tail, b3⟩, rs)

/-! ## APPEND, STAMP, COMPACT, BITMAP, SCRUB, POOL -/

/-- Set or clear bit `n` of a filter slice. -/
def Bank.sliceBit (b : Bank) (saddr n : Nat) (v : Bool) : Bank :=
  let a := saddr * 64 + n / 8
  let old := (b.byte a).toNat
  let m := 2 ^ (n % 8)
  let new := if v then old ||| m else old &&& (255 - m)
  b.write a [BitVec.ofNat 8 new]

/-- The directory entry of a filter made a slice whose units hold `fill` (R295, R296): none when there is no room. -/
def Bank.makeSlice (b : Bank) (h : PieceHdr) (f : Nat) (fill : Byte) : Option (Nat × Bank) :=
  let n := 32 * ceilDiv h.cap 256
  match b.alloc n with
  | none => none
  | some (a, b1) =>
    let b2 := b1.write a (List.replicate n fill)
    some (a / 64, b2.write (h.fdir + 4 * f) (leBytes 4 (a / 64 + 2 ^ 30)))

/-- The directory entry of a filter as it stands: KIND and SADDR (R293). -/
def Bank.dirNow (b : Bank) (h : PieceHdr) (f : Nat) : Nat × Nat :=
  let d := b.num (h.fdir + 4 * f) 4
  (if bitsOf d 30 2 = 3 then 0 else bitsOf d 30 2, bitsOf d 0 26)

/-- Read the directory entry of a filter (R236): a kernel fetches a unit of the directory once, on the stream given. -/
def Bank.dirEntry (b : Bank) (stream : Nat) (h : PieceHdr) (f : Nat) : (Nat × Nat) × Bank :=
  (b.dirNow h f, b.touch stream (h.fdir + 4 * f) 4)

/-- The slices that the class slots of the new entries need, made before any entry is written (R295). -/
def Bank.needSlices (b : Bank) (h : PieceHdr) : List Nat → Option Bank
  | [] => some b
  | f :: fs =>
    let (d, b) := b.dirEntry 3 h f
    if d.1 = 0 then
      match b.makeSlice h f 0#8 with
      | none => none
      | some (_, b1) => b1.needSlices h fs
    else b.needSlices h fs

/-- The filter numbers of the enabled slots of a class table entry (R295). -/
def classFilters (c : List Byte) : List Nat :=
  ((List.range 4).map (fun i => le16 c (2 * i))).filterMap (fun w => if bitOf w 12 then some (bitsOf w 0 12) else none)

/-- The filter bits of a new entry set (R295). -/
def Bank.setFilters (b : Bank) (h : PieceHdr) (n : Nat) : List Nat → Bank
  | [] => b
  | f :: fs =>
    let (d, b) := b.dirEntry 3 h f
    (if d.1 = 1 then b.sliceBit d.2 n true else b).setFilters h n fs

/-- One new entry of an APPEND's operand: code, scale entry, item record and class slots. -/
def appendEntryLen (codeb : Nat) : Nat := codeb + 4 + 32 + 8

/-- The entries of an APPEND written at `n` on, U as BIRTH (R225, R302). -/
def appendLoop (h : PieceHdr) (u : Nat) (op : List Byte) : Nat → Nat → Nat → Bank → Bank
  | 0, _, _, b => b
  | k + 1, i, n, b =>
    let e := (op.drop (i * appendEntryLen h.codeb)).take (appendEntryLen h.codeb)
    let code := slice e 0 h.codeb
    let sc := slice e h.codeb 4
    let r := overlay (slice e (h.codeb + 4) 32) 8 (leBytes 6 u)
    let b1 := b.write (h.codes + n * h.codeb) code
    let b2 := b1.write (h.scales + 4 * n) sc
    let b3 := b2.write (h.records + 32 * n) r
    let b4 := b3.setFilters h n (classFilters (slice e (h.codeb + 36) 8))
    appendLoop h u op k (i + 1) (n + 1) b4

/-- The write of TAIL as one whole unit (R225, R256). -/
def Bank.writeTail (b : Bank) (piece t : Nat) : Bank := b.write (piece + 32) (leBytes 32 t)

/-- The APPEND kernel (R225, R295): the first new entry's number is TAIL as read. -/
def kernelAppend (req : NbuReq) (b : Bank) : KernelEnd :=
  let (h, b1) := b.hdr req.piece
  let n := max 1 (min req.arg0 64)
  if h.tail + n > h.cap then ⟨if b1.ue then .ue else .full, [], 0, h.tail, b1⟩
  else
    let fs := (List.range n).flatMap (fun i =>
      classFilters (slice req.operand (i * appendEntryLen h.codeb + h.codeb + 36) 8))
    match b1.needSlices h fs with
    | none => ⟨if b1.ue then .ue else .full, [], 0, h.tail, b1⟩
    | some b2 =>
      let b3 := appendLoop h req.repoch req.operand n 0 h.tail b2
      let b4 := b3.writeTail (req.piece / 64 * 64) (h.tail + n)
      ⟨if b4.ue then .ue else .done, [], 0, h.tail, b4⟩

/-- DEATH := U when U is less than the stored DEATH (R226, R302). -/
def Bank.stampRec (b : Bank) (h : PieceHdr) (n u : Nat) : Bank :=
  let (r, b1) := b.record h n
  if !b1.ue && u < recDeath r then b1.write (h.records + 32 * n + 14) (leBytes 6 u) else b1

/-- The entry of the successor with the same EXT_ID and BIRTH (R312), searched in `k` records from `n` on. -/
def Bank.findTwin (b : Bank) (h : PieceHdr) (ext birth : Nat) : Nat → Nat → Option Nat × Bank
  | 0, _ => (none, b)
  | k + 1, n =>
    let (r, b1) := b.record h n
    if recExt r = ext && recBirth r = birth then (some n, b1) else b1.findTwin h ext birth k (n + 1)

/-- The STAMP kernel (R226, R302, R312): the entry, and its twin in a successor piece. -/
def kernelStamp (req : NbuReq) (succ : Option Nat) (b : Bank) : KernelEnd :=
  let (h, b1) := b.hdr req.piece
  let b2 := b1.stampRec h req.arg0 req.repoch
  let b3 := match succ with
    | none => b2
    | some a =>
      let r := b2.bytesAt (h.records + 32 * req.arg0) 32
      let (h', b3) := b2.hdr a
      match b3.findTwin h' (recExt r) (recBirth r) h'.tail 0 with
      | (some n, b4) => b4.stampRec h' n req.repoch
      | (none, b4) => b4
  ⟨if b3.ue then .ue else .done, [], 0, h.tail, b3⟩

/-- Copy the filter bits of one entry to its new place: every filter whose directory entry in the new piece is a
slice (R311). -/
def Bank.copyFilters (b : Bank) (h h' : PieceHdr) (n m : Nat) : List Nat → Bank
  | [] => b
  | f :: fs =>
    let d := b.dirNow h' f
    let (old, b) := b.dirEntry (8192 + f) h f
    let bit := if old.1 = 2 then true else if old.1 = 1 then
        (b.byte (old.2 * 64 + n / 8)).toNat.testBit (n % 8) else false
    let b := if old.1 = 1 then b.touch (4096 + f) (old.2 * 64 + n / 8) 1 else b
    (if d.1 = 1 && bit then b.sliceBit d.2 m true else b).copyFilters h h' n m fs

/-- The copy loop of COMPACT (R311): live entries in entry order, CACHED 0; the count copied. -/
def compactLoop (h h' : PieceHdr) (o : Nat) (fs : List Nat) : Nat → Nat → Nat → Bank → Nat × Bank
  | 0, _, m, b => (m, b)
  | k + 1, n, m, b =>
    if b.ue then (m, b) else
    let (r, b1) := b.record h n
    if deadAt (recBirth r) (recDeath r) o || m ≥ h'.cap then compactLoop h h' o fs k (n + 1) m b1
    else
      let (code, b2) := b1.read 1 (h.codes + n * h.codeb) h.codeb
      let (sc, b3) := b2.read 2 (h.scales + 4 * n) 4
      let r' := overlay r 28 (leBytes 1 (b2n (recNan r)) ++ [0#8, 0#8, 0#8])
      let b4 := b3.write (h'.codes + m * h'.codeb) code
      let b5 := b4.write (h'.scales + 4 * m) sc
      let b6 := b5.write (h'.records + 32 * m) r'
      let b7 := b6.copyFilters h h' n m fs
      compactLoop h h' o fs k (n + 1) (m + 1) b7

/-- The COMPACT kernel (R227, R309, R311): ARG0 the new piece, ARG1 the effective oldest retained epoch. The TAIL of
the new piece is written at its end. DESIGN CHOICE, log 147. -/
def kernelCompact (req : NbuReq) (b : Bank) : KernelEnd :=
  let (h, b1) := b.hdr req.piece
  let (h', b2) := b1.hdr req.arg0
  let b2 := b2.touch 3 h'.fdir 16384
  let fs := (List.range 4096).filter (fun f => (b2.dirNow h' f).1 = 1)
  let (m, b3) := compactLoop h h' req.arg1 fs h.tail 0 0 b2
  let b4 := if b3.ue then b3 else b3.writeTail (req.arg0 / 64 * 64) m
  ⟨if b4.ue then .ue else .done, [], h.tail, h.tail, b4⟩

/-- The entry numbers in a BITMAP operand: 32 bits each, all ones naming none. -/
def bitmapEntries (op : List Byte) : List Nat :=
  ((List.range (op.length / 4)).map (fun i => le32 op (4 * i))).filter (· ≠ 0xFFFFFFFF)

/-- The BITMAP kernel (R227, R296): ARG0 the filter, ARG1 set or clear. COUNT 1 says that no room was found. -/
def kernelBitmap (req : NbuReq) (b : Bank) : KernelEnd × Bool :=
  let (h, b1) := b.hdr req.piece
  let f := req.arg0 % 4096
  let v := req.arg1 % 2 = 1
  let (d, b1) := b1.dirEntry 3 h f
  let es := (bitmapEntries req.operand).filter (· < h.cap)
  let fin := fun (b2 : Bank) (room : Bool) =>
    ((⟨if b2.ue then .ue else .done, [], 0, h.tail, b2⟩ : KernelEnd), room)
  if d.1 = 1 then fin (es.foldl (fun b n => b.sliceBit d.2 n v) b1) true
  else if decide (d.1 = 0) == v then
    match b1.makeSlice h f (if v then 0#8 else 0xFF#8) with
    | none => fin b1 false
    | some (s, b2) => fin (es.foldl (fun b n => b.sliceBit s n v) b2) true
  else fin b1 true

/-- The SCRUB loop (R211, R227): each unit read, and each corrected one written back. -/
def scrubLoop : Nat → Nat → Bank → Bank
  | 0, _, b => b
  | k + 1, u, b =>
    if b.ue then b else
    let b1 := b.fetchUnit 0 u
    let b2 := if b1.ce > b.ce then b1.write (32 * u) (b1.bytesAt (32 * u) 32) else b1
    scrubLoop k (u + 1) b2

/-- The SCRUB kernel: ARG0 the start local address, ARG1 the unit count. -/
def kernelScrub (req : NbuReq) (b : Bank) : KernelEnd :=
  let b1 := scrubLoop (min req.arg1 (b.size / 32)) (b.loc req.arg0 / 32) b
  ⟨if b1.ue then .ue else .done, [], 0, 0, b1⟩

/-- The part of an embedding table that POOL needs (R345, R346). -/
structure PoolTab where
  int4 : Bool
  dim : Nat
  cbase : Nat
  sbase : Nat
  deriving DecidableEq, Repr

/-- Bytes of one code row (R346). -/
def PoolTab.rowb (t : PoolTab) : Nat := if t.int4 then ceilDiv t.dim 64 * 32 else ceilDiv t.dim 32 * 32

/-- Add one row, taken `m` times, to a partial sum (R352), every step saturating. -/
def poolRow (t : PoolTab) (m : Nat) (c o : W32) (row : List Byte) (part : List W32) : List W32 :=
  part.mapIdx (fun d p =>
    let x := satMulF c (f32OfInt (codeElem (if t.int4 then 1 else 0) row d))
    let x := satAddF x o
    let x := if m > 1 then satMulF (f32OfInt m) x else x
    satAddF p x)

/-- A pool entry's multiplicity as R352 decodes it. -/
def poolMult (v : Nat) : Nat := if v = 0 then 1 else if v > 1024 then 1024 else v

/-- The POOL loop over (i, m) in operand order (R352). -/
def poolLoop (t : PoolTab) : List (Nat × Nat) → List W32 → Bank → List W32 × Bank
  | [], part, b => (part, b)
  | (i, m) :: es, part, b =>
    if b.ue || b.halted then (part, b) else
    let (row, b1) := b.read 0 (t.cbase + i * t.rowb) t.rowb
    let (sc, b2) := b1.read 0 (t.sbase + 4 * i) 4
    poolLoop t es (poolRow t m (fp16Safe (le16 sc 0)) (fp16Safe (le16 sc 2)) row part) b2

/-- The POOL kernel (R227, R352): the partial sum and its entry count. -/
def kernelPool (req : NbuReq) (t : PoolTab) (b : Bank) : KernelEnd × List W32 :=
  let n := min req.arg1 (req.operand.length / 8)
  let es := (List.range n).map (fun j => (le32 req.operand (8 * j), poolMult (field req.operand (64 * j + 32) 11)))
  let (part, b1) := poolLoop t es (List.replicate t.dim 0#32) b
  (⟨if b1.ue then .ue else .done, [], 0, 0, b1⟩, part)

end Sys2Proof.Machine
end

