-- ==== Sys2Proof/Machine/NbuIsa.lean ====
section
/-!
DEFINITION. Sys2Proof/Machine/NbuIsa.lean: the near-bank instruction set (chapter 07): encoding, the effect of one
instruction on its thread and its pseudo-channel, and the traps of loaded programs.
-/
namespace Sys2Proof.Machine

/-- The entry-unit opcodes 0x28 to 0x31 (R238, R248). -/
inductive EuOp where
  | pset | enext | escore | eacc | epil | efilt | evis | elast | ethr | emit
  deriving DecidableEq, Repr

/-- The compares of the branches (R238). -/
inductive BrOp where
  | eq | ne | lt | ge | ltu | geu
  deriving DecidableEq, Repr

/-- The I-format operations (R238). -/
inductive ImmOp where
  | add | and | or | xor | shl | shr | sra
  deriving DecidableEq, Repr

/-- A decoded NBU instruction (R238). Register numbers are 0 to 15, widths in bytes. -/
inductive NInstr where
  | alu (fn fa fb fc : Nat)
  | imm (op : ImmOp) (fa fb : Nat) (i : Int)
  | lui (fa : Nat) (i : Int)
  | ld (fa fb w : Nat) (local_ : Bool) (i : Int)
  | st (fa fb w : Nat) (local_ : Bool) (i : Int)
  | vld (fa fb : Nat) (local_ : Bool) (i : Int)
  | vst (fa fb : Nat) (local_ : Bool) (i : Int)
  | tld (fa fb : Nat) (local_ : Bool) (i : Int)
  | fence
  | br (op : BrOp) (fa fb : Nat) (i : Int)
  | jal (fa : Nat) (i : Int)
  | jalr (fa fb : Nat)
  | fin
  | valu (fn fa fb fc : Nat)
  | vred (fn fa fb fc : Nat)
  | vlut (fa fb : Nat)
  | vmovg (fn fa fb : Nat)
  | eu (op : EuOp) (fn fa fb fc : Nat)
  | sttail (fb fc : Nat)
  | reserved
  deriving DecidableEq, Repr

/-- The instruction that a 32-bit word spells (R238, R239). -/
def nDecode (w : Nat) : NInstr :=
  let op := bitsOf w 0 6
  let fa := bitsOf w 6 4
  let fb := bitsOf w 10 4
  let fc := bitsOf w 14 4
  let fn := bitsOf w 18 6
  let i18 := signed 18 (bitsOf w 14 18)
  let i15 := signed 15 (bitsOf w 17 15)
  let i22 := signed 22 (bitsOf w 10 22)
  let wd := 2 ^ bitsOf w 14 2
  let sp := bitOf w 16
  match op with
  | 0x00 => .alu fn fa fb fc
  | 0x01 => .imm .add fa fb i18
  | 0x02 => .imm .and fa fb i18
  | 0x03 => .imm .or fa fb i18
  | 0x04 => .imm .xor fa fb i18
  | 0x05 => .imm .shl fa fb i18
  | 0x06 => .imm .shr fa fb i18
  | 0x07 => .imm .sra fa fb i18
  | 0x08 => .lui fa i18
  | 0x0A => .ld fa fb wd sp i15
  | 0x0B => .st fa fb wd sp i15
  | 0x0C => .vld fa fb sp i15
  | 0x0D => .vst fa fb sp i15
  | 0x0E => .tld fa fb sp i15
  | 0x0F => .fence
  | 0x10 => .br .eq fa fb i18
  | 0x11 => .br .ne fa fb i18
  | 0x12 => .br .lt fa fb i18
  | 0x13 => .br .ge fa fb i18
  | 0x14 => .br .ltu fa fb i18
  | 0x15 => .br .geu fa fb i18
  | 0x16 => .jal fa i22
  | 0x17 => .jalr fa fb
  | 0x18 => .fin
  | 0x20 => .valu fn fa fb fc
  | 0x21 => .vred fn fa fb fc
  | 0x22 => .vlut fa fb
  | 0x23 => .vmovg fn fa fb
  | 0x28 => .eu .pset fn fa fb fc
  | 0x29 => .eu .enext fn fa fb fc
  | 0x2A => .eu .escore fn fa fb fc
  | 0x2B => .eu .eacc fn fa fb fc
  | 0x2C => .eu .epil fn fa fb fc
  | 0x2D => .eu .efilt fn fa fb fc
  | 0x2E => .eu .evis fn fa fb fc
  | 0x2F => .eu .elast fn fa fb fc
  | 0x30 => .eu .ethr fn fa fb fc
  | 0x31 => .eu .emit fn fa fb fc
  | 0x38 => .sttail fb fc
  | _ => .reserved

/-! ## Registers -/

/-- Read g0 to g15; g0 reads 0 (R231). -/
def Thread.gr (t : Thread) (n : Nat) : W64 := if n % 16 = 0 then 0 else t.g.getD (n % 16) 0

/-- Write g0 to g15; a write of g0 has no effect (R231). -/
def Thread.gw (t : Thread) (n : Nat) (x : W64) : Thread :=
  if n % 16 = 0 then t else { t with g := t.g.set (n % 16) x }

/-- A v register, named by the low three bits (R238). -/
def Thread.vr (t : Thread) (n : Nat) : BitVec 512 := t.v.getD (n % 8) 0

def Thread.vw (t : Thread) (n : Nat) (x : BitVec 512) : Thread := { t with v := t.v.set (n % 8) x }

/-! ## Functions -/

/-- Low 32 bits of a register. -/
def lo32 (x : W64) : W32 := x.setWidth 32

/-- Bits counted. -/
def popcount (x : Nat) : Nat → Nat
  | 0 => 0
  | n + 1 => popcount x n + b2n (x.testBit n)

/-- Minimum of two fp32 codes; a NaN operand gives the other one (R239 FMIN). -/
def f32Min (a b : W32) : W32 :=
  if f32IsNan a then b else if f32IsNan b then a else if f32Lt b a then b else a

/-- The ALU functions (R240); none for a reserved FN. -/
def aluFn (fn : Nat) (a b : W64) : Option W64 :=
  match fn with
  | 0x00 => some (a + b)
  | 0x01 => some (a - b)
  | 0x02 => some (a &&& b)
  | 0x03 => some (a ||| b)
  | 0x04 => some (a ^^^ b)
  | 0x05 => some (a <<< (b.toNat % 64))
  | 0x06 => some (a >>> (b.toNat % 64))
  | 0x07 => some (a.sshiftRight (b.toNat % 64))
  | 0x08 => some (a * b)
  | 0x09 => some (BitVec.ofNat 64 (b2n (a.slt b)))
  | 0x0A => some (BitVec.ofNat 64 (b2n (a.ult b)))
  | 0x0B => some (if b.slt a then b else a)
  | 0x0C => some (if a.slt b then b else a)
  | 0x0D => some (if b.ult a then b else a)
  | 0x0E => some (if a.ult b then b else a)
  | 0x0F => some (BitVec.ofNat 64 (b2n (a.toNat.testBit (b.toNat % 64))))
  | 0x10 => some ((f32Add (lo32 a) (lo32 b)).setWidth 64)
  | 0x11 => some ((f32Mul (lo32 a) (lo32 b)).setWidth 64)
  | 0x12 => some ((f32Min (lo32 a) (lo32 b)).setWidth 64)
  | 0x13 => some (BitVec.ofNat 64 (b2n (f32Lt (lo32 a) (lo32 b))))
  | 0x14 => some ((f32OfInt a.toInt).setWidth 64)
  | 0x15 => some (BitVec.ofInt 64 (clampInt (-(2 ^ 63)) (2 ^ 63 - 1) (roundInt (2 ^ 63) (f32 (lo32 a)))))
  | 0x16 => some (BitVec.ofNat 64 (popcount a.toNat 64))
  | _ => none

/-- The immediate operations (R238). -/
def immFn (op : ImmOp) (a : W64) (i : Int) : W64 :=
  let b : W64 := BitVec.ofInt 64 i
  match op with
  | .add => a + b
  | .and => a &&& b
  | .or => a ||| b
  | .xor => a ^^^ b
  | .shl => a <<< (b.toNat % 64)
  | .shr => a >>> (b.toNat % 64)
  | .sra => a.sshiftRight (b.toNat % 64)

/-- The branch conditions (R238). -/
def brFn (op : BrOp) (a b : W64) : Bool :=
  match op with
  | .eq => a == b
  | .ne => a != b
  | .lt => a.slt b
  | .ge => !a.slt b
  | .ltu => a.ult b
  | .geu => !a.ult b

/-- Byte lane `i` of a vector. -/
def vlane (x : BitVec 512) (i : Nat) : Byte := (x >>> (8 * i)).setWidth 8

/-- A vector from its 64 byte lanes. -/
def vpack (bs : List Byte) : BitVec 512 := BitVec.ofNat 512 (leNat bs)

/-- The 64 byte lanes of a vector. -/
def vbytes (x : BitVec 512) : List Byte := leBytes 64 x.toNat

/-- The VALU functions (R241 table); none for a reserved FN. -/
def valuFn (fn : Nat) (a b : BitVec 512) : Option (BitVec 512) :=
  let lanes := fun (f : Byte → Byte → Byte) => vpack (List.zipWith f (vbytes a) (vbytes b))
  match fn with
  | 0x00 => some (a ^^^ b)
  | 0x01 => some (a &&& b)
  | 0x02 => some (a ||| b)
  | 0x03 => some (lanes (· + ·))
  | 0x04 => some (lanes (· - ·))
  | 0x05 => some (lanes (fun x y => if y.slt x then y else x))
  | 0x06 => some (lanes (fun x y => if x.slt y then y else x))
  | 0x07 => some a
  | _ => none

/-- The VRED functions (R242); none for a reserved FN. -/
def vredFn (fn : Nat) (a b : BitVec 512) : Option Int :=
  let xs := vbytes a
  let ys := vbytes b
  match fn with
  | 0x00 => some (dotInt (xs.map i8) (ys.map i8))
  | 0x01 => some (dotInt ((List.range 128).map (codeElem 1 xs)) ((List.range 128).map (codeElem 1 ys)))
  | 0x02 => some (dotInt (xs.map i8) ((List.range 64).map (codeElem 7 ys)))
  | 0x03 => some (popcount (a ^^^ b).toNat 512)
  | 0x04 => some (popcount a.toNat 512)
  | 0x05 => some (sumInt (xs.map i8))
  | _ => none

/-! ## Accesses -/

/-- What a thread's instruction may know besides its own state: whether a loaded program runs, the thread's number,
the filters resident in the partition, and the lookup tables of sub-vectors 64 and above (R244). -/
structure IsaEnv where
  loaded : Bool
  w : Nat
  resident : List Nat
  tabs64 : Nat → Byte

/-- The result of one instruction: the thread, the port, a trap, the end of the program, and full survivor blocks. -/
structure NOut where
  th : Thread
  bank : Bank
  trap : Option Trap := none
  ended : Bool := false
  sent : List (List (W32 × Nat)) := []

/-- An access resolved (R235, R241): the address, or the trap of a loaded program. Firmware takes the low bits as 0
and wraps. DESIGN CHOICE, log 38. -/
def resolve (env : IsaEnv) (b : Bank) (loc wr : Bool) (n : Nat) (ea : W64) : Except Trap Nat :=
  let a := ea.toNat
  if env.loaded then
    let ok := if loc then (if wr then b.mayWrite env.w a n else b.mayRead env.w a n) else decide (a + n ≤ 0x4000)
    if !ok then .error .range else if a % n ≠ 0 && n < 4096 then .error .align
    else if n ≥ 4096 && a % 64 ≠ 0 then .error .align else .ok a
  else
    let g := min n 64
    .ok (if loc then b.loc (a / g * g) else (a / g * g) % 0x4000)

/-- The effective address of an M-format instruction (R238). -/
def effAddr (t : Thread) (fb : Nat) (i : Int) : W64 := t.gr fb + BitVec.ofInt 64 i

/-- The bytes of the scratch area, addresses taken modulo 16 KiB (R235). -/
def Thread.scr (t : Thread) (a n : Nat) : List Byte := (List.range n).map (fun i => t.scratch.read ((a + i) % 0x4000))

/-- Advance past an instruction. -/
def Thread.adv (t : Thread) : Thread := { t with pc := t.pc + 4 }

/-- A plain result: the thread advanced. -/
def nOk (t : Thread) (b : Bank) : NOut := { th := t.adv, bank := b }

/-- A trap: the thread stops at the instruction (R258). -/
def nTrap (t : Thread) (b : Bank) (k : Trap) : NOut := { th := t, bank := b, trap := some k }

/-- A load of `n` bytes from either space. -/
def nLoad (t : Thread) (b : Bank) (loc : Bool) (a n : Nat) : List Byte × Bank :=
  if loc then b.read 0 a n else (t.scr a n, b)

/-- A reserved encoding: ILLEGAL in a loaded program (R239); a firmware kernel holds none and passes over it. -/
def nReserved (env : IsaEnv) (t : Thread) (b : Bank) : NOut :=
  if env.loaded then nTrap t b .illegal else nOk t b

/-! ## The entry-unit instructions -/

/-- y and s packed as by ESCORE (R248). -/
def packScore (y s : W32) : W64 := s ++ y

/-- The scoring environment of a thread: the operand in scratch, its query format and tables. -/
def scoreEnv (env : IsaEnv) (t : Thread) (r : NbuReq) : ScoreEnv :=
  { req := r, query := t.scr 0 (min ((t.gr 7).toNat) 0x4000), qfmt := t.eu.qfmt,
    tabs := fun i => if i < 16384 then t.tabs.read i else env.tabs64 i, resident := env.resident }

/-- The search of ENEXT (R248): the entry found with y and s, or none; entries tested. DEDUCED, log 144. -/
def enextLoop (e : ScoreEnv) (h : PieceHdr) (lth : W32) :
    Nat → Nat → Bank → Option (Nat × W32 × W32) × Nat × Bank
  | 0, _, b => (none, 0, b)
  | k + 1, n, b =>
    if b.ue || b.deny then (none, 0, b)
    else
      let (pass, y, s, b1) := b.testEntry e h lth n
      if pass then (some (n, y, s), 1, b1)
      else
        let (r, c, b2) := enextLoop e h lth k (n + 1) b1
        (r, c + 1, b2)

/-- A context for a thread that has executed no PSET: a piece that holds nothing. -/
def PieceHdr.none : PieceHdr := ⟨8192, 0, 0, 0, 0, 0, 0, 0, 0xFFFFFFFF, 0⟩

/-- Send a survivor entry (R251): full blocks of 32 leave. -/
def emitEntry (t : Thread) (b : Bank) (n : Nat) (y : W32) (ord smax : Nat) : NOut :=
  if t.sent + t.block.length ≥ smax then nOk { t with lastEmit := some n } b
  else
    let blk := t.block ++ [(y, ord)]
    if blk.length = 32 then
      { nOk { t with block := [], sent := t.sent + 32, lastEmit := some n } b with sent := [blk] }
    else nOk { t with block := blk, lastEmit := some n } b

/-- One entry-unit instruction (R245, R248, R251). DEDUCED, log 144. DESIGN CHOICE, log 146. -/
def euExec (env : IsaEnv) (op : EuOp) (fn fa fb fc : Nat) (r : NbuReq) (t : Thread) (b : Bank) : NOut :=
  let h := t.eu.hdr.getD PieceHdr.none
  let n := (t.gr fb).toNat
  let e := scoreEnv env t r
  let past := env.loaded && decide (n ≥ t.eu.bound)
  let named := fun (k : Unit → NOut) => if past then nTrap t b .range else k ()
  match op with
  | .pset =>
    let a := (t.gr fb).toNat / 64 * 64
    let (h', b1) := b.hdr a
    let t1 := { t with
      eu := { t.eu with
        hdr := some h', qfmt := queryFmt fn h'.codeb h'.sfmt (t.gr 7).toNat, bound := h'.tail, lth := f32PosInf },
      tailRead := h'.tail }
    nOk (t1.gw fa (BitVec.ofNat 64 h'.tail)) b1
  | .enext =>
    match enextLoop e h t.eu.lth (t.eu.bound - n) n b with
    | (some (m, y, s), c, b1) =>
      let t1 := { t with scanned := t.scanned + c, eu := { t.eu with last := packScore y s } }
      nOk (t1.gw fa (BitVec.ofNat 64 m)) b1
    | (none, c, b1) => nOk ({ t with scanned := t.scanned + c }.gw fa (BitVec.ofNat 64 t.eu.bound)) b1
  | .escore =>
    named (fun _ =>
      let (y, s, b1) := b.score e h n
      nOk ({ t with scanned := t.scanned + 1 }.gw fa (packScore y s)) b1)
  | .eacc =>
    named (fun _ =>
      let (code, b1) := b.read 1 (h.codes + n * h.codeb) h.codeb
      let lo := (t.gr fc).toNat
      let acc : Int :=
        if h.sfmt = 8 then
          sumInt ((List.range 64).map (fun i =>
            if lo + i < h.codeb then ((t.tabs.read (256 * i + (code.getD (lo + i) 0#8).toNat)).toNat : Int) else 0))
        else (accumulate e h code).1
      nOk ({ t with scanned := t.scanned + 1 }.gw fa (BitVec.ofInt 64 acc)) b1)
  | .epil =>
    let m := (t.gr fc).toNat
    if env.loaded && decide (m ≥ t.eu.bound) then nTrap t b .range
    else
      let (sc, b1) := b.scaleEntry h r.hamm m
      let y := entryScore e h (t.gr fb).toInt 0 0 sc
      nOk (t.gw fa (packScore y (scoreOrder r.neg y))) b1
  | .efilt =>
    named (fun _ =>
      let (ok, b1) := b.filterTest h env.resident r.fcomb n r.filt false false
      nOk (t.gw fa (BitVec.ofNat 64 (b2n ok))) b1)
  | .evis =>
    named (fun _ =>
      let (rc, b1) := b.record h n
      nOk (t.gw fa (BitVec.ofNat 64 (b2n (visible (recBirth rc) (recDeath rc) r.repoch)))) b1)
  | .elast => nOk (t.gw fa t.eu.last) b
  | .ethr => nOk { t with eu := { t.eu with lth := threshOf (lo32 (t.gr fb)) } } b
  | .emit =>
    if past then nTrap t b .range
    else if env.loaded && (match t.lastEmit with | some p => decide (n ≤ p) | none => false) then nTrap t b .order
    else emitEntry t b n (lo32 (t.gr fc)) (ordOf h n) r.smax

/-! ## One instruction -/

/-- The effect of one instruction on a thread that runs request `r` (R238 to R256). -/
def nExec (env : IsaEnv) (i : NInstr) (r : NbuReq) (t : Thread) (b : Bank) : NOut :=
  match i with
  | .alu fn fa fb fc =>
    match aluFn fn (t.gr fb) (t.gr fc) with
    | some x => nOk (t.gw fa x) b
    | none => nReserved env t b
  | .imm op fa fb i => nOk (t.gw fa (immFn op (t.gr fb) i)) b
  | .lui fa i => nOk (t.gw fa (BitVec.ofInt 64 i <<< 17)) b
  | .ld fa fb w loc i =>
    match resolve env b loc false w (effAddr t fb i) with
    | .error k => nTrap t b k
    | .ok a =>
      let (bs, b1) := nLoad t b loc a w
      nOk (t.gw fa (BitVec.ofNat 64 (leNat bs))) b1
  | .st fa fb w loc i =>
    match resolve env b loc true w (effAddr t fb i) with
    | .error k => nTrap t b k
    | .ok a =>
      let bs := leBytes w (t.gr fa).toNat
      if loc then nOk t (b.write a bs) else nOk { t with scratch := t.scratch.writeN a bs } b
  | .vld fa fb loc i =>
    match resolve env b loc false 64 (effAddr t fb (64 * i)) with
    | .error k => nTrap t b k
    | .ok a =>
      let (bs, b1) := nLoad t b loc a 64
      nOk (t.vw fa (vpack bs)) b1
  | .vst fa fb loc i =>
    match resolve env b loc true 64 (effAddr t fb (64 * i)) with
    | .error k => nTrap t b k
    | .ok a =>
      let bs := vbytes (t.vr fa)
      if loc then nOk t (b.write a bs) else nOk { t with scratch := t.scratch.writeN a bs } b
  | .tld fa fb loc i =>
    match resolve env b loc false 4096 (effAddr t fb (64 * i)) with
    | .error k => nTrap t b k
    | .ok a =>
      let (bs, b1) := nLoad t b loc a 4096
      nOk { t with tabs := t.tabs.writeN (4096 * (fa % 4)) bs } b1
  | .fence => nOk t b
  | .br op fa fb i =>
    if brFn op (t.gr fa) (t.gr fb) then { th := { t with pc := (((t.pc : Int) + 4 * i) % (2 ^ 32)).toNat }, bank := b }
    else nOk t b
  | .jal fa i =>
    let t1 := t.gw fa (BitVec.ofNat 64 (t.pc + 4))
    { th := { t1 with pc := (((t.pc : Int) + 4 * i) % (2 ^ 32)).toNat }, bank := b }
  | .jalr fa fb =>
    let target := (t.gr fb).toNat
    let t1 := t.gw fa (BitVec.ofNat 64 (t.pc + 4))
    { th := { t1 with pc := target }, bank := b }
  | .fin =>
    let t1 := { t with sent := t.sent + t.block.length, block := [] }
    { th := t1, bank := b, ended := true, sent := if t.block.isEmpty then [] else [t.block] }
  | .valu fn fa fb fc =>
    match valuFn fn (t.vr fb) (t.vr fc) with
    | some x => nOk (t.vw fa x) b
    | none => nReserved env t b
  | .vred fn fa fb fc =>
    match vredFn fn (t.vr fb) (t.vr fc) with
    | some x => nOk (t.gw fa (BitVec.ofInt 64 x)) b
    | none => nReserved env t b
  | .vlut fa fb =>
    let acc := ((List.range 64).map (fun i => (t.tabs.read (256 * i + (vlane (t.vr fb) i).toNat)).toNat)).foldl (· + ·) 0
    nOk (t.gw fa (BitVec.ofNat 64 acc)) b
  | .vmovg fn fa fb =>
    if fn < 8 then nOk (t.gw fa (((t.vr fb) >>> (64 * fn)).setWidth 64)) b
    else if fn < 16 then
      nOk (t.vw fa (vpack (overlay (vbytes (t.vr fa)) (8 * (fn - 8)) (leBytes 8 (t.gr fb).toNat)))) b
    else if fn = 16 then
      nOk (t.vw fa (vpack ((List.replicate 8 (leBytes 8 (t.gr fb).toNat)).flatten))) b
    else nReserved env t b
  | .eu op fn fa fb fc =>
    let o := euExec env op fn fa fb fc r t b
    if o.bank.deny then nTrap { t with scanned := o.th.scanned } { o.bank with deny := false } .range else o
  | .sttail fb fc =>
    if env.loaded then nTrap t b .illegal
    else nOk t (b.writeTail ((t.gr fb).toNat / 64 * 64) (lo32 (t.gr fc)).toNat)
  | .reserved => nReserved env t b

/-- One instruction issued: a loaded program that has issued 4,194,304 traps with LIMIT (R257). ENEXT goes on from the units that
the one before it fetched (R250). -/
def nIssue (env : IsaEnv) (i : NInstr) (r : NbuReq) (t : Thread) (b : Bank) : NOut :=
  if env.loaded && decide (t.issued ≥ 4194304) then nTrap t b .limit
  else
    let next := match i with | .eu .enext _ _ _ _ => true | _ => false
    let o := nExec env i r { t with issued := t.issued + 1 } (if next then { b with seen := t.seen } else b)
    { o with th := { o.th with
        bytes := o.th.bytes + (o.bank.bytes - b.bytes), fetched := o.th.fetched + (o.bank.fetched - b.fetched),
        seen := if next then o.bank.seen else match i with | .eu .pset _ _ _ _ => [] | _ => o.th.seen } }

/-- Fetch and issue one instruction of a loaded program (R241, R252): a fetch outside 0x3000 to 0x3FFF traps.
DEDUCED, log 145. -/
def nFetchIssue (env : IsaEnv) (img : NbuImage) (r : NbuReq) (t : Thread) (b : Bank) : NOut :=
  if t.pc % 4 ≠ 0 || t.pc < 0x3000 || t.pc ≥ 0x4000 then nTrap t b .range
  else nIssue env (nDecode (img.words.getD ((t.pc - 0x3000) / 4) 0#32).toNat) r t b

/-- The operand as QLEN units of 32 bytes, at most 0x200 (R214). -/
def NbuReq.units (r : NbuReq) : List Byte := (padTo (ceilDiv r.operand.length 32 * 32) r.operand).take 16384

/-- The thread's state when it takes a request (R232 to R234, R253, R294). -/
def Thread.enter (t : Thread) (r : NbuReq) (w : Nat) (size data : Nat) (prog : Option Nat) (resident : List Nat) (pq8 : Bool) : Thread :=
  let op := r.units
  let g := [0, r.piece, r.thresh.toNat, r.smax, r.repoch, r.arg0, r.arg1, op.length, w, data + 0x40000 * w,
    size, 0, 0, 0, 0, 0].map (BitVec.ofNat 64)
  { t with
    req := some { r with operand := op }, pc := match prog with | some o => 0x3000 + o | none => 0, g := g, v := List.replicate 8 0#512,
    tabs := if pq8 then Mem.writeN [] 0 op else [],
    scratch := if pq8 then t.scratch else t.scratch.writeN 0 op,
    eu := { hdr := none, qfmt := 3, bound := 0, lth := f32PosInf, last := 0 },
    block := [], sent := 0, lastEmit := none, scanned := 0, bytes := 0, issued := 0, tailRead := 0, cancel := none,
    fetched := 0, seen := [], prog := prog, resident := resident }

end Sys2Proof.Machine
end

