-- ==== Sys2Proof/Machine/StateSched.lean ====
section
/-!
DEFINITION. Sys2Proof/Machine/StateSched.lean: the state of the Almanac and of the schedulers (chapters 14 and 15).
-/
namespace Sys2Proof.Machine

/-- KIND of an Almanac entry (R429 table). -/
inductive QKind where
  | qsub | isub | comp | frecv
  deriving DecidableEq, Repr

/-- STATE of an Almanac entry. -/
inductive QState where
  | free | enabled | paused | draining | error
  deriving DecidableEq, Repr

/-- A job whose descriptor has been fetched and that is not yet dispatched (R94, R298): its slot, slot count, the
dimension fixed at ENTRY, the descriptor, the trailing data, and whether an abort took it (R125). `records` lists, for a
batch, the slot offset of each record. -/
structure Fetched where
  slot : Nat
  slots : Nat
  dim : Nat
  desc : List Byte
  data : List Byte
  records : List Nat
  aborted : Bool
  deriving DecidableEq, Repr

/-- An Almanac entry (R429 to R431 tables). -/
structure AlmEntry where
  kind : QKind
  state : QState
  /-- LOC: true, the ring lies in the index address space. -/
  ias : Bool
  /-- FUNC: true, the physical function. -/
  pf : Bool
  rszlog : Nat
  ien : Bool
  msix : Nat
  gen : Nat
  base : Nat
  pidx : Nat
  cidx : Nat
  cq : Nat
  pd : Nat
  act : Nat
  gate : Nat
  maxout : Nat
  outst : Nat
  quantum : Nat
  /-- DEFICIT, a 32-bit two's complement field. -/
  deficit : Int
  shaper : Nat
  /-- ELIG in full; the entry shows it modulo 2^32 (R429 table, R469). -/
  elig : Nat
  onlist : Bool
  onwheel : Bool
  rbbase : Nat
  rbszlog : Nat
  rbclog : Nat
  cphase : Bool
  rbnext : Nat
  rbheld : Nat
  /-- buffers reserved by the placement in progress (R441, R444), and the number of its job, 0 for none. -/
  resv : Nat
  resvJob : Nat
  conn : Nat
  rkey : Nat
  raddr : Nat
  /-- jobs fetched and not yet dispatched, oldest first. -/
  fetched : List Fetched
  deriving DecidableEq, Repr

/-- An entry of zeros (R430 table, Reset column): FREE with GEN 0. -/
def AlmEntry.zero : AlmEntry :=
  { kind := .qsub, state := .free, ias := false, pf := false, rszlog := 0, ien := false, msix := 0, gen := 0, base := 0,
    pidx := 0, cidx := 0, cq := 0, pd := 0, act := 0, gate := 0, maxout := 0, outst := 0, quantum := 0, deficit := 0,
    shaper := 0, elig := 0, onlist := false, onwheel := false, rbbase := 0, rbszlog := 0, rbclog := 0, cphase := false,
    rbnext := 0, rbheld := 0, resv := 0, resvJob := 0, conn := 0, rkey := 0, raddr := 0, fetched := [] }

/-- A shaper (R467): RATE, BURST, TOKENS and LAST. -/
structure Shaper where
  rate : Nat
  burst : Nat
  tokens : Int
  last : Nat
  deriving DecidableEq, Repr

def Shaper.zero : Shaper := ⟨0, 0, 0, 0⟩

/-- A transit window (R472). -/
structure TWindow where
  len : Nat
  gates : Nat
  maint : Nat
  deriving DecidableEq, Repr

/-- A transit list (R472). `wrote` is the counter value at which TRN_WRITE put it there (R474). -/
structure TList where
  t : Nat
  wins : List TWindow
  wrote : Nat
  deriving DecidableEq, Repr

/-- A watch budget with its use, debt age, and a value that waits for the next counter value (R476 to R479). -/
structure Budget where
  value : Nat
  /-- a BUD_SET not yet in force: the value and the counter value at which it was applied (R478). -/
  next : Option (Nat × Nat)
  use : Nat
  age : Nat
  deriving DecidableEq, Repr

/-- A budget after reset (R484): unlimited. -/
def Budget.reset : Budget := ⟨0xFFFFFFFF, none, 0, 0⟩

/-- The four estimates of an index handle (R461): Survey, Zenith, Finder, and one ingest record. -/
structure Estimates where
  survey : Nat
  zenith : Nat
  finder : Nat
  record : Nat
  deriving DecidableEq, Repr

def Estimates.load : Estimates := ⟨4096, 4096, 4096, 16⟩

/-- The scheduler of a partition (R459 to R484). Budgets are numbered 5 * activity + resource. -/
structure Sched where
  active : List Nat
  /-- calendar wheel slots (R470), in order of joining. -/
  wheel : Tbl (List Nat)
  buckets : Tbl (List Nat)
  shapers : Tbl Shaper
  current : TList
  pending : List TList
  /-- index of the window last processed, and the counter value of that (R473). -/
  window : Nat
  budgets : List Budget
  ests : Tbl Estimates
  finder : BitVec 32
  forgive : BitVec 32
  deriving DecidableEq, Repr

/-- The scheduler after reset (R484). -/
def Sched.reset : Sched :=
  { active := [], wheel := [], buckets := [], shapers := [], current := ⟨0, [], 0⟩,
    pending := [], window := 0, budgets := List.replicate 45 Budget.reset, ests := [], finder := 0, forgive := 0 }

/-- The Almanac of a partition (R429 to R456). -/
structure Almanac where
  entries : Tbl AlmEntry
  /-- entries cached, most recently used first (R452). -/
  cache : List Nat
  dbdrop : BitVec 32
  orphan : BitVec 32
  miss : BitVec 32
  /-- aborts that wait for an unfetched slot (R125, R127): queue, slot, TAG. -/
  aborts : List (Nat × Nat × Nat)
  /-- function level resets of the VF and of the PF recorded while the partition was fenced (R454). -/
  flrVf : Bool
  flrPf : Bool
  /-- the doorbell queue (R440): queue, INDEX, and what a consumer doorbell reads in host memory, in order of arrival. -/
  bells : List (Nat × Nat × Option (List Byte))
  deriving DecidableEq, Repr

/-- The Almanac after reset (R456, R133). -/
def Almanac.reset : Almanac :=
  { entries := [], cache := [], dbdrop := 0, orphan := 0, miss := 0, aborts := [], flrVf := false, flrPf := false, bells := [] }

end Sys2Proof.Machine
end

