-- ==== Sys2Proof/Machine/SchedOps.lean ====
section
/-!
DEFINITION. Sys2Proof/Machine/SchedOps.lean: rings, shapers, the wheel, transit lists and watch budgets as operations on
their own state (chapters 14 and 15).
-/
namespace Sys2Proof.Machine

/-! ## Rings (R433 to R436, R441 to R444) -/

/-- Ring size in slots. -/
def AlmEntry.size (e : AlmEntry) : Nat := 32 * 2 ^ min e.rszlog 11

/-- Occupied slots (R433). -/
def AlmEntry.occupied (e : AlmEntry) : Nat := (e.pidx + e.size - e.cidx % e.size) % e.size

/-- Slots that the fetched jobs cover. -/
def AlmEntry.fetchedSlots (e : AlmEntry) : Nat := (e.fetched.map (·.slots)).foldl (· + ·) 0

/-- The slot of the next descriptor to fetch. -/
def AlmEntry.nextSlot (e : AlmEntry) : Nat := (e.cidx + e.fetchedSlots) % e.size

/-- Bytes of one ring slot (R429 table). -/
def AlmEntry.slotBytes (e : AlmEntry) : Nat := if e.kind = .comp then 64 else 128

/-- Address of a ring slot: BASE with its low 12 bits as 0. -/
def AlmEntry.slotAddr (e : AlmEntry) (n : Nat) : Nat := e.base / 4096 * 4096 + e.slotBytes * (n % e.size)

/-- RB_SIZE and RB_COUNT (R441). -/
def AlmEntry.rbSize (e : AlmEntry) : Nat := 4096 * 2 ^ min e.rbszlog 8
def AlmEntry.rbCount (e : AlmEntry) : Nat := 64 * 2 ^ min e.rbclog 10

/-- Free slots of a completion ring (R433, R436). -/
def AlmEntry.freeSlots (e : AlmEntry) : Nat := e.size - 1 - e.occupied

/-- A completion entry has been written at PIDX (R436). -/
def AlmEntry.advP (e : AlmEntry) : AlmEntry :=
  let p := (e.pidx + 1) % e.size
  { e with pidx := p, cphase := if p = 0 then !e.cphase else e.cphase }

/-- The recomputation of RBHELD by a consumer doorbell (R444). -/
def rbHeldOf (rbnext rbcount rbFirst rbUsed : Nat) : Nat :=
  let held := (rbnext + rbcount - rbFirst % rbcount) % rbcount
  if held = 0 && rbUsed > 0 then rbcount else held

/-- Is the queue's OUTST below MAXOUT (R435)? -/
def AlmEntry.underMax (e : AlmEntry) : Bool := e.maxout = 0 || decide (e.outst < e.maxout)

/-- A queue that dispatches jobs. -/
def AlmEntry.isSub (e : AlmEntry) : Bool := e.kind != .comp

/-- Readiness (R463): the next job has been fetched, so every slot of it is occupied. -/
def AlmEntry.ready (e : AlmEntry) : Bool :=
  e.state = .enabled && e.isSub && !e.fetched.isEmpty && e.underMax && !e.onwheel

/-- The decoded quantum. -/
def AlmEntry.quant (e : AlmEntry) : Nat := max e.quantum 1

/-- The activity of a queue's jobs: reserved codes decode as the kind's own (R429 table). -/
def AlmEntry.activity (e : AlmEntry) : Nat :=
  if e.act ≤ 1 then e.act else if e.kind = .isub then 1 else 0

/-- Saturation of DEFICIT (32 bits) and TOKENS (64 bits). -/
def clampI (n : Nat) (x : Int) : Int :=
  if x > 2 ^ (n - 1) - 1 then 2 ^ (n - 1) - 1 else if x < -(2 ^ (n - 1)) then -(2 ^ (n - 1)) else x

/-! ## Shapers and the wheel (R467 to R471) -/

/-- The decoded cap, 256 * BURST. -/
def Shaper.cap (s : Shaper) : Int := 256 * (max s.burst 1 : Nat)

/-- A refill at Meridian microsecond `t` (R468). -/
def Shaper.refill (s : Shaper) (t : Nat) : Shaper :=
  if s.tokens < s.cap then
    { s with tokens := min s.cap (s.tokens + ((t - s.last) * s.rate : Nat)), last := t }
  else { s with last := t }

/-- SHP_SET (R471). -/
def Shaper.set (s : Shaper) (rate burst t : Nat) : Shaper :=
  let s1 := s.refill t
  let s2 : Shaper := { s1 with rate := rate, burst := burst }
  { s2 with tokens := min s2.tokens s2.cap, last := t }

/-- ELIG of a queue put on the wheel (R469), as a full microsecond number. -/
def eligAt (s : Shaper) (t : Nat) : Nat :=
  if s.rate = 0 then t + 4194304
  else
    let d := (-s.tokens).toNat / s.rate + 1
    if d > 4194304 then t + 4194304 else t + d

/-- Join the wheel or its overflow level (R470). -/
def Sched.join (s : Sched) (q elig t : Nat) : Sched :=
  if elig - t < 4096 then
    { s with wheel := s.wheel.set (elig % 4096) (s.wheel.getD (elig % 4096) [] ++ [q]) }
  else
    let b := elig / 4096 % 1024
    { s with buckets := s.buckets.set b (s.buckets.getD b [] ++ [q]) }

/-- A shaper of the partition; an unset one reads zeros (R484). -/
def Sched.shaper (s : Sched) (n : Nat) : Shaper := s.shapers.getD n Shaper.zero

/-! ## Transit lists (R472 to R475) -/

/-- The decoded length of a window. -/
def TWindow.dur (w : TWindow) : Nat := max w.len 1

/-- The period of a list, in us. -/
def TList.period (l : TList) : Nat := (l.wins.map TWindow.dur).foldl (· + ·) 0

/-- The window that covers microsecond `x` of the period (R473). -/
def winAt : List TWindow → Nat → Nat → Nat
  | [], _, i => i
  | w :: ws, x, i => if x < w.dur then i else winAt ws (x - w.dur) (i + 1)

/-- The index of the window current at a counter value; 0 before T. -/
def TList.windowAt (l : TList) (v : Nat) : Nat :=
  if l.wins.isEmpty || v < l.t then 0 else winAt l.wins ((v - l.t) / 1000 % l.period) 0

/-- Is a gate class open in the window last processed (R472)? -/
def Sched.gateOpen (s : Sched) (g : Nat) : Bool :=
  match s.current.wins[s.window]? with
  | some w => bitOf w.gates g
  | none => true

/-- May a maintenance activity start steps (R472, R475)? MANAGEMENT is never closed. -/
def Sched.maintOpen (s : Sched) (act : Nat) : Bool :=
  if act < 2 || act > 7 then true
  else match s.current.wins[s.window]? with
    | some w => bitOf w.maint (act - 2)
    | none => true

/-- The lists due at a counter value (R474): T reached, and not written in this same value. DEDUCED, log 47. -/
def Sched.due (s : Sched) (now : Nat) : List TList :=
  s.pending.filter (fun l => decide (l.t ≤ now) && decide (l.wrote < now))

/-- The due list with the latest T. -/
def latestList : List TList → Option TList
  | [] => none
  | l :: ls => match latestList ls with
    | none => some l
    | some m => if l.t > m.t then some l else some m

/-- A takeover (R474): the latest due list takes effect, the others due are discarded. -/
def Sched.takeover (s : Sched) (now : Nat) : Sched :=
  match latestList (s.due now) with
  | none => s
  | some l =>
    { s with current := l, window := l.windowAt now,
             pending := s.pending.filter (fun m => !(decide (m.t ≤ now) && decide (m.wrote < now))) }

/-- TRN_WRITE on one partition (R474): none when it would make a fifth pending list. -/
def Sched.writeList (s : Sched) (l : TList) : Option Sched :=
  if s.pending.any (fun m => m.t == l.t) then
    some { s with pending := s.pending.map (fun m => if m.t = l.t then l else m) }
  else if s.pending.length ≥ 4 then none
  else some { s with pending := s.pending ++ [l] }

/-! ## Watch budgets (R476 to R480) -/

/-- The budget unit of a resource (R459). -/
def budgetUnit (res : Nat) : Nat := if res = 1 then 1000 else if res = 3 then 1 else 4096

/-- A BUD_SET in force from the counter value after its own (R478). -/
def Budget.settle (b : Budget) (now : Nat) : Budget :=
  match b.next with
  | some (v, at_) => if now > at_ then { b with value := v, next := none } else b
  | none => b

/-- Is a budget short (R477)? -/
def Budget.short (b : Budget) (now res : Nat) : Bool :=
  let v := (b.settle now).value
  v != 0xFFFFFFFF && decide (b.use ≥ v * budgetUnit res)

/-- One watch end on one budget (R479), `s + 1` times; the second part counts forgiveness. -/
def watchLoop (v unit : Nat) : Nat → Nat × Nat → Nat → (Nat × Nat) × Nat
  | 0, ua, f => (ua, f)
  | n + 1, (use, age), f =>
    if v = 0xFFFFFFFF || use ≤ v * unit then watchLoop v unit n (0, 0) f
    else if age = 4 then watchLoop v unit n (0, 0) (f + 1)
    else watchLoop v unit n (use - v * unit, age + 1) f

/-- The watch end of one budget (R479). Once use is 0 the further watches change nothing, so six loops serve any
number of skipped watches. -/
def Budget.watchEnd (b : Budget) (now skipped res : Nat) : Budget × Nat :=
  let b := b.settle now
  let r := watchLoop b.value (budgetUnit res) (min (skipped + 1) 6) (b.use, b.age) 0
  ({ b with use := r.1.1, age := r.1.2 }, r.2)

/-- The watch end of a partition's scheduler (R479). -/
def Sched.watchEnd (s : Sched) (now skipped : Nat) : Sched :=
  let rs := s.budgets.mapIdx (fun i b => b.watchEnd now skipped (i % 5))
  { s with budgets := rs.map Prod.fst, forgive := satAdd s.forgive ((rs.map Prod.snd).foldl (· + ·) 0) }

/-- Is an activity short in a resource (R477)? -/
def Sched.shortIn (s : Sched) (now act res : Nat) : Bool :=
  ((s.budgets[5 * act + res]?).map (fun b => b.short now res)).getD false

/-- Is an activity short in any resource (R482)? -/
def Sched.short (s : Sched) (now act : Nat) : Bool := (List.range 5).any (fun r => s.shortIn now act r)

/-- SCH_SHORTk (R482). -/
def Sched.shortReg (s : Sched) (now : Nat) : Nat :=
  ((List.range 9).map (fun a => b2n (s.short now a) * 2 ^ a)).foldl (· + ·) 0

/-- Count use of a resource against an activity, in a saturating 48-bit counter (R459). -/
def Sched.charge (s : Sched) (act res n : Nat) : Sched :=
  { s with budgets := modNth s.budgets (5 * act + res) (fun b => { b with use := min (b.use + n) (2 ^ 48 - 1) }) }

/-- BUD_SET on one budget (R478). -/
def Sched.setBudget (s : Sched) (act res v now : Nat) : Sched :=
  { s with budgets := modNth s.budgets (5 * act + res) (fun b => { b.settle now with next := some (v, now) }) }

/-- The estimates of an index handle (R461). -/
def Sched.est (s : Sched) (h : Nat) : Estimates := s.ests.getD h Estimates.load

/-- EST + ((x - EST) asr 4), at least 1 (R462). -/
def estUpdate (est x : Nat) : Nat := (max 1 ((est : Int) + ((x : Int) - est) / 16)).toNat

end Sys2Proof.Machine
end

