-- ==== Sys2Proof/Machine/StateCore.lean ====
section
/-!
DEFINITION. Sys2Proof/Machine/StateCore.lean: the state of a search core: contexts, vector slots, tiles, the selection
unit and custom kernels (chapters 04 and 08).
-/
namespace Sys2Proof.Machine

/-- A hardware context (R134, R136): s0 to s31 and a program counter; `traps` while it runs a custom kernel. -/
structure CoreCtx where
  s : List W64
  pc : Nat
  /-- handles of the tiles it has issued and that may still run (MDRAIN). -/
  issued : List Nat
  /-- the NBU request it sent last: partition, pseudo-channel, order (R220). -/
  sent : Option (Nat × Nat × Nat)
  deriving DecidableEq, Repr

/-- A context when it starts (R136). -/
def CoreCtx.start : CoreCtx := { s := List.replicate 32 0#64, pc := 0, issued := [], sent := none }

/-- A vector slot held by a context (R137): q0 to q31 of 1,024 bits and m0 to m7, one bit for each of up to 256 lanes. -/
structure VSlot where
  ctx : Nat
  q : List (BitVec 1024)
  m : List (BitVec 256)
  deriving DecidableEq, Repr

/-- A newly acquired slot (R137). -/
def VSlot.fresh (ctx : Nat) : VSlot := { ctx := ctx, q := List.replicate 32 0, m := List.replicate 8 0 }

/-- Where CBIAS comes from (CBSRC). -/
inductive CbSrc where
  | none
  | vals (v : List W32)
  | norm
  deriving DecidableEq, Repr

/-- Where a tile's outputs go besides selection: raw or epilogue outputs of 4 bytes in plate memory. -/
structure PlateOut where
  addr : Nat
  stride : Nat
  deriving DecidableEq, Repr

/-- What a stage program does with a tile's outputs when DEST is neither plate nor a selection request: the layer of a
re-scoring network (R165). -/
inductive TileUse where
  | plain
  | layer (job : Nat) (layer : Nat)
  deriving DecidableEq, Repr

/-- A tile in the queue (R151 to R160), its operands as the core reads them. -/
structure Tile where
  handle : Nat
  cls : Nat
  d : Nat
  afmt : Nat
  bfmt : Nat
  /-- 0 RAW, 1 AFFINE, 2 RELU. -/
  epi : Nat
  arows : List (List Byte)
  brows : List (List Byte)
  /-- QSCL, QOFF, QBIAS of each row. -/
  rowc : List (W32 × W32 × W32)
  /-- CSCL, COFF of each column. -/
  colc : List (W32 × W32)
  cb : CbSrc
  /-- the id of each column, and its partition where a stage program sends it. -/
  ids : List (Nat × Nat)
  /-- selection request of each row; empty when DEST is PLATE. -/
  sel : List Nat
  out : Option PlateOut
  use : TileUse
  /-- the job of each row, 0 once that job has left the tile (R109); for charging and faults (R162, R169). A tile of a
  custom kernel lists its one job. -/
  jobs : List Nat
  /-- issued by a custom kernel: (partition, ordinal) of the candidates of its group. -/
  kernel : Option (List (Nat × Nat))
  /-- the next pass to run (R151). -/
  next : Nat
  /-- outputs of a layer so far: (row, column, value). -/
  acc : List (Nat × Nat × W32)
  deriving DecidableEq, Repr

/-- STATE of a selection request (R264). -/
inductive SelState where
  | idle | opened | closing | done
  deriving DecidableEq, Repr

/-- An entry held by a selection request: canonical score, partition, id and position (R260, R261). -/
structure SelEnt where
  score : W32
  part : Nat
  id : Nat
  pos : Nat
  deriving DecidableEq, Repr

/-- The stage of a job that a request serves (R276); `user` for a request that a program opened. -/
inductive SelUse where
  | user
  | choice | merge | rerank | rescore | assign | enter
  deriving DecidableEq, Repr

/-- A selection request (R264): the fields it read at OPEN, and what it holds. -/
structure SelReq where
  state : SelState
  compact : Bool
  neg : Bool
  cls : Nat
  fwd : Bool
  idmapEn : Bool
  defPart : Nat
  k : Nat
  thresh : W32
  list : Nat
  out : Nat
  idmap : Nat
  fcore : Nat
  freq : Nat
  entries : List SelEnt
  /-- the collect bound of R271. -/
  bound : Option SelEnt
  delivered : Nat
  dropped : Nat
  nancnt : Nat
  /-- exact sum of the scores left out so far, in units of 2^-149 (R275). -/
  outX : Int
  arrivals : Nat
  /-- in CLOSING: blocks of it that came before CLOSE and still wait, and commands that wait behind CLOSE (R265). -/
  owed : Nat
  cmds : Nat
  boundReg : W32
  passes : Nat
  runs : Nat
  late : Nat
  count : Nat
  sumSel : W32
  sumOut : W32
  /-- the output of a CLOSE, best first. -/
  result : List SelEnt
  job : Nat
  use : SelUse
  deriving DecidableEq, Repr

/-- A request as R279 leaves it. -/
def SelReq.reset : SelReq :=
  { state := .idle, compact := false, neg := false, cls := 0, fwd := false, idmapEn := false, defPart := 0, k := 1,
    thresh := 0, list := 0, out := 0, idmap := 0, fcore := 0, freq := 0, entries := [], bound := none, delivered := 0,
    dropped := 0, nancnt := 0, outX := 0, arrivals := 0, owed := 0, cmds := 0, boundReg := 0x7F800000#32, passes := 0, runs := 0, late := 0,
    count := 0, sumSel := 0, sumOut := 0, result := [], job := 0, use := .user }

/-- Where the entries of a waiting block came from (R266). -/
inductive BlockSrc where
  | tile | vsel | nbu | run
  deriving DecidableEq, Repr

/-- A block of up to 32 entries that waits for the selection unit (R266, R267): (score, part, id) each; a block of a
forwarded run may carry the run end with the sender's SUM_OUT (R274). The first 256 of a core are its queue; later ones wait at
their sources. -/
structure SelBlock where
  target : Nat
  src : BlockSrc
  entries : List (W32 × Nat × Nat)
  runEnd : Option W32
  /-- the job it works for, 0 where a program sent it. -/
  job : Nat
  /-- its entries already have the PART and id that IDMAP or DEFPART gives (R266). -/
  mapped : Bool
  deriving DecidableEq, Repr

/-- An NBU end message or the other replies that travel with it (R222, R336, R352). -/
structure EndMsg where
  status : EndStatus
  count : Nat
  scanned : Nat
  tailRead : Nat
  bytes : Nat
  req : NbuReq
  part : Nat
  pc : Nat
  replies : List Reply
  partial_ : List W32
  /-- a slice that the request needed found no room (R296). -/
  noRoom : Bool
  deriving DecidableEq, Repr

/-- A custom kernel invocation (R141): the job, the candidates of its group and the selection request. -/
structure Invocation where
  job : Nat
  slot : Nat
  /-- (partition, ordinal) of each candidate. -/
  ords : List (Nat × Nat)
  vectors : List (List Byte)
  selreq : Nat
  ctx : Nat
  deriving DecidableEq, Repr

/-- A vector that waits for the Derotator (R180). -/
structure DerotWait where
  /-- 0 Zenith query, 1 other query, 2 ingest vector. -/
  group : Nat
  job : Nat
  queue : Nat
  deriving DecidableEq, Repr

/-- A search core (R134). -/
structure CoreSt where
  ctxs : Tbl CoreCtx
  /-- the context that issued last, and those whose last instruction waits (R135). -/
  turn : Option Nat
  waits : List Nat
  /-- the kernel slots in its instruction memory (R137, R140). -/
  kernels : Tbl (List Byte)
  /-- single-bit errors of plate memory that it corrected (R139). -/
  corrected : Nat
  vslots : Tbl VSlot
  tiles : List Tile
  nextHandle : Nat
  sel : Tbl SelReq
  blocks : List SelBlock
  /-- requests resident in SV0 to SV3, most recently used first (R267). -/
  resident : List Nat
  stray : Nat
  kernelTraps : Nat
  ends : List EndMsg
  inv : Option Invocation
  invWait : List Invocation
  derot : List DerotWait
  /-- jobs that wait at COARSE for a Survey batch or a Zenith pass (R109, R110). -/
  coarse : List Nat
  deriving DecidableEq, Repr

/-- A core as R167, R193 and R279 leave it. -/
def CoreSt.reset : CoreSt :=
  { ctxs := [], turn := none, waits := [], kernels := [], corrected := 0, vslots := [], tiles := [], nextHandle := 0, sel := [],
    blocks := [], resident := [], stray := 0,
    kernelTraps := 0, ends := [], inv := none, invWait := [], derot := [], coarse := [] }

end Sys2Proof.Machine
end

