-- ==== Sys2Proof/Machine/Arrays.lean ====
section
/-!
DEFINITION. Sys2Proof/Machine/Arrays.lean: the matrix arrays: pass shapes, accumulation, norm rows and the outputs of a
pass (R144 to R165).
-/
namespace Sys2Proof.Machine

/-- Is a tile code an integer format: int8, int4 or 1-bit? -/
def isIntFmt (f : Nat) : Bool := f = 0 || f = 1 || f = 7

/-- A tile code with its reserved values decoded as int8 (R155 table). -/
def tileFmt (f : Nat) : Nat := if f ≥ 8 then 0 else f

/-- Bytes that `d` elements of a format take. -/
def fmtBytes (f d : Nat) : Nat :=
  match f with
  | 1 => ceilDiv d 2
  | 7 => ceilDiv d 8
  | 4 | 5 => 2 * d
  | 6 => 4 * d
  | _ => d

/-- Element `d` of an operand row as an exact value (R146, R155 table). -/
def elemNum (f : Nat) (bs : List Byte) (d : Nat) : Num :=
  match f with
  | 2 => fp8e4m3.decode (bs.getD d 0#8).toNat
  | 3 => fp8e5m2.decode (bs.getD d 0#8).toNat
  | 4 => bf16.decode (leNat ((bs.drop (2 * d)).take 2))
  | 5 => fp16.decode (leNat ((bs.drop (2 * d)).take 2))
  | 6 => fp32.decode (leNat ((bs.drop (4 * d)).take 4))
  | _ => numOfInt (codeElem f bs d)

/-- Does a format pair accumulate in int32 (R146)? -/
def intPair (a b : Nat) : Bool := isIntFmt a && isIntFmt b

/-- Output rows of a pass on one array (R146). -/
def passRows (a b : Nat) : Nat :=
  let fp8 := fun f => f = 2 || f = 3
  if intPair a b then 32 else if fp8 a && fp8 b then 32 else 8

/-- Half cycles for each reduction element (R146). -/
def halfCycles (a b : Nat) : Nat :=
  if a = 6 && b = 6 then 6
  else if a = 6 || b = 6 then 4
  else if a = 4 || a = 5 || b = 4 || b = 5 then 2
  else if intPair a b && a ≠ 0 && b ≠ 0 then 1
  else 2

/-- The cycles of a pass (R152). -/
def passCycles (a b d : Nat) : Nat := max 32 (ceilDiv (d * halfCycles a b) 2)

/-- The passes of a tile (R152). -/
def tilePasses (a b m n : Nat) : Nat := ceilDiv n 128 * ceilDiv m (passRows a b)

/-- The cycles of a whole tile (R152). -/
def tileCycles (a b m n d : Nat) : Nat := 24 + tilePasses a b m n * passCycles a b d

/-- A value rounded to bf16 (R173, R174): a finite one beyond the format becomes the largest finite value; infinity and NaN stay
(R149). -/
def toBf16 (x : Num) : Num :=
  match x with
  | .fin _ _ _ => bf16.decode (bf16.encSat x)
  | _ => bf16.decode (bf16.enc x)

/-- hi and lo of an fp32 operand (R147). -/
def splitHi (x : Num) : Num := toBf16 x
def splitLo (x : Num) : Num := toBf16 (x.add (splitHi x).neg)

/-- One product added to an fp32 accumulator (R148). -/
def accAdd (acc : W32) (p : Num) : W32 := f32Enc ((f32 acc).add p)

/-- A sweep of products in increasing element order (R148). -/
def sweep (acc : W32) (a b : List Num) : W32 := (List.zipWith Num.mul a b).foldl accAdd acc

/-- Accumulation of one cell, as an fp32 code; an int32 sum when the pair is an integer pair (R144 to R149). -/
inductive AccVal where
  | int (x : Int)
  | flt (w : W32)
  deriving DecidableEq, Repr

/-- The accumulator of one cell over `d` elements (R146 to R149). -/
def cellAcc (fa fb d : Nat) (a b : List Byte) : AccVal :=
  if intPair fa fb then
    .int (dotInt ((List.range d).map (codeElem fa a)) ((List.range d).map (codeElem fb b)))
  else
    let xs := (List.range d).map (elemNum fa a)
    let ys := (List.range d).map (elemNum fb b)
    if fa = 6 && fb = 6 then
      let s1 := sweep 0#32 (xs.map splitLo) (ys.map splitHi)
      let s2 := sweep s1 (xs.map splitHi) (ys.map splitLo)
      .flt (sweep s2 (xs.map splitHi) (ys.map splitHi))
    else if fa = 6 then .flt (sweep (sweep 0#32 (xs.map splitLo) ys) (xs.map splitHi) ys)
    else if fb = 6 then .flt (sweep (sweep 0#32 xs (ys.map splitLo)) xs (ys.map splitHi))
    else .flt (sweep 0#32 xs ys)

/-- fp32 of an accumulator (R157). -/
def AccVal.toF32 : AccVal → W32
  | .int x => f32OfInt x
  | .flt w => w

/-- The 32 bits that RAW writes: int32 or fp32 (R155 table). -/
def AccVal.raw : AccVal → W32
  | .int x => BitVec.ofInt 32 x
  | .flt w => w

/-- NS and NQ of a column (R150), as fp32. -/
def normRow (fa fb d : Nat) (b : List Byte) : W32 × W32 :=
  if intPair fa fb then
    let cs := (List.range d).map (codeElem fb b)
    (f32OfInt (sumInt cs), f32OfInt (sumSq cs))
  else
    let ys := (List.range d).map (elemNum fb b)
    let ys := if fb = 6 then ys.map (fun y => (splitHi y).add (splitLo y)) else ys
    (ys.foldl accAdd 0#32, (ys.map (fun y => y.mul y)).foldl accAdd 0#32)

/-- M and N of a tile. -/
def Tile.m (t : Tile) : Nat := t.arows.length
def Tile.n (t : Tile) : Nat := t.brows.length

/-- The passes of a tile. -/
def Tile.passes (t : Tile) : Nat := tilePasses t.afmt t.bfmt t.m t.n

/-- The cycles of a tile (R152). -/
def Tile.cycles (t : Tile) : Nat := tileCycles t.afmt t.bfmt t.m t.n t.d

/-- CBIAS of column `j` (R155 table, R158). -/
def Tile.cbias (t : Tile) (j : Nat) : W32 :=
  match t.cb with
  | .none => 0#32
  | .vals v => v.getD j 0#32
  | .norm =>
    let (ns, nq) := normRow t.afmt t.bfmt t.d (t.brows.getD j [])
    let c := t.colc.getD j (f32One, 0#32)
    normBias c.1 c.2 ns nq (f32OfInt t.d)

/-- Output (i, j): the 32 bits for plate memory and the score for selection (R157). -/
def Tile.output (t : Tile) (i j : Nat) : W32 × W32 :=
  let acc := cellAcc t.afmt t.bfmt t.d (t.arows.getD i []) (t.brows.getD j [])
  if t.epi = 0 then (acc.raw, acc.toF32)
  else
    let q := t.rowc.getD i (f32One, 0#32, 0#32)
    let c := t.colc.getD j (f32One, 0#32)
    let y := epilogue ⟨q.1, q.2.1, q.2.2, c.1, c.2, t.cbias j⟩ acc.toF32
    let y := if t.epi = 2 && f32Lt y 0#32 then 0#32 else y
    (y, y)

/-- The real outputs of pass `p`, in the order in which they drain: by column within the pass's row block and column
group (R151, R159): (row, column). -/
def Tile.passCells (t : Tile) (p : Nat) : List (Nat × Nat) :=
  let r := passRows t.afmt t.bfmt
  let rb := ceilDiv t.m r
  let g := p / max rb 1
  let k := p % max rb 1
  let cols := ((List.range 128).map (fun c => 128 * g + c)).filter (· < t.n)
  let rows := ((List.range r).map (fun c => r * k + c)).filter (· < t.m)
  cols.flatMap (fun j => rows.map (fun i => (i, j)))

/-- The cycles that pass `p` counts: the start-up cycles go with the first pass (R152, R161). -/
def Tile.passCost (t : Tile) (p : Nat) : Nat := (if p = 0 then 24 else 0) + passCycles t.afmt t.bfmt t.d

end Sys2Proof.Machine
end

