-- ==== Sys2Proof/Machine/Derotator.lean ====
section
/-!
DEFINITION. Sys2Proof/Machine/Derotator.lean: the Derotator and quantisation on one vector (chapter 05).
-/
namespace Sys2Proof.Machine

/-- A Derotator parameter block as loaded (R176, R178): decoded fields and the copies of the sign vector and the
permutation. -/
structure DrpBlock where
  blklog : Nat
  permEn : Bool
  signEn : Bool
  qfmtC : Nat
  cfmt : Nat
  sfmt : Nat
  qfmtS : Nat
  tfmt : Nat
  fvfmt : Nat
  qfmtR : Nat
  pqs : Nat
  prescale : W32
  cscale : W32
  signAddr : Nat
  permAddr : Nat
  pqAddr : Nat
  signs : List Byte
  perm : List Byte
  deriving DecidableEq, Repr

/-- 1.0 / sqrt(B) in fp32 (R176 PRESCALE). -/
def rsqrtBlk (blklog : Nat) : W32 :=
  let root := Num.sqrt (numOfInt ((2 ^ blklog : Nat) : Int))
  f32Sat ((f32 f32One).div root)

/-- Decode a parameter block (R176), with the copies that R178 makes. -/
def decodeDrp (b signs perm : List Byte) : DrpBlock :=
  let blk := min (field b 0 4) 13
  let q := field b 20 4
  let t := field b 24 4
  let fv := field b 28 4
  let qr := field b 32 4
  let ps : W32 := BitVec.ofNat 32 (le32 b 8)
  let cs : W32 := BitVec.ofNat 32 (le32 b 12)
  let special : W32 → Bool := fun w => match f32 w with | .nan => true | .inf _ => true | _ => false
  let pq := field b 36 14
  { blklog := blk, permEn := fbit b 4, signEn := fbit b 5, qfmtC := tileFmt (field b 8 4), cfmt := tileFmt (field b 12 4),
    sfmt := (let s := field b 16 4; if s = 1 || s = 7 || s = 8 then s else 0),
    qfmtS := if q = 1 || q = 7 then q else 0,
    tfmt := if t = 1 || t = 4 then t else 0, fvfmt := if fv = 4 || fv = 5 then fv else 6,
    qfmtR := if qr = 4 then 4 else 6, pqs := if pq = 0 then 1 else min pq 8192,
    prescale := if special ps || (f32 ps).isZero then rsqrtBlk blk else ps,
    cscale := if special cs then f32One else cs,
    signAddr := le64 b 16, permAddr := le64 b 24, pqAddr := le64 b 32, signs := signs, perm := perm }

/-- The rotated length (R177). -/
def rotLen (blklog dim : Nat) : Nat := ceilDiv dim (2 ^ blklog) * 2 ^ blklog

/-- The fp32 codes of supplied elements in a VFMT (R170, R172): `n` elements. -/
def supplied (vfmt n : Nat) (bs : List Byte) : List W32 :=
  (List.range n).map (fun d =>
    match vfmt with
    | 1 => widen bf16 (leNat ((bs.drop (2 * d)).take 2))
    | 2 => widen fp16 (leNat ((bs.drop (2 * d)).take 2))
    | 3 => widen fp8e4m3 (bs.getD d 0#8).toNat
    | 4 => widen fp8e5m2 (bs.getD d 0#8).toNat
    | 5 => f32OfInt (i8 (bs.getD d 0#8))
    | _ => BitVec.ofNat 32 (leNat ((bs.drop (4 * d)).take 4)))

/-- Bytes of one supplied element (R94). -/
def vfmtSize (vfmt : Nat) : Nat := match vfmt with | 0 => 4 | 1 => 2 | 2 => 2 | 3 => 1 | 4 => 1 | 5 => 1 | _ => 4

/-- Missing elements as zero, surplus ones ignored (R97). -/
def fitDim (dim : Nat) (xs : List W32) : List W32 := (xs.take dim) ++ List.replicate (dim - xs.length) 0#32

/-- Infinities as the largest finite value (R174). -/
def finite32 (w : W32) : W32 :=
  match f32 w with
  | .inf neg => BitVec.ofNat 32 (fp32.withSign neg fp32.maxFin)
  | _ => w

/-- Unit norm for a cosine query (R179 step 3). -/
def unitNorm (xs : List W32) : List W32 :=
  let n := f32Sat (Num.sqrt (f32 (f32Sum (xs.map (fun x => satMulF x x)))))
  if (f32 n).isZero then xs
  else
    let r := satDivF f32One n
    xs.map (fun x => satMulF x r)

/-- One butterfly stage over a block (R179 step 8). -/
def butterfly (j : Nat) (xs : List W32) : List W32 :=
  xs.mapIdx (fun i x =>
    if i / 2 ^ j % 2 = 0 then satAddF x (xs.getD (i + 2 ^ j) 0#32)
    else satSubF (xs.getD (i - 2 ^ j) 0#32) x)

/-- The butterfly stages `j` upwards (R179 step 8); pairs never cross a block, since `j` is below BLKLOG. -/
def butterflies : Nat → Nat → List W32 → List W32
  | 0, _, xs => xs
  | k + 1, j, xs => butterflies k (j + 1) (butterfly j xs)

/-- Steps 5 to 10 of R179: pad, gather, signs, butterflies, PRESCALE, no minus zero. -/
def rotate (p : DrpBlock) (dim : Nat) (xs : List W32) : List W32 :=
  let dr := rotLen p.blklog dim
  let x0 := fitDim dr xs
  let x1 := if p.permEn then
      (List.range dr).map (fun d => x0.getD (leNat ((p.perm.drop (2 * d)).take 2)) 0#32) else x0
  let x2 := if p.signEn then
      x1.mapIdx (fun d x => if (p.signs.getD (d / 8) 0#8).toNat.testBit (d % 8) then x ^^^ 0x80000000#32 else x)
    else x1
  (butterflies p.blklog 0 x2).map (fun x => noNegZero (satMulF x p.prescale))

/-- A quantised vector (R182, R184): format, scale, codes, and the sums A and N. -/
structure QVec where
  fmt : Nat
  sq : W32
  codes : List Byte
  a : W32
  n : W32
  deriving DecidableEq, Repr

/-- Integer codes packed into bytes: int8, or int4 with the low nibble first (R155 table). -/
def packInts (f : Nat) (cs : List Int) : List Byte :=
  if f = 1 then
    (List.range (ceilDiv cs.length 2)).map (fun i =>
      BitVec.ofNat 8 (twos 4 (cs.getD (2 * i) 0) + 16 * twos 4 (cs.getD (2 * i + 1) 0)))
  else cs.map (fun c => BitVec.ofInt 8 c)

/-- Bits packed into bytes, element d at bit d mod 8 (R155 table). -/
def packBits (bs : List Bool) : List Byte :=
  (List.range (ceilDiv bs.length 8)).map (fun i =>
    BitVec.ofNat 8 (((List.range 8).map (fun j => b2n (bs.getD (8 * i + j) false) * 2 ^ j)).foldl (· + ·) 0))

/-- The bytes of float codes. -/
def packFloat (f : Fmt) (xs : List W32) : List Byte := xs.flatMap (fun x => leBytes (f.width / 8) (narrow f x))

/-- The greatest magnitude (R182). -/
def maxAbs (ys : List W32) : W32 :=
  ys.foldl (fun m y => let a := y &&& 0x7FFFFFFF#32; if f32Lt m a then a else m) 0#32

/-- 2^k as fp32. -/
def f32Pow2 (k : Int) : W32 := f32Enc (.fin false 1 k)

/-- The smallest k from `k` up to 127 with m * 2^-k at most the largest finite value (R182); `fuel` steps. -/
def scaleExp (f : Fmt) (m : Num) : Nat → Int → Int
  | 0, k => k
  | n + 1, k =>
    let lim := f.decode f.maxFin
    if lim.lt (m.mul (.fin false 1 (-k))) then scaleExp f m n (k + 1) else k

/-- The mean of fp32 values, summed in increasing order (R182, R185). -/
def meanOf (xs : List W32) : W32 := if xs.isEmpty then 0#32 else satDivF (f32Sum xs) (f32OfInt xs.length)

/-- Magnitude. -/
def absF (x : W32) : W32 := x &&& 0x7FFFFFFF#32

/-- The dequantised codes give A and N (R184). -/
def qsums (xs : List W32) : W32 × W32 := (f32Sum xs, f32Sum (xs.map (fun x => satMulF x x)))

/-- Quantise a query to a tile format (R182 to R184). -/
def quantQuery (fmt : Nat) (ys : List W32) : QVec :=
  let scaled := fun (f : Fmt) =>
    let m := maxAbs ys
    let k : Int := if (f32 m).isZero then 0 else scaleExp f (f32 m) 254 (-126)
    let sq := f32Pow2 k
    let cs := ys.map (fun y => narrow f (satMulF y (f32Pow2 (-k))))
    let dq := cs.map (fun c => satMulF sq (widen f c))
    let s := qsums dq
    (⟨fmt, sq, cs.flatMap (fun c => leBytes (f.width / 8) c), s.1, s.2⟩ : QVec)
  let ints := fun (lim : Nat) =>
    let sq := satDivF (maxAbs ys) (f32OfInt lim)
    let cs := if (f32 sq).isZero then ys.map (fun _ => (0 : Int))
      else
        let r := satDivF f32One sq
        ys.map (fun y => quantCode (-(lim : Int)) lim y r)
    let s := qsums (cs.map (fun c => satMulF sq (f32OfInt c)))
    (⟨fmt, sq, packInts fmt cs, s.1, s.2⟩ : QVec)
  match fmt with
  | 6 => let s := qsums ys; ⟨6, f32One, packFloat fp32 ys, s.1, s.2⟩
  | 4 =>
    let s := qsums (ys.map (fun y => widen bf16 (narrow bf16 y)))
    ⟨4, f32One, packFloat bf16 ys, s.1, s.2⟩
  | 5 => scaled fp16
  | 2 => scaled fp8e4m3
  | 3 => scaled fp8e5m2
  | 1 => ints 7
  | 7 =>
    let sq := meanOf (ys.map absF)
    let bits := ys.map (fun y => (f32 sq).isZero || !f32Lt y 0#32)
    let s := qsums (bits.map (fun b => if b then sq else sq ^^^ 0x80000000#32))
    ⟨7, sq, packBits bits, s.1, s.2⟩
  | _ => ints 127

/-- A quantised stored row (R185): codes, fp16 scale and fp16 offset. -/
structure QRow where
  codes : List Byte
  scale : Nat
  offset : Nat
  deriving DecidableEq, Repr

/-- Least and greatest elements. -/
def minOf (ys : List W32) : W32 := ys.foldl (fun m y => if f32Lt y m then y else m) (ys.headD 0#32)
def maxOf (ys : List W32) : W32 := ys.foldl (fun m y => if f32Lt m y then y else m) (ys.headD 0#32)

/-- Quantise a stored row to int8, int4, 1-bit or bf16 (R185). -/
def quantRow (fmt : Nat) (ys : List W32) : QRow :=
  let ints := fun (lo hi : Int) (span : Nat) =>
    let l := minOf ys
    let h := maxOf ys
    let o := narrow fp16 (satDivF (satAddF h l) (f32OfInt 2))
    let c := narrow fp16 (satDivF (satSubF h l) (f32OfInt span))
    let of32 := widen fp16 o
    let cf32 := widen fp16 c
    let cs := if (f32 cf32).isZero then ys.map (fun _ => (0 : Int))
      else
        let r := satDivF f32One cf32
        ys.map (fun y => quantCode lo hi (satSubF y of32) r)
    (⟨packInts fmt cs, c, o⟩ : QRow)
  match fmt with
  | 1 => ints (-8) 7 14
  | 7 =>
    let o := narrow fp16 (meanOf ys)
    let of32 := widen fp16 o
    let c := narrow fp16 (meanOf (ys.map (fun y => absF (satSubF y of32))))
    let bits := ys.map (fun y => (fp16.decode c).isZero || !f32Lt (satSubF y of32) 0#32)
    ⟨packBits bits, c, o⟩
  | 4 => ⟨packFloat bf16 ys, 0x3C00, 0⟩
  | _ => ints (-128) 127 254

/-- The bounds of PQ8 sub-vector `i` of `s` over `dr` elements: start and length (R186). -/
def pqSpan (dr s i : Nat) : Nat × Nat :=
  let n := dr / s
  (i * n, if i + 1 = s then dr - i * n else n)

/-- The bytes of codeword `j` of sub-vector `i` of the bf16 codebook: sub-vector by sub-vector, 256 codewords each, packed (R186).
DESIGN CHOICE, log 178. -/
def pqWord (book : List Byte) (dr s i j : Nat) : List Byte :=
  let sp := pqSpan dr s i
  (book.drop (2 * (256 * sp.1 + j * sp.2))).take (2 * sp.2)

/-- Squared L2 distance of an fp32 sub-vector, |x|^2 = `n`, and a bf16 codeword, as a tile of the arrays with the L2 constants of
R189 gives it (R146 to R150, R157, R158, R186). DESIGN CHOICE, log 178. -/
def pqDist (sub : List W32) (n : W32) (word : List Byte) : W32 :=
  let d := sub.length
  let nr := normRow 6 4 d word
  epilogue ⟨f32NegTwo, 0#32, n, f32One, 0#32, normBias f32One 0#32 nr.1 nr.2 (f32OfInt d)⟩
    (cellAcc 6 4 d (packFloat fp32 sub) word).toF32

/-- The array-cycles of the distances of a row (R152): a tile of 1 by 256 for each sub-vector. -/
def pqCycles (dr s : Nat) : Nat :=
  ((List.range s).map (fun i => tileCycles 6 4 1 256 (max 1 (pqSpan dr s i).2))).foldl (· + ·) 0

/-- The number of the nearest codeword, the lower of two at equal distance (R186). -/
def pqNearest (book : List Byte) (dr s i : Nat) (sub : List W32) : Nat :=
  let n := (qsums sub).2
  ((List.range 256).foldl (fun best j =>
    let d := pqDist sub n (pqWord book dr s i j)
    match best with
    | none => some (j, d)
    | some (b, bd) => if f32Lt d bd then some (j, d) else some (b, bd)) (none : Option (Nat × W32))).elim 0 Prod.fst

/-- The PQ8 code of a rotated row (R185, R186). -/
def pqCode (book : List Byte) (s : Nat) (ys : List W32) : QRow :=
  let dr := ys.length
  ⟨(List.range s).map (fun i =>
      let sp := pqSpan dr s i
      BitVec.ofNat 8 (pqNearest book dr s i ((ys.drop sp.1).take sp.2))), 0x3C00, 0⟩

/-- NaN elements of an ingest vector replaced by +0 (R174): the vector and whether any was. -/
def dropNans (xs : List W32) : List W32 × Bool := (xs.map (fun x => if f32IsNan x then 0#32 else x), xs.any f32IsNan)

/-- What the Derotator delivers for a query (R179): the unrotated re-rank query and the rotated, quantised forms. -/
structure QueryForms where
  plain : QVec
  coarse : QVec
  scan : QVec
  rerank : QVec
  /-- the rotated row, from which PQ8 tables are formed. -/
  rotated : List W32
  deriving DecidableEq, Repr

/-- Steps 2 to 11 of R179 for a query vector without NaN. -/
def derotQuery (p : DrpBlock) (dim : Nat) (cosine : Bool) (xs : List W32) : QueryForms :=
  let x0 := (fitDim dim xs).map finite32
  let x1 := if cosine then unitNorm x0 else x0
  let ys := rotate p dim x1
  { plain := quantQuery p.qfmtR (x1.map noNegZero), coarse := quantQuery p.qfmtC ys, scan := quantQuery p.qfmtS ys,
    rerank := quantQuery p.qfmtR ys, rotated := ys }

/-- The full vector as the flash store holds it (R179): step 2, converted to FVFMT, unrotated. -/
def storeVector (p : DrpBlock) (dim : Nat) (xs : List W32) : List Byte :=
  let x0 := (fitDim dim xs).map (fun x => noNegZero (finite32 x))
  match p.fvfmt with
  | 4 => packFloat bf16 x0
  | 5 => packFloat fp16 x0
  | _ => packFloat fp32 x0

end Sys2Proof.Machine
end

