-- ==== Sys2Proof/Machine/StatePipe.lean ====
section
/-!
DEFINITION. Sys2Proof/Machine/StatePipe.lean: the state of the search pipeline: loaded objects, jobs, walkers, ingest
engines, memory tiers, flash media and the sixteen partitions (chapters 03, 09 to 13).
-/
namespace Sys2Proof.Machine

/-! ## Loaded objects -/

/-- A query descriptor, decoded (R91 to R97); `dim` 0 stands for the dimension of the index. -/
structure QDesc where
  kind : Nat
  mode : Nat
  epMode : Nat
  payload : Nat
  rescore : Bool
  noRerank : Bool
  index : Nat
  dim : Nat
  vfmt : Nat
  metric : Nat
  rnet : Nat
  k : Nat
  nprobe : Nat
  ncand : Nat
  rbMax : Nat
  tag : Nat
  pinEpoch : Nat
  filt : List Nat
  fcomb : Bool
  thresh : W32
  etab : Nat
  nrows : Nat
  mean : Bool
  beam : Nat
  hops : Nat
  deriving DecidableEq, Repr

/-- An ingest batch descriptor, decoded (R298 table). -/
structure BDesc where
  index : Nat
  nrec : Nat
  vfmt : Nat
  repl : Bool
  rconn : Nat
  dim : Nat
  tag : Nat
  deriving DecidableEq, Repr

/-- An index descriptor, decoded (R281 tables). -/
structure IDesc where
  graph : Bool
  metric : Nat
  dim : Nat
  kslot : Nat
  nprobe : Nat
  ncand : Nat
  beam : Nat
  hops : Nat
  dirlog : Nat
  cmppct : Nat
  nclust : Nat
  drpAddr : Nat
  centAddr : Nat
  clAddr : Nat
  classAddr : Nat
  dirBase : Nat
  growCap : Nat
  deriving DecidableEq, Repr

/-- The copies that an IDX_LOAD makes (R282, R284): the descriptor, the Derotator block, the PQ8 codebook, the centroid
rows, and |c|^2 of each row. -/
structure IdxCopy where
  handle : Nat
  addr : Nat
  desc : IDesc
  drp : DrpBlock
  book : List Byte
  rows : List (List Byte)
  norms : List W32
  /-- a graph index that firmware has restored and host software has not yet loaded (R344). -/
  dormant : Bool
  /-- its graph pieces, with the neighbour blocks that each holds (R323, R324). -/
  nodes : List ((Nat × Nat × Nat) × Nat)
  deriving DecidableEq, Repr

/-- An embedding table's copies (R345, R349). -/
structure ETab where
  handle : Nat
  int4 : Bool
  dim : Nat
  slog : Nat
  nrows : Nat
  rowBase : Nat
  cbase : Nat
  sbase : Nat
  /-- (RLO, RHI, CONN). -/
  remote : List (Nat × Nat × Nat)
  deriving DecidableEq, Repr

/-- One layer of a re-scoring network (R163, network image). -/
structure RLayer where
  width : Nat
  relu : Bool
  wscale : W32
  iscale : W32
  bias : List W32
  rows : List (List Byte)
  deriving DecidableEq, Repr

/-- A re-scoring network (R163). -/
structure RNet where
  features : Nat
  wfmt : Nat
  afmt : Nat
  layers : List RLayer
  deriving DecidableEq, Repr

/-! ## Memory tiers (R363 to R393) -/

/-- STATE of a tier entry (R368). -/
inductive TierSt where
  | unmapped | zero | hbm | flash | in_ | out
  deriving DecidableEq, Repr

/-- A tier entry (R368). `loc` is the flash copy, (EXTENT, POFF). -/
structure TierEnt where
  st : TierSt
  dirty : Bool
  ref : Bool
  discard : Bool
  pin : Bool
  plate : Bool
  home : Nat
  pc : Nat
  frame : Nat
  loc : Option (Nat × Nat)
  deriving DecidableEq, Repr

def TierEnt.none_ : TierEnt :=
  { st := .unmapped, dirty := false, ref := false, discard := false, pin := false, plate := false, home := 0, pc := 0,
    frame := 0, loc := none }

/-- A page: GENERAL by page number, or the bank page of a frame (R364, R370). -/
inductive PageId where
  | gen (n : Nat)
  | bank (part pc frame : Nat)
  deriving DecidableEq, Repr

/-! ## Flash media (R394 to R428) -/

/-- STATE and ROLE of an extent (R403). -/
inductive ExtSt where
  | free | open_ | sealed | moving | retiring | retired
  deriving DecidableEq, Repr

inductive ExtRole where
  | data | log | page
  deriving DecidableEq, Repr

/-- A read in flight (R404, R408): a full vector's, for a job and its candidate's place, or a page move's, which a prefetch
began or a demand (R388). -/
inductive FlashRead where
  | vector (job cand ext unit n : Nat)
  | page (p : PageId) (prefetch : Bool)
  deriving DecidableEq, Repr

/-- An extent map entry (R403), with its scrub mark (R408), the jobs that may still read it (R412), and the reads issued on
its blocks before a relocation gave them to it (R415 step 6). -/
structure Extent where
  st : ExtSt
  role : ExtRole
  block : Nat
  plun : Nat
  oseq : Nat
  fill : Nat
  live : Nat
  pec : Nat
  /-- REMAP0 to REMAP2: (position, spare block), none where not VALID. -/
  remaps : List (Option (Nat × Nat))
  marked : Bool
  readers : List Nat
  waits : List FlashRead
  deriving DecidableEq, Repr

/-- What a unit's owner tag names, with the source extent and unit of a copy (R400). DESIGN CHOICE, log 184. -/
inductive UnitTag where
  | vector (ext ord : Nat) (src : Option (Nat × Nat))
  | page (p : PageId) (src : Option (Nat × Nat))
  | log (seq : Nat)
  deriving DecidableEq, Repr

/-- A log entry (R315): the batch fields, the record header and the vector as supplied, and U once taken (R316). -/
structure LogEnt where
  seq : Nat
  queue : Nat
  tag : Nat
  index : Nat
  nrec : Nat
  vfmt : Nat
  repl : Bool
  rconn : Nat
  dim : Nat
  header : List Byte
  vector : List Byte
  note : Option Nat
  /-- it belongs to a log page whose program waits to end; its page is programmed; its note is programmed (R316). -/
  paged : Bool
  programmed : Bool
  noted : Bool
  deriving DecidableEq, Repr

/-- A maintenance process of one extent (R413, R415), between its start and its last step. `copies` lists
(unit, extent, unit of the copy); `done` says that the commit page is programmed and step 5 waits (R414). `act` is the
activity of a relocation, scrub or media maintenance (R417, R418). -/
inductive Maint where
  | compact (src : Nat) (copies : List (Nat × Nat × Nat)) (done : Bool)
  | relocate (src target act : Nat)
  deriving DecidableEq, Repr

/-- A journal record (R419 table). -/
inductive JRec where
  | openExt (e oseq : Nat) (role : ExtRole)
  | seal (e oseq : Nat) (role : ExtRole)
  | free (e oseq : Nat) (role : ExtRole)
  | retire (e oseq : Nat) (role : ExtRole)
  | remap (e slot pos spare : Nat)
  /-- destination ranges: extent, first unit and count. -/
  | commitComp (src : Nat) (ranges : List (Nat × Nat × Nat))
  | commitReloc (src block : Nat) (remaps : List (Option (Nat × Nat)))
  /-- the cut's log position and the JSEQ of the snapshot's first page. -/
  | ckpt (cut snapshot : Nat)
  | note (seq epoch : Nat)
  | loss (bytes : Nat)
  /-- one entry of an extent map snapshot. -/
  | snap (e : Nat) (x : Extent)
  /-- the alarms of a flush record, and whether it is a substitute marked INCOMPLETE. -/
  | flush (alarms : BitVec 8) (incomplete : Bool)
  deriving DecidableEq, Repr

/-- KIND of a journal page (R419). -/
inductive JKind where
  | records | flush | snapshot
  deriving DecidableEq, Repr

/-- A journal page: its header and its records (R419). -/
structure JPage where
  jseq : Nat
  kind : JKind
  pub : Nat
  oldest : Nat
  recs : List JRec
  deriving DecidableEq, Repr

/-- A program that waits to end (PROGRAM_DONE), in order. -/
inductive Prog where
  | logPage (seqs : List Nat)
  | data (ext unit n : Nat)
  | page (p : PageId)
  | commitComp (src : Nat)
  | commitReloc (src : Nat)
  deriving DecidableEq, Repr

/-- The flash controller of a partition. -/
structure FlashPart where
  next : Nat
  /-- LUNs of the partition in this build: 64, 32 or 16 (R402). -/
  luns : Nat
  exts : Tbl Extent
  /-- open extents: LOG, DATA for ingest, DATA for compaction copies, PAGE (R405). -/
  openLog : Option Nat
  openData : Option Nat
  openComp : Option Nat
  openPage : Option Nat
  oseq : Nat
  /-- owner tags by key of the unit. -/
  tags : Tbl UnitTag
  log : List LogEnt
  nextSeq : Nat
  /-- bytes of the first entry in no whole log page that earlier log pages hold. -/
  logCarry : Nat
  progs : List Prog
  reads : List FlashRead
  erases : List Nat
  maint : List Maint
  /-- spare blocks taken in each LUN. -/
  sparesUsed : List Nat
  retries : Nat
  rebuilds : Nat
  badLoc : Nat
  ue : W32
  /-- the journal's pages since the snapshot of the current checkpoint, and the next JSEQ (R419, R420). -/
  journal : List JPage
  jseq : Nat
  /-- rewrites of committed compactions since the cut of the current checkpoint (R413): source extent and unit, and the
  copy's. -/
  moved : List (Nat × Nat × Nat × Nat)
  /-- log bytes of the LOSS record of the last start (R426), and the durable tag of each queue (R575). -/
  loss : Nat
  durable : Tbl Nat
  deriving DecidableEq, Repr

/-- Blocks of a LUN in the two builds: NEXT is read from the parameter pages at training (R401). -/
def FlashPart.reset : FlashPart :=
  { next := 0, luns := 64, exts := [], openLog := none, openData := none, openComp := none, openPage := none, oseq := 0, tags := [],
    log := [], nextSeq := 0, logCarry := 0, progs := [], reads := [], erases := [], maint := [], sparesUsed := List.replicate 64 0,
    retries := 0, rebuilds := 0, badLoc := 0, ue := 0, journal := [], jseq := 0, moved := [], loss := 0, durable := [] }

/-! ## Jobs (R98 to R132) -/

/-- What a job waits for next. -/
inductive Phase where
  /-- waits for row pages, then issues POOL (R359). -/
  | bag
  | pooling
  | derot
  | coarse
  | scoring
  | choosing
  | scanning
  | walking
  | merging
  | reranking
  | rescoring
  /-- reads the full vectors that a VECTOR payload still lacks (R115). -/
  | payload
  | completing
  /-- a batch whose records the ingest engine processes. -/
  | records
  deriving DecidableEq, Repr

/-- A candidate of RERANK and COMPLETION: its record, and its full vector or the reason there is none. -/
structure Cand where
  part : Nat
  ord : Nat
  sketch : W32
  score : W32
  rcd : List Byte
  /-- 0 not decided, 1 a cache row, 2 a flash read under way, 3 its vector has come, 4 none: it keeps its sketch score. -/
  src : Nat
  /-- the cache-tier row, codes then scale and offset (R385). -/
  row : List Byte
  vec : List Byte
  sketchOnly : Bool
  deriving DecidableEq, Repr

/-- Use charged to a job (R460): NBU bytes, array cycles, HBM bytes, flash operations, fabric bytes. -/
structure Use where
  nbu : Nat
  array : Nat
  hbm : Nat
  flash : Nat
  fabric : Nat
  deriving DecidableEq, Repr

def Use.zero : Use := ⟨0, 0, 0, 0, 0⟩

/-- A piece to scan: owner partition, pseudo-channel, header address. -/
abbrev PieceRef := Nat × Nat × Nat

/-- A dispatched job: job record and context (R99, R101). -/
structure Job where
  batch : Bool
  home : Nat
  queue : Nat
  slot : Nat
  slots : Nat
  tag : Nat
  /-- its completion queue, fixed at dispatch (R431); a job of an FRECV queue completes on a connection (R518). -/
  cq : Nat
  frecv : Bool
  /-- its completion entry is discarded uncounted (R454). -/
  void : Bool
  /-- order of arrival at COMPLETION (R121, R441). -/
  compSeq : Nat
  act : Nat
  phase : Phase
  /-- STAGE in progress (R100). -/
  stage : Nat
  d : QDesc
  b : BDesc
  /-- the load number of its index, none for an empty index (R97). -/
  idx : Option Nat
  etab : Option Nat
  epoch : Nat
  mode : Nat
  est : Nat
  /-- the trailing data. -/
  data : List Byte
  records : List Nat
  supplied : List W32
  pooled : List W32
  /-- POOL replies awaited and come: (remote, partition or range, pc, sum, count). -/
  poolWait : Nat
  poolParts : List (Nat × Nat × Nat × List W32 × Nat)
  poolCount : Nat
  forms : Option QueryForms
  metric : Nat
  /-- selection requests by purpose. -/
  selChoice : Option Nat
  selMerge : Option Nat
  selRerank : Option Nat
  selRescore : Option Nat
  /-- coarse tiles that still run, or forwarded runs awaited. -/
  pend : Nat
  thresh : W32
  /-- clusters still to be opened, and the list of probed clusters (R101). -/
  probes : List Nat
  chosen : List Nat
  toScan : List PieceRef
  scanOut : Nat
  cands : List Cand
  /-- first candidate of the re-rank group under way. -/
  group : Nat
  readsOut : Nat
  results : List Cand
  sumSel : W32
  sumOut : W32
  layer : Nat
  /-- the network of the pass, as it was when the pass began (R573). -/
  net : Option RNet
  /-- activations that enter the layer under way, and its outputs so far (R165). -/
  acts : List (List W32)
  outs : List (List W32)
  skipped : Nat
  fenceSkip : Bool
  scanned : Nat
  use : Use
  abort : Bool
  /-- the status that ends it, the stage, and the fault's partition. -/
  ending : Option (Nat × Nat × Option Nat)
  /-- a batch: records applied, and the highest U taken. -/
  applied : Nat
  maxU : Nat
  nextRec : Nat
  /-- it was dispatched, and OUTST of its queue counts it (R125, R435 end some jobs before that). -/
  counted : Bool
  /-- dispatch order. -/
  order : Nat
  /-- for a POOL message of a peer: connection and cookie (R355). -/
  peer : Option (Nat × Nat)
  /-- the pooling mode it was dispatched under (R350), and the remote ranges awaited with their connections (R356). -/
  ordered : Bool
  poolConns : List (Nat × Nat)
  deriving DecidableEq, Repr

/-- Where an ingest record stands (R302). -/
inductive RecStep where
  | logged | derot | assign | lock | issued
  deriving DecidableEq, Repr

/-- An ingest record in progress. -/
structure IngRec where
  job : Nat
  n : Nat
  ext : Nat
  del : Bool
  fclass : Nat
  step : RecStep
  logSeq : Nat
  /-- waits for its replication to count as posted (R525). -/
  replWait : Bool
  vec : List W32
  nan : Bool
  code : QRow
  ctRow : QRow
  cluster : Nat
  owner : Nat
  extent : Nat
  offset : Nat
  /-- directory slice and slot, and the old record. -/
  dirSlice : Nat
  dirSlot : Nat
  old : Option (Nat × Nat)
  u : Nat
  /-- requests of its injection not yet ended. -/
  apOut : Bool
  stOut : Bool
  piece : PieceRef
  /-- the new entry's ordinal, once APPEND has ended. -/
  newOrd : Option Nat
  full : Bool
  /-- the fringe piece that its STAGE 0x3 chose (R342). -/
  fringe : Option Nat
  deriving DecidableEq, Repr

/-- A directory lock held: the index address of its slot, the id, and the record that holds it. -/
structure DirLock where
  addr : Nat
  ext : Nat
  job : Nat
  n : Nat
  deriving DecidableEq, Repr

/-- A STAMP on the retry list (R307). -/
structure StampRetry where
  part : Nat
  pc : Nat
  piece : Nat
  entry : Nat
  u : Nat
  deriving DecidableEq, Repr

/-- A piece compaction under way (R311): old and new piece, its cluster or subgraph, and the step reached. -/
structure PieceComp where
  idx : Nat
  cluster : Nat
  graph : Bool
  part : Nat
  pc : Nat
  old : Nat
  new : Nat
  /-- 2: COMPACT runs; 6: switched, and the old piece waits for its readers. -/
  step : Nat
  readers : List Nat
  deriving DecidableEq, Repr

/-- A node in a walker's beam. -/
structure BeamEnt where
  score : W32
  ord : Nat
  part : Nat
  expanded : Bool
  deriving DecidableEq, Repr

/-- A walker context (R326 to R335). -/
structure Walk where
  job : Nat
  core : Nat
  /-- the subgraphs that it walks; those of fenced cores whose starts are only counted (R339). -/
  parts : List Nat
  lost : List Nat
  hop : Nat
  started : Bool
  beam : List BeamEnt
  /-- set bits of the visited set (R330), rising. -/
  visited : List Nat
  /-- the prefetched link record: partition, ordinal, and (block, piece) of each reference (R326, R332). -/
  link : Option (Nat × Nat × List (Nat × Nat))
  /-- the admission map: PART and ordinal (R328, R334). -/
  amap : List (Nat × Nat)
  /-- replies of the hop, by reference order. -/
  replies : Tbl (Nat × List Reply)
  blocksOut : Nat
  fringeOut : Nat
  nextRef : Nat
  req : Nat
  /-- the page slot it holds; none when evicted or waiting to start. -/
  slot : Option Nat
  /-- order of last use of its page. -/
  used : Nat
  ended : Bool
  deriving DecidableEq, Repr

/-! ## Partitions -/

/-- The states of a partition (R580). -/
inductive PState where
  | serving | fencing | fenced | unfencing
  deriving DecidableEq, Repr

/-- A partition. -/
structure Part where
  st : PState
  /-- its domain is switched on; it has passed the training steps of this boot (R619). -/
  power : Bool
  trained : Bool
  /-- published and pending epochs and watch number as it holds them (R78, R85). -/
  pub : Nat
  pend : Nat
  watchNo : Nat
  alm : Almanac
  sched : Sched
  core : CoreSt
  nbus : Tbl Nbu
  /-- residency bits that are set (R294). -/
  resident : List Nat
  /-- ordinal map: block of 256 ordinals to (pc, header) and the load that entered it (R288). -/
  ordMap : Tbl (Nat × Nat × Nat)
  /-- regions of the pseudo-channels in use, by pc: (start, length). -/
  regions : Tbl (List (Nat × Nat))
  ueBits : BitVec 64
  ce : W32
  trapCnt : W32
  trapCause : W32
  /-- ingest engine: records in progress, locks granted, the lock queue in order of arrival. -/
  recs : List IngRec
  locks : List DirLock
  lockQueue : List (Nat × Nat)
  stampRetry : List StampRetry
  flash : FlashPart
  /-- MIGRES, low mark and idle watches as written (TIER_CONFIG). -/
  migres : Nat
  lowMark : Nat
  idle : Nat
  dropped : Nat
  exhaust : Nat
  movesIn : Nat
  writeBacks : Nat
  /-- eviction clock position. -/
  clock : Nat
  /-- last watch in which each piece was probed, by bank key. -/
  probed : Tbl Nat
  ordered : Bool
  pfDepth : Nat
  comps : List PieceComp
  compQueue : List (Nat × Nat × Nat × Nat)
  /-- walks waiting to start, and walk pages evicted to backing. -/
  walkWait : List Nat
  /-- the fence: its cause, a source, or none for PART_FENCE. -/
  cause : Option Nat
  /-- a fence has stopped the flash (R584); its completions are owed (R130). -/
  flashIdle : Bool
  completionsOwed : Bool
  /-- old piece tables that jobs may still read: pseudo-channel, start, length, jobs (R289). -/
  oldTabs : List (Nat × Nat × Nat × List Nat)
  /-- the unflushed tail held in self-refresh (R585). -/
  tailHeld : Bool
  ingestHold : Bool
  deriving DecidableEq, Repr

/-- A partition after any reset. DESIGN CHOICE, log 8. DESIGN CHOICE, log 10. DESIGN CHOICE, log 164. -/
def Part.reset : Part :=
  { st := .fenced, power := true, trained := true, pub := 0, pend := 1, watchNo := 0, alm := Almanac.reset, sched := Sched.reset,
    core := CoreSt.reset, nbus := [], resident := [], ordMap := [], regions := [], ueBits := 0, ce := 0, trapCnt := 0,
    trapCause := 0, recs := [], locks := [], lockQueue := [], stampRetry := [], flash := FlashPart.reset, migres := 16384,
    lowMark := 4096, idle := 1024, dropped := 0, exhaust := 0, movesIn := 0, writeBacks := 0, clock := 0, probed := [],
    ordered := true, pfDepth := 2, comps := [], compQueue := [], walkWait := [], cause := none, flashIdle := false,
    completionsOwed := false, oldTabs := [], tailHeld := false, ingestHold := false }

/-- A checkpoint (R317): the cut and what its record lets firmware restore. -/
structure Ckpt where
  pub : Nat
  oldest : Nat
  general : Tbl TierEnt
  bank : Tbl TierEnt
  tables : Tbl (Nat × List (Nat × Nat))
  idx : Tbl IdxCopy
  handles : Tbl Nat
  /-- (partition, pc, header) and TAIL of every piece. -/
  tails : List (PieceRef × Nat)
  ordMaps : List (Tbl (Nat × Nat × Nat))
  regions : List (Tbl (List (Nat × Nat)))
  /-- log position of each partition, and the programs that had not ended at the cut (R421). -/
  cuts : List Nat
  owed : List (List Prog)
  /-- rewrites that the cut already covers, by partition. -/
  moves : List Nat
  deriving DecidableEq, Repr

/-- What the NAND flash holds through power (R403, R419, R420): the current checkpoint, and the last flush record
(published epoch, alarms, incomplete), and PUB of the last journal page when it follows that record. -/
structure Nand where
  ckpt : Option Ckpt
  flush : Option (Nat × BitVec 8 × Bool)
  lastPage : Option Nat
  parts : List FlashPart
  /-- pages found dirty by the flush's map (R392). -/
  dirty : List PageId
  /-- log records, by partition and log sequence number, that this start found that no read yields (R409). -/
  gone : List (Nat × Nat)
  deriving DecidableEq, Repr

/-- DESIGN CHOICE, log 7. -/
def Nand.blank : Nand := { ckpt := none, flush := none, lastPage := none, parts := [], dirty := [], gone := [] }

/-- What the pipeline has to tell the rest of the package. -/
inductive PipeOut where
  /-- a host write by function with its relaxed-ordering attribute, an MSI-X message. -/
  | write (func addr : Nat) (bytes : List Byte) (relaxed : Option Bool)
  | msix (func vec : Nat)
  /-- a fault source to set. -/
  | fault (src : Nat)
  /-- a package message or result write on a connection. -/
  | send (conn : Nat) (write final : Bool) (mkind rkey roff : Nat) (payload : List Byte) (act part : Nat)
      (log : Option (Nat × Nat))
  deriving DecidableEq, Repr

/-- The pipeline. -/
structure Pipe where
  variant64 : Bool
  parts : List Part
  hbm : Mem
  poison : List Nat
  /-- units with an error that the check code corrects, until a write replaces it (R209 to R211). -/
  weak : List Nat
  plate : Mem
  media : Mem
  nand : Nand
  jobs : Tbl Job
  nextJob : Nat
  order : Nat
  handles : Tbl Nat
  idx : Tbl IdxCopy
  nextLoad : Nat
  /-- IDX_TIER: CTBASE, CTPART, CTSTRIDE by handle. -/
  cacheTier : Tbl (Nat × Nat × Nat)
  etabs : Tbl ETab
  etabHandles : Tbl Nat
  kernels : Tbl (List Byte)
  rnets : Tbl RNet
  image : NbuImage
  general : Tbl TierEnt
  bank : Tbl TierEnt
  /-- second-level tables by first-level index: the partition that holds the table's frames, and the frames. -/
  tables : Tbl (Nat × List (Nat × Nat))
  plateSlots : List (Option Nat)
  /-- the oldest retained epoch asked for (R308). -/
  oldest : Nat
  nbuSeq : Nat
  walks : Tbl Walk
  /-- the order of the next use of a walk page (R329). -/
  pageUse : Nat
  ckptMs : Nat
  ckptNow : Bool
  /-- a checkpoint whose cut is recorded and whose pages are being written (R317). -/
  ckptCut : Option Ckpt
  scrubDays : Nat
  ecpct : Nat
  wllim : Nat
  pecmax : Nat
  dirtyMax : Nat
  /-- the cell-mode pair applied at this start (R574). -/
  pair : Option (List Nat)
  /-- package writes that wait for a page to move IN or for a frame (R375): who counts a drop, address, bytes. -/
  late : List (Nat × Nat × List Byte)
  /-- replies to the BITMAPs of running FLT_EDITs: number of the request, ids of the BITMAP, edited (R296). -/
  edits : List (Nat × Nat × Bool)
  /-- requests that a core context has yet to issue, because an earlier one of it waits in the network (R220): partition,
  pseudo-channel, request. -/
  unissued : List (Nat × Nat × NbuReq)
  out : List PipeOut
  deriving DecidableEq, Repr

/-- The pipeline after any reset (R133, R167, R320, R344, R362, R393, R428, R456, R484), `v64` the build.
DESIGN CHOICE, log 8. DESIGN CHOICE, log 164. -/
def Pipe.reset (v64 : Bool) (nand : Nand) (media : Mem) : Pipe :=
  { variant64 := v64, parts := List.replicate 16 Part.reset, hbm := [], poison := [], weak := [], plate := [], media := media,
    nand := nand, jobs := [], nextJob := 1, order := 0, handles := [], idx := [], nextLoad := 1, cacheTier := [],
    etabs := [], etabHandles := [], kernels := [], rnets := [], image := ⟨[], []⟩, general := [], bank := [],
    tables := [], plateSlots := List.replicate 48 none, oldest := 0, nbuSeq := 0, walks := [], pageUse := 0,
    ckptMs := 1000, ckptNow := false, ckptCut := none, scrubDays := 7, ecpct := 25, wllim := 500, pecmax := 50000,
    dirtyMax := 2147483648, pair := none, late := [], edits := [], unissued := [], out := [] }

end Sys2Proof.Machine
end

