-- ==== Sys2Proof/Machine/Tiers.lean ====
section
/-!
DEFINITION. Sys2Proof/Machine/Tiers.lean: partitions, banks, frames and the index address space as operations on the
pipeline (chapter 12; R201, R202, R210).
-/
namespace Sys2Proof.Machine

/-! ## Partitions and banks -/

/-- A partition by its number. -/
def Pipe.part (p : Pipe) (k : Nat) : Part := (p.parts[k]?).getD Part.reset

/-- Change one partition. -/
def Pipe.modPart (p : Pipe) (k : Nat) (f : Part → Part) : Pipe := { p with parts := modNth p.parts k f }

/-- Is a partition fenced, in the sense of R580? -/
def Pipe.fenced (p : Pipe) (k : Nat) : Bool := (p.part k).st ≠ .serving

/-- Bytes of a pseudo-channel, end of its index-data region, and its frames (R201, R372). -/
def pcBytes (v64 : Bool) : Nat := if v64 then 0x40000000 else 0x30000000
def pcData (v64 : Bool) : Nat := if v64 then 0x3EF00000 else 0x2EF00000
def pcFrames (v64 : Bool) : Nat := if v64 then 16112 else 12016

/-- Key of a local address in the package's HBM. -/
def hbmKey (k pc a : Nat) : Nat := k * 2 ^ 36 + pc * 2 ^ 30 + a

/-- Frames of a pseudo-channel that firmware took at boot as the write buffer and, in P0 and P8, the copy of the
Coelostat store (R374): spread evenly, the highest-numbered frames. DEDUCED, log 109. -/
def reservedFrames (k : Nat) : Nat := if k = 0 || k = 8 then 176 else 48

/-! ## Plate memory (R138, R264) -/

/-- The end of plate memory, and a plate address: bits above bit 24 are ignored (R138). -/
def plateEnd : Nat := 0x2000000
def plateAddr (a : Nat) : Nat := a % plateEnd

/-- What a byte of a zeroed plate memory reads as: the BOUND field of each request record reads +infinity (R264). Bytes are held
as their difference from it. -/
def plateZero (b : Nat) : Byte :=
  if 0x1000000 ≤ b && b < 0x1040000 then (if b % 64 = 46 then 0x80#8 else if b % 64 = 47 then 0x7F#8 else 0#8) else 0#8

/-- A byte of plate memory of core k; the address wraps (R138). -/
def Pipe.plateByte (p : Pipe) (k a : Nat) : Byte := p.plate.read (k * 2 ^ 25 + plateAddr a) ^^^ plateZero (plateAddr a)

/-- The bytes of plate memory of core k from a plate address. -/
def Pipe.plateRead (p : Pipe) (k a n : Nat) : List Byte := (List.range n).map (fun i => p.plateByte k (a + i))

/-- Write plate memory of core k; the address wraps. -/
def Pipe.plateWrite (p : Pipe) (k a : Nat) (bs : List Byte) : Pipe :=
  { p with plate := (bs.zipIdx).foldl (fun m b =>
      m.write (k * 2 ^ 25 + plateAddr (a + b.2)) (b.1 ^^^ plateZero (plateAddr (a + b.2)))) p.plate }

/-- Frames of (k, pc) that second-level tables hold (R369). -/
def Pipe.tableFrames (p : Pipe) (k pc : Nat) : List Nat :=
  p.tables.flatMap (fun t => if t.2.1 = k then (t.2.2.filter (fun f => f.1 == pc)).map (fun f => f.2) else [])

/-- The regions of (k, pc) that no piece can take: those frames. -/
def Pipe.heldRegions (p : Pipe) (k pc : Nat) : List (Nat × Nat) :=
  (65536 * (pcFrames p.variant64 - reservedFrames k), 65536 * reservedFrames k)
    :: (p.tableFrames k pc).map (fun f => (65536 * f, 65536))

/-- The frames of (k, pc) that GENERAL pages hold: a slice is allocated elsewhere. -/
def Pipe.pageRegions (p : Pipe) (k pc : Nat) : List (Nat × Nat) :=
  (p.general.filter (fun g => (g.2.st == .hbm || g.2.st == .in_ || g.2.st == .out) && g.2.home == k && g.2.pc == pc)).map (fun g =>
    (65536 * g.2.frame, 65536))

/-- The access port of a pseudo-channel for one step (R208 to R213). A parity error of the thread ends the step as an uncorrectable
read does (R237). -/
def Pipe.bankOf (p : Pipe) (k pc : Nat) (errs : RawErrs) (guard : Option Nat) : Bank :=
  { mem := p.hbm, base := hbmKey k pc 0, size := pcBytes p.variant64, data := pcData p.variant64, poison := p.poison,
    weak := p.weak, errs := errs.units, seen := [], ce := 0, ue := errs.parity, bytes := 0, fetched := 0, stop := none,
    used := (p.part k).regions.getD pc [] ++ p.heldRegions k pc ++ p.pageRegions k pc, taken := [],
    guard := guard, deny := false, wrote := [], drops := 0 }

/-! ## Index addresses (R363, R364) -/

/-- A decoded index address. -/
inductive IAddr where
  | general (off : Nat)
  | bank (k pc a : Nat)
  deriving DecidableEq, Repr

/-- Decode an index address (R363, R202). -/
def iaddr (v64 : Bool) (a : Nat) : IAddr :=
  if bitsOf a 60 4 = 1 then .bank (bitsOf a 36 4) (bitsOf a 30 6) (bitsOf a 0 30 % pcBytes v64)
  else .general (bitsOf a 0 48)

/-- The BANK index address of a local address (R364). -/
def bankAddr (k pc a : Nat) : Nat := 2 ^ 60 + k * 2 ^ 36 + pc * 2 ^ 30 + a

/-- Key of a bank entry: partition, pseudo-channel, frame (R370). -/
def bankPageKey (k pc f : Nat) : Nat := k * 2 ^ 20 + pc * 2 ^ 14 + f

/-- The tier entry of a page; an unlisted page is UNMAPPED (R369). -/
def Pipe.tier (p : Pipe) : PageId → TierEnt
  | .gen n => p.general.getD n TierEnt.none_
  | .bank k pc f => p.bank.getD (bankPageKey k pc f) { TierEnt.none_ with home := k, pc := pc, frame := f }

/-- The codes of STATE (R368). -/
def TierSt.code : TierSt → Nat
  | .unmapped => 0 | .zero => 1 | .hbm => 2 | .flash => 3 | .in_ => 4 | .out => 5
def tierStOf (v : Nat) : TierSt :=
  match v with | 1 => .zero | 2 => .hbm | 3 => .flash | 4 => .in_ | 5 => .out | _ => .unmapped

/-- The 16 bytes of a tier entry, and their decode (R368). -/
def TierEnt.bytes (e : TierEnt) : List Byte :=
  packBytes 16 [(3, e.st.code), (1, b2n e.dirty), (1, b2n e.ref), (1, b2n e.discard), (1, b2n e.pin), (1, b2n e.plate), (4, e.home),
    (4, 0), (6, e.pc), (2, 0), (14, e.frame), (26, 0), (24, (e.loc.getD (0xFFFFFF, 0)).1), (13, (e.loc.getD (0xFFFFFF, 0)).2)]
def decodeTier (v64 : Bool) (b : List Byte) : TierEnt :=
  { st := tierStOf (field b 0 3), dirty := fbit b 3, ref := fbit b 4, discard := fbit b 5, pin := fbit b 6, plate := fbit b 7,
    home := field b 8 4, pc := field b 16 6, frame := field b 24 14 % pcFrames v64,
    loc := if field b 64 24 = 0xFFFFFF || field b 88 13 ≥ 0x1800 then none else some (field b 64 24, field b 88 13) }

/-- HBM key of the tier entry of a GENERAL page in the frames of its second-level table, if it has one (R369). -/
def Pipe.tierKey (p : Pipe) (n : Nat) : Option Nat :=
  match p.tables.get? (n / 65536) with
  | none => none
  | some t => (t.2[n % 65536 / 4096]?).map (fun f => hbmKey t.1 f.1 (65536 * f.2 + 16 * (n % 4096)))

/-- A tier entry stands in its table's frame, where a program of a near-bank unit may read it (R201, R235). -/
def Pipe.showTier (p : Pipe) (n : Nat) (e : TierEnt) : Pipe :=
  match p.tierKey n with
  | some key => { p with hbm := p.hbm.writeN key e.bytes }
  | none => p

/-- Write a page's tier entry; an UNMAPPED entry is unlisted. -/
def Pipe.setTier (p : Pipe) (pg : PageId) (e : TierEnt) : Pipe :=
  match pg with
  | .gen n => ({ p with general := if e.st = .unmapped then p.general.erase n else p.general.set n e } : Pipe).showTier n e
  | .bank k pc f =>
    { p with bank := if e.st = .unmapped then p.bank.erase (bankPageKey k pc f) else p.bank.set (bankPageKey k pc f) e }

/-- Every tier entry of a GENERAL page stands in its table's frame. -/
def Pipe.showTiers (p : Pipe) : Pipe := p.general.foldl (fun (p : Pipe) e => p.showTier e.1 e.2) p

/-- The pages of a byte range of the index address space, in order of address; none for the work area and the Almanac
share, which have no entry (R364). -/
def pagesOf (v64 : Bool) (a n : Nat) : List PageId :=
  if n = 0 then []
  else match iaddr v64 a with
    | .general off => (List.range ((off + n - 1) / 65536 - off / 65536 + 1)).map (fun i => .gen ((off / 65536 + i) % 2 ^ 32))
    | .bank k pc l =>
      (List.range ((l + n - 1) / 65536 - l / 65536 + 1)).filterMap (fun i =>
        let f := l / 65536 + i
        if f < pcFrames v64 then some (.bank k pc f) else none)

/-! ## The port's effects -/

/-- A slice that an NBU was given lies in pages that are HBM now, zero but for it (R205, R295, R376). -/
def Pipe.mapTaken (p : Pipe) (k pc : Nat) (r : Nat × Nat) : Pipe :=
  (List.range ((r.1 + r.2 + 65535) / 65536 - r.1 / 65536)).foldl (fun (p : Pipe) i =>
    let f := r.1 / 65536 + i
    let e := p.tier (.bank k pc f)
    if e.st = .unmapped || e.st = .zero then
      let key := hbmKey k pc r.1
      let bs := p.hbm.readN key r.2
      ({ p with hbm := (p.hbm.clear (hbmKey k pc (65536 * f)) 65536).writeN key bs } : Pipe).setTier (.bank k pc f)
        { e with st := .hbm, dirty := true, ref := true }
    else p) p

/-- The port's effects after the step: memory, poison, corrected reads, regions taken, DIRTY of the bank pages written,
and writes that were dropped (R211, R213, R368, R680). -/
def Pipe.putBank (p : Pipe) (k pc : Nat) (b : Bank) : Pipe :=
  let p1 := { p with hbm := b.mem, poison := b.poison, weak := b.weak }
  let p2 := p1.modPart k (fun q =>
    { q with
      ce := satAdd q.ce b.ce, ueBits := if b.ue then q.ueBits ||| (1#64 <<< pc) else q.ueBits,
      dropped := q.dropped + b.drops,
      regions := if b.taken.isEmpty then q.regions else q.regions.set pc (b.taken ++ q.regions.getD pc []) })
  let p2 := b.taken.foldl (fun p r => p.mapTaken k pc r) p2
  let p3 := b.wrote.foldl (fun (p : Pipe) f =>
    let e := p.tier (.bank k pc f)
    if e.st = .unmapped then p else p.setTier (.bank k pc f) { e with dirty := true, ref := true }) p2
  if b.ue then { p3 with out := p3.out ++ [.fault (16 * k)] } else p3

/-- Does a page's state let it be read and written now (R375)? -/
def TierEnt.here (e : TierEnt) : Bool := e.st ≠ .flash && e.st ≠ .in_

/-- Are all pages of a range there? -/
def Pipe.iasReady (p : Pipe) (a n : Nat) : Bool := (pagesOf p.variant64 a n).all (fun pg => (p.tier pg).here)

/-- HBM key of byte `off` of the page of an entry, if a frame holds it. -/
def TierEnt.key (e : TierEnt) (off : Nat) : Option Nat :=
  if e.st = .hbm || e.st = .out then some (hbmKey e.home e.pc (e.frame * 65536 + off)) else none

/-- HBM key of an index address, if a byte of memory stands behind it now (R364, R365, R375). -/
def Pipe.iasKey (p : Pipe) (a : Nat) : Option Nat :=
  match iaddr p.variant64 a with
  | .general off => (p.tier (.gen (off / 65536))).key (off % 65536)
  | .bank k pc l =>
    if l ≥ pcData p.variant64 + 0x100000 then none
    else if l ≥ pcData p.variant64 then some (hbmKey k pc l)
    else (p.tier (.bank k pc (l / 65536))).key (l % 65536)

/-- Read a range of the index address space whose pages are there (R375). -/
def Pipe.iasRead (p : Pipe) (a n : Nat) : List Byte :=
  (List.range n).map (fun i => match p.iasKey (a + i) with | some k => p.hbm.read k | none => 0#8)

/-- Does a read of the range meet an uncorrectable unit (R212)? -/
def Pipe.iasUE (p : Pipe) (a n : Nat) : Bool :=
  !p.poison.isEmpty && (List.range n).any (fun i => match p.iasKey (a + i) with | some k => p.poison.contains (k / 32) | none => false)

/-- Every access sets REF (R375). -/
def Pipe.ref (p : Pipe) (a n : Nat) : Pipe :=
  (pagesOf p.variant64 a n).foldl (fun p pg =>
    let e := p.tier pg
    if e.st = .unmapped then p else p.setTier pg { e with ref := true }) p

/-! ## Frames (R372 to R374, R378) -/

/-- Does an entry hold a frame? -/
def TierEnt.holds (e : TierEnt) : Bool := e.st = .hbm || e.st = .in_ || e.st = .out

/-- Frames of (k, pc) in use or kept for a bank page in ZERO: bank pages, GENERAL pages, and second-level tables (R372).
DEDUCED, log 109. -/
def Pipe.usedFrames (p : Pipe) (k pc : Nat) : List Nat :=
  ((p.bank.filter (fun e => e.1 / 2 ^ 14 == k * 64 + pc && (e.2.holds || e.2.st == .zero))).map (fun e => e.1 % 2 ^ 14)) ++
  ((p.general.filter (fun e => e.2.holds && e.2.home == k && e.2.pc == pc)).map (fun e => e.2.frame)) ++
  p.tableFrames k pc

/-- Frames of a pseudo-channel that pages can take. -/
def Pipe.pcFree (p : Pipe) (k pc : Nat) : Nat := pcFrames p.variant64 - reservedFrames k - (p.usedFrames k pc).length

/-- Free frames of a stack. -/
def Pipe.free (p : Pipe) (k : Nat) : Nat := ((List.range 64).map (p.pcFree k)).foldl (· + ·) 0

/-- MIGRES as it decodes (R373). -/
def Part.migresOf (q : Part) : Nat := max q.migres 4480

/-- The pseudo-channel with the most free frames, the lower on a tie (R377), and its count. -/
def Pipe.bestPc (p : Pipe) (k : Nat) : Nat × Nat :=
  (List.range 64).foldl (fun b pc => let n := p.pcFree k pc; if n > b.2 then (pc, n) else b) (0, p.pcFree k 0)

/-- The highest frame from `f` down that is not in a list. DESIGN CHOICE, log 108. -/
def highestFree (used : List Nat) : Nat → Nat → Nat
  | 0, f => f
  | n + 1, f => if used.contains f then highestFree used n (f - 1) else f

/-- The frame of (k, pc) that a GENERAL page or a table takes: the spec leaves it open, and the highest free one leaves the
frames in which bank pages are likely to lie. DESIGN CHOICE, log 108. -/
def Pipe.freeFrame (p : Pipe) (k pc : Nat) : Nat :=
  highestFree (p.usedFrames k pc) (p.usedFrames k pc).length (pcFrames p.variant64 - reservedFrames k - 1)

/-- The GENERAL pages of a stack that hold frames, in frame order from the clock's position on (R378). -/
def Pipe.clockPages (p : Pipe) (k : Nat) : List (Nat × TierEnt) :=
  let mine := p.general.filter (fun e => e.2.home == k && e.2.st == .hbm && !e.2.pin && !e.2.plate)
  let ord := sortBy (fun a b => decide (a.2.pc * 2 ^ 14 + a.2.frame < b.2.pc * 2 ^ 14 + b.2.frame)) mine
  let c := (p.part k).clock
  ord.filter (fun e => decide (e.2.pc * 2 ^ 14 + e.2.frame ≥ c)) ++ ord.filter (fun e => decide (e.2.pc * 2 ^ 14 + e.2.frame < c))

/-- What the eviction of one page gave (R378): a frame at once, a write-back to wait for, or nothing to evict. -/
inductive Evicted where
  | freed | writeBack | nothing
  deriving DecidableEq, Repr

/-- The victim's treatment (R378). -/
def Pipe.evictPage (p : Pipe) (n : Nat) (e : TierEnt) : Pipe × Evicted :=
  if e.discard then (p.setTier (.gen n) { e with st := .zero, dirty := false, loc := none }, .freed)
  else if !e.dirty && e.loc.isSome then (p.setTier (.gen n) { e with st := .flash }, .freed)
  else
    let p1 := p.setTier (.gen n) { e with st := .out, dirty := false }
    (p1.modPart e.home (fun q => { q with flash := { q.flash with progs := q.flash.progs ++ [.page (.gen n)] } }), .writeBack)

/-- One pass of the eviction clock of stack k (R378). -/
def Pipe.evict (p : Pipe) (k : Nat) : Pipe × Evicted :=
  let c := p.clockPages k
  let pass := c.takeWhile (fun e => e.2.ref)
  let p1 := pass.foldl (fun p e => p.setTier (.gen e.1) { e.2 with ref := false }) p
  let victim := match c.drop pass.length with
    | v :: _ => some v
    | [] => c.head?
  match victim with
  | none => (p1, .nothing)
  | some v =>
    let p2 := p1.modPart k (fun q => { q with clock := v.2.pc * 2 ^ 14 + v.2.frame + 1 })
    p2.evictPage v.1 { v.2 with ref := false }

/-- What a request for a frame gave: the frame, a wait for a write-back, or no frame that can be freed (R382). -/
inductive FrameRes where
  | got (pc frame : Nat)
  | wait
  | fail
  deriving DecidableEq, Repr

/-- Frames of the reserve that the walk backing pages of a partition hold: 280 MiB while a GRAPH index is loaded (R328, R373, R374). -/
def Pipe.backing (p : Pipe) : Nat :=
  if p.handles.vals.any (fun l => match p.idx.get? l with | some x => x.desc.graph | none => false) then 4480 else 0

/-- Take a free frame of stack k, evicting when the free frames less MIGRES are gone (R377, R378). A move IN may take
a frame of the reserve (R373). -/
def Pipe.takeFrame (p : Pipe) (k : Nat) (moveIn : Bool) : Pipe × FrameRes :=
  let take := fun (p : Pipe) =>
    let b := p.bestPc k
    FrameRes.got b.1 (p.freeFrame k b.1)
  if p.free k > (p.part k).migresOf then (p, take p)
  else
    let (p1, r) := p.evict k
    let low := if moveIn then p.backing else 0
    if moveIn && p1.free k > low then (p1, take p1)
    else match r with
      | .freed => if p1.free k > low then (p1, take p1) else (p1, .fail)
      | .writeBack => (p1, .wait)
      | .nothing => (p1, .fail)

/-- How a command over pages stops. -/
inductive PageEnd where
  | done | wait | noSpace
  deriving DecidableEq, Repr

/-- The second-level table that covers a page (R369): its 16 frames are taken one by one from the stack of the HOME named.
DESIGN CHOICE, log 105. -/
def Pipe.needTable (p : Pipe) (t home : Nat) : Nat → Pipe × PageEnd
  | 0 => (p, .done)
  | n + 1 =>
    let x := p.tables.getD t (home, [])
    if x.2.length ≥ 16 then (p, .done)
    else match p.takeFrame x.1 false with
      | (p1, .got pc f) =>
        ({ p1 with hbm := p1.hbm.clear (hbmKey x.1 pc (65536 * f)) 65536, tables := p1.tables.set t (x.1, x.2 ++ [(pc, f)]) } : Pipe).needTable
          t home n
      | (p1, .wait) => (p1, .wait)
      | (p1, .fail) => ({ p1 with tables := p1.tables.erase t }, .noSpace)

/-! ## Writes of HBM from outside the near-bank units (R209, R210, R212, R213) -/

/-- An uncorrectable unit was met in pseudo-channel `u % 64` of stack `u / 64` (R212). -/
def Pipe.markUE (p : Pipe) (u : Nat) : Pipe :=
  { p.modPart (u / 64) (fun q => { q with ueBits := q.ueBits ||| (1#64 <<< (u % 64)) }) with
    out := p.out ++ [PipeOut.fault (16 * (u / 64))] }

/-- Units read with an error that the code corrects count in NBU_CE of their partitions (R211). -/
def Pipe.corrected (p : Pipe) (us : List Nat) : Pipe :=
  us.foldl (fun (p : Pipe) u => p.modPart (u / 2 ^ 31) (fun q => { q with ce := satAdd q.ce 1 })) p

/-- An interface read of the units of a list (R199, R211, R212): corrected ones count, uncorrectable ones set their bit and the fault
source; the partition of the first such. -/
def Pipe.readUnits (p : Pipe) (us : List Nat) : Pipe × Option Nat :=
  if p.poison.isEmpty && p.weak.isEmpty then (p, none)
  else
    let bad := us.filter p.poison.contains
    let p1 := p.corrected (us.filter (fun u => p.weak.contains u && !bad.contains u))
    (bad.foldl (fun (p : Pipe) u => p.markUE (u / 2 ^ 25)) p1, bad.head?.map (· / 2 ^ 31))

/-- The units of a range of HBM bytes. -/
def unitsIn (key n : Nat) : List Nat := if n = 0 then [] else (List.range ((key + n - 1) / 32 - key / 32 + 1)).map (key / 32 + ·)

/-- The units behind a range of the index address space. -/
def Pipe.iasUnits (p : Pipe) (a n : Nat) : List Nat :=
  if p.poison.isEmpty && p.weak.isEmpty then [] else ((List.range n).filterMap (fun i => (p.iasKey (a + i)).map (· / 32))).eraseDups

/-- Raw errors arise in units of the stacks, true where the code corrects them (R209). -/
def Pipe.rawErrors (p : Pipe) (us : List (Nat × Bool)) : Pipe :=
  if us.isEmpty then p
  else { p with
    poison := (us.filter (fun u => !u.2 && !p.poison.contains u.1)).map Prod.fst ++ p.poison,
    weak := (us.filter (fun u => u.2 && !p.weak.contains u.1)).map Prod.fst ++ p.weak }

/-- Write bytes: a whole unit replaces an uncorrectable one, a part of one is not performed; either way a corrected error is gone
(R210, R211, R213). DEDUCED, log 163. -/
def Pipe.hbmWrite (p : Pipe) (key : Nat) (bs : List Byte) : Pipe :=
  if p.poison.isEmpty && p.weak.isEmpty then { p with hbm := p.hbm.writeN key bs }
  else
    let us := (unitsIn key bs.length).filter (fun _ => !bs.isEmpty)
    let part := us.filter (fun u => p.weak.contains u && !p.poison.contains u
      && (decide (32 * u < key) || decide (key + bs.length < 32 * u + 32)))
    let p := { p.corrected part with weak := p.weak.filter (fun u => !us.contains u || p.poison.contains u) }
    let hit := p.poison.filter (fun u => decide (32 * u < key + bs.length) && decide (key < 32 * u + 32))
    let kept := hit.filter (fun u => decide (32 * u < key) || decide (key + bs.length < 32 * u + 32))
    let mem := kept.foldl (fun (m : Mem) u => m.writeN (32 * u) (p.hbm.readN (32 * u) 32)) (p.hbm.writeN key bs)
    kept.foldl (fun (p : Pipe) u => p.markUE (u / 2 ^ 25))
      { p with hbm := mem, poison := p.poison.filter (fun u => !hit.contains u || kept.contains u) }

/-- No unit of a range is uncorrectable any more. DEDUCED, log 163. -/
def Pipe.cleanUnits (p : Pipe) (key n : Nat) : Pipe :=
  if p.poison.isEmpty && p.weak.isEmpty then p
  else
    let keep := fun (u : Nat) => !(decide (key ≤ 32 * u) && decide (32 * u < key + n))
    { p with poison := p.poison.filter keep, weak := p.weak.filter keep }

/-- Zero a range of whole units. -/
def Pipe.hbmClear (p : Pipe) (key n : Nat) : Pipe :=
  let p1 := p.cleanUnits key n
  { p1 with hbm := p1.hbm.clear key n }

/-- Copy a range of whole units from another memory. -/
def Pipe.hbmFill (p : Pipe) (src : Mem) (a key n : Nat) : Pipe :=
  let p1 := p.cleanUnits key n
  { p1 with hbm := src.copyTo a n p1.hbm key }

/-- Copy a frame within HBM: a unit that could not be read stays uncorrectable in the copy (R213). -/
def Pipe.hbmMove (p : Pipe) (a key n : Nat) : Pipe :=
  let bad := (p.poison.filter (fun u => decide (a ≤ 32 * u) && decide (32 * u < a + n))).map (fun u => (32 * u - a + key) / 32)
  let p := p.corrected (p.weak.filter (fun u => decide (a ≤ 32 * u) && decide (32 * u < a + n)))
  let p1 := p.hbmFill p.hbm a key n
  if bad.isEmpty then p1 else { p1 with poison := p1.poison ++ bad }

/-! ## Moves and writes (R375, R377, R381) -/

/-- Count a frame exhaustion (R382). -/
def Pipe.exhausted (p : Pipe) (k : Nat) : Pipe := p.modPart k (fun q => { q with exhaust := q.exhaust + 1 })

/-- A GENERAL page's frame is exchanged for a free one of its stack; false when there is none. DEDUCED, log 110. -/
def Pipe.relocate (p : Pipe) (n : Nat) (e : TierEnt) : Pipe × Bool :=
  let b := p.bestPc e.home
  if b.2 = 0 then (p, false)
  else
    let f := p.freeFrame e.home b.1
    let p1 := p.hbmMove (hbmKey e.home e.pc (e.frame * 65536)) (hbmKey e.home b.1 (f * 65536)) 65536
    (p1.setTier (.gen n) { e with pc := b.1, frame := f }, true)

/-- The GENERAL page that holds a frame. -/
def Pipe.holder (p : Pipe) (k pc f : Nat) : Option (Nat × TierEnt) :=
  p.general.find? (fun g => g.2.holds && g.2.home == k && g.2.pc == pc && g.2.frame == f)

/-- A bank page takes its own frame (R372, R377): a GENERAL page that holds it is evicted first; a pinned one moves to another
frame. A frame of a table or of the reserve cannot be had. DEDUCED, log 110. -/
def Pipe.vacate (p : Pipe) (k pc f : Nat) : Pipe × FrameRes :=
  if f ≥ pcFrames p.variant64 - reservedFrames k || (p.tableFrames k pc).contains f then (p, .fail)
  else match p.holder k pc f with
    | none => (p, .got pc f)
    | some g =>
      if g.2.st ≠ .hbm then (p, .wait)
      else if g.2.pin || g.2.plate then
        (match p.relocate g.1 g.2 with
         | (p1, true) => (p1, .got pc f)
         | (p1, false) => (p1, .fail))
      else match p.evictPage g.1 g.2 with
        | (p1, .freed) => (p1, .got pc f)
        | (p1, _) => (p1, .wait)

/-- Begin to move a page IN (R377, R381): a page already moving shares the move, and a bank page in ZERO takes its frame at once
(R376). -/
def Pipe.moveIn (p : Pipe) (pg : PageId) : Pipe × FrameRes :=
  let e := p.tier pg
  let read := fun (p : Pipe) => p.modPart e.home (fun q => { q with flash := { q.flash with reads := q.flash.reads ++ [.page pg false] } })
  if e.st = .zero then
    match pg with
    | .gen _ => (p, .got e.pc e.frame)
    | .bank k pc f =>
      if p.fenced k then (p, .wait)
      else match p.vacate k pc f with
        | (p1, .got _ _) => ((p1.hbmClear (hbmKey k pc (f * 65536)) 65536).setTier pg { e with st := .hbm, dirty := true, ref := true }, .got pc f)
        | (p1, .wait) => (p1, .wait)
        | (p1, .fail) => (p1.exhausted k, .fail)
  else if e.st ≠ .flash then (p, .got e.pc e.frame)
  else if p.fenced e.home then (p, .wait)
  else match pg with
    | .gen _ =>
      match p.takeFrame e.home true with
      | (p1, .got pc f) => (read (p1.setTier pg { e with st := .in_, pc := pc, frame := f, dirty := false, ref := true }), .got pc f)
      | (p1, .wait) => (p1, .wait)
      | (p1, .fail) => (p1.exhausted e.home, .fail)
    | .bank k pc f =>
      match p.vacate k pc f with
      | (p1, .got _ _) => (read (p1.setTier pg { e with st := .in_, dirty := false, ref := true }), .got pc f)
      | (p1, .wait) => (p1, .wait)
      | (p1, .fail) => (p1.exhausted k, .fail)

/-- Ask for every page of a range that is on flash (R375, R383): did any find no frame? -/
def Pipe.want (p : Pipe) (a n : Nat) : Pipe × Bool :=
  (pagesOf p.variant64 a n).foldl (fun (acc : Pipe × Bool) pg =>
    if (acc.1.tier pg).here then acc else
    let (p1, r) := acc.1.moveIn pg
    (p1, acc.2 || (match r with | .fail => true | _ => false))) (p, false)

/-- What a write to the index address space did. -/
inductive WriteRes where
  | done | wait | noFrame
  deriving DecidableEq, Repr

/-- Plate addresses of a PLATE page's slot (R390). -/
def Pipe.plateSlot (p : Pipe) (n : Nat) : Option Nat := p.plateSlots.findIdx? (fun s => s == some n)

/-- Write bytes of one page (R375, R391, R680): `who` counts a dropped write. -/
def Pipe.pageWrite (p : Pipe) (who : Nat) (pg : PageId) (off : Nat) (bs : List Byte) : Pipe × WriteRes :=
  let e := p.tier pg
  let put := fun (p : Pipe) (e : TierEnt) =>
    let key := hbmKey e.home e.pc (e.frame * 65536 + off)
    let p1 := (p.setTier pg { e with st := .hbm, dirty := true, ref := true }).hbmWrite key bs
    match pg with
    | .gen n =>
      match if e.plate then p1.plateSlot n else none with
      | some sl =>
        { p1 with plate := (List.range 16).foldl (fun m c => m.writeN (c * 2 ^ 25 + 0x1100000 + 65536 * sl + off) bs) p1.plate }
      | none => p1
    | .bank _ _ _ => p1
  match e.st with
  | .unmapped => (p.modPart who (fun q => { q with dropped := q.dropped + 1 }), .done)
  | .zero =>
    (match pg with
     | .gen _ =>
       match p.takeFrame e.home false with
       | (p1, .got pc f) =>
         let p2 := p1.hbmClear (hbmKey e.home pc (f * 65536)) 65536
         (put p2 { e with pc := pc, frame := f }, .done)
       | (p1, .wait) => (p1, .wait)
       | (p1, .fail) => (p1.exhausted e.home, .noFrame)
     | .bank k pc f =>
       match p.vacate k pc f with
       | (p1, .got _ _) => (put (p1.hbmClear (hbmKey k pc (f * 65536)) 65536) e, .done)
       | (p1, .wait) => (p1, .wait)
       | (p1, .fail) => (p1.exhausted k, .noFrame))
  | .hbm | .out => (put p e, .done)
  | .flash =>
    (match p.moveIn pg with
     | (p1, .fail) => (p1, .noFrame)
     | (p1, _) => (p1, .wait))
  | .in_ => (p, .wait)

/-- Cut a write at the page boundaries: (address, bytes) of each part (`fuel` bounds the pages). -/
def cutPages : Nat → Nat → List Byte → List (Nat × List Byte)
  | 0, _, _ => []
  | _, _, [] => []
  | k + 1, a, bs =>
    let n := 65536 - a % 65536
    (a, bs.take n) :: cutPages k (a + n) (bs.drop n)

/-- The page and offset of an index address. -/
def pageAt (v64 : Bool) (a : Nat) : PageId × Nat :=
  match iaddr v64 a with
  | .general off => (.gen (off / 65536), off % 65536)
  | .bank k pc l => (.bank k pc (l / 65536), l % 65536)

/-- Write parts page by page; the bytes written, and what stopped it. DEDUCED, log 113. -/
def Pipe.writeParts (p : Pipe) (who : Nat) : List (Nat × List Byte) → Nat → Pipe × WriteRes × Nat
  | [], n => (p, .done, n)
  | (a, bs) :: rest, n =>
    match iaddr p.variant64 a with
    | .bank k pc l =>
      if l ≥ pcData p.variant64 + 0x100000 then
        (p.modPart who (fun q => { q with dropped := q.dropped + 1 })).writeParts who rest (n + bs.length)
      else if l ≥ pcData p.variant64 then
        (p.hbmWrite (hbmKey k pc l) bs).writeParts who rest (n + bs.length)
      else
        let (pg, off) := pageAt p.variant64 a
        match p.pageWrite who pg off bs with
        | (p1, .done) => p1.writeParts who rest (n + bs.length)
        | (p1, r) => (p1, r, n)
    | .general _ =>
      let (pg, off) := pageAt p.variant64 a
      match p.pageWrite who pg off bs with
      | (p1, .done) => p1.writeParts who rest (n + bs.length)
      | (p1, r) => (p1, r, n)

/-- Write a byte string into the index address space (R365, R375): its bytes written, and what stopped it. -/
def Pipe.iasWrite (p : Pipe) (who a : Nat) (bs : List Byte) : Pipe × WriteRes × Nat :=
  p.writeParts who (cutPages (bs.length / 65536 + 2) a bs) 0

/-- Perform the waiting writes that can now be performed, in order; `n` bounds the writes. DEDUCED, log 113. -/
def Pipe.flushLate (p : Pipe) : Nat → Pipe
  | 0 => p
  | n + 1 =>
    match p.late with
    | [] => p
    | (who, a, bs) :: rest =>
      match ({ p with late := rest }).iasWrite who a bs with
      | (p1, .done, _) => p1.flushLate n
      | (p1, .wait, k) => { p1 with late := (who, a + k, bs.drop k) :: rest }
      | (p1, .noFrame, _) => p1.flushLate n

/-- A write of the package's own (R375): it waits, behind earlier waiting writes, for a page that is not there. -/
def Pipe.iasPut (p : Pipe) (who a : Nat) (bs : List Byte) : Pipe :=
  let p1 := { p with late := p.late ++ [(who, a, bs)] }
  if p.late.isEmpty then p1.flushLate 1 else p1

/-! ## Charges (R459, R460) -/

/-- Count use of a resource in a partition against an activity. -/
def Pipe.count (p : Pipe) (k act res n : Nat) : Pipe :=
  p.modPart k (fun q => { q with sched := q.sched.charge act res n })

/-- Add to a job's use. -/
def Use.add (u : Use) (res n : Nat) : Use :=
  match res with
  | 0 => { u with nbu := u.nbu + n }
  | 1 => { u with array := u.array + n }
  | 2 => { u with hbm := u.hbm + n }
  | 3 => { u with flash := u.flash + n }
  | _ => { u with fabric := u.fabric + n }

/-- CHARGE of a job (R460). -/
def Use.charge (u : Use) : Nat :=
  min sat32Max (ceilDiv u.nbu 4096 + ceilDiv u.array 64000 + ceilDiv u.hbm 4096 + 8 * u.flash + ceilDiv u.fabric 4096)

/-- Change one job. -/
def Pipe.modJob (p : Pipe) (j : Nat) (f : Job → Job) : Pipe := { p with jobs := p.jobs.adj j f }

/-- Charge a job for use in partition k (R459, R460): to the activity's budget there, and to the job. -/
def Pipe.charge (p : Pipe) (j k res n : Nat) : Pipe :=
  match p.jobs.get? j with
  | none => p
  | some jb => (p.count k jb.act res n).modJob j (fun jb => { jb with use := jb.use.add res n })

end Sys2Proof.Machine
end

