-- ==== Sys2Proof/Machine/Extents.lean ====
section
/-!
DEFINITION. Sys2Proof/Machine/Extents.lean: where the units of an extent lie in the flash, the extent map and its entries
(R395, R397, R398, R401 to R405).
-/
namespace Sys2Proof.Machine

/-! ## The extent map (R401 to R405) -/

/-- Data units of an extent, and of one of its rows (R397). -/
def extUnits : Nat := 96768
def rowUnits : Nat := 252

/-- An extent that no entry lists: FREE on its own blocks, never erased (R401, R403). -/
def Extent.fresh (n : Nat) : Extent :=
  { st := .free, role := .data, block := 16 + n, plun := 0, oseq := 0, fill := 0, live := 0, pec := 0,
    remaps := [none, none, none], marked := false, readers := [], waits := [] }

/-- An extent map entry, and writing it. -/
def FlashPart.ext (f : FlashPart) (n : Nat) : Extent := f.exts.getD n (Extent.fresh n)
def FlashPart.setExt (f : FlashPart) (n : Nat) (x : Extent) : FlashPart := { f with exts := f.exts.set n x }
def FlashPart.modExt (f : FlashPart) (n : Nat) (g : Extent → Extent) : FlashPart := f.setExt n (g (f.ext n))

/-- The code of STATE, and of ROLE (R403). -/
def ExtSt.code : ExtSt → Nat
  | .free => 0 | .open_ => 1 | .sealed => 2 | .moving => 3 | .retiring => 4 | .retired => 5
def extStOf : Nat → ExtSt
  | 0 => .free | 1 => .open_ | 2 => .sealed | 3 => .moving | 4 => .retiring | _ => .retired
def ExtRole.code : ExtRole → Nat
  | .data => 0 | .log => 1 | .page => 2
def extRoleOf : Nat → ExtRole
  | 1 => .log | 2 => .page | _ => .data

/-- A remap slot's 32 bits (R403). -/
def remapWord : Option (Nat × Nat) → Nat
  | none => 0
  | some (pos, b) => pos % 64 + 64 + 256 * (b % 2 ^ 14)
def remapOf (w : Nat) : Option (Nat × Nat) := if bitsOf w 6 1 = 1 then some (bitsOf w 0 6, bitsOf w 8 14) else none

/-- The 32 bytes of an extent map entry (R403). -/
def Extent.bytes (x : Extent) : List Byte :=
  packBytes 32 [(3, x.st.code), (2, x.role.code), (3, 0), (14, x.block), (6, x.plun), (4, 0), (32, x.oseq),
    (17, min x.fill extUnits), (15, 0), (17, min x.live extUnits), (15, 0), (16, min x.pec 0xFFFF), (16, 0),
    (32, remapWord (x.remaps.getD 0 none)), (32, remapWord (x.remaps.getD 1 none)), (32, remapWord (x.remaps.getD 2 none))]

/-- The entry that 32 bytes hold, with every reserved code decoded as its row says (R403). -/
def Extent.ofBytes (bs : List Byte) : Extent :=
  { st := extStOf (field bs 0 3), role := extRoleOf (field bs 3 2), block := field bs 8 14, plun := field bs 22 6,
    oseq := field bs 32 32, fill := min (field bs 64 17) extUnits, live := min (field bs 96 17) extUnits,
    pec := field bs 128 16, remaps := [remapOf (field bs 160 32), remapOf (field bs 192 32), remapOf (field bs 224 32)],
    marked := false, readers := [], waits := [] }

/-- Does a locator name a unit (R404)? -/
def FlashPart.okLoc (f : FlashPart) (e u : Nat) : Bool :=
  decide (e < f.next) && (f.ext e).st != .free && (f.ext e).st != .retired && decide (u < (f.ext e).fill)

/-! ## Where a unit lies (R395, R397, R398, R402) -/

/-- LUN position p of partition k: its channel, chip enable and LUN (R395). -/
def lunPlace (k p : Nat) : Nat × Nat × Nat := (2 * k + p % 2, p / 8, p / 2 % 4)

/-- Row and LUN position of a data unit, and the parity position of a row (R397, R398). -/
def unitRow (u : Nat) : Nat := u / 252
def unitPos (x : Extent) (u : Nat) : Nat := (x.plun + u / 252 + 1 + u % 252 / 4) % 64
def Extent.parityPos (x : Extent) (w : Nat) : Nat := (x.plun + w) % 64

/-- The block that a position of an extent uses: the spare of its lowest valid remap, or BLOCK, of which a build with fewer
LUNs puts 64 ÷ L in a row on each LUN (R398, R402, R403). -/
def Extent.blockAt (x : Extent) (luns pos : Nat) : Nat :=
  match x.remaps.findSome? (fun r => r.filter (fun m => m.1 == pos)) with
  | some m => m.2
  | none => x.block * (64 / luns) + pos / luns

/-- Key of a block of a LUN in the flash: channel, chip enable, LUN and block, of 384 pages with 4 units each (R394). -/
def blockKey (k lun block : Nat) : Nat :=
  let (c, ce, l) := lunPlace k lun
  (((c * 8 + ce) * 4 + l) * 2 ^ 16 + block) * (384 * 16384)
def blockBytes : Nat := 384 * 16384

/-- Key of the block that a position of extent `e` uses, of a unit of a page of it, and of a data unit. -/
def FlashPart.posKey (f : FlashPart) (k e pos : Nat) : Nat := blockKey k (pos % f.luns) ((f.ext e).blockAt f.luns pos)
def FlashPart.cellKey (f : FlashPart) (k e pos row cw : Nat) : Nat := f.posKey k e pos + (4 * row + cw) * 4096
def FlashPart.unitKey (f : FlashPart) (k e u : Nat) : Nat := f.cellKey k e (unitPos (f.ext e) u) (unitRow u) (u % 4)

/-- The flash controller of a partition. -/
def Pipe.flash (p : Pipe) (k : Nat) : FlashPart := (p.part k).flash

/-- Byte `b` counted from a unit's first, and a byte string from there. -/
def Pipe.flashByte (p : Pipe) (k e u b : Nat) : Byte := p.media.read ((p.flash k).unitKey k e (u + b / 4096) + b % 4096)
def Pipe.flashGet (p : Pipe) (k e u n : Nat) : List Byte := (List.range n).map (p.flashByte k e u)

/-- Copy `n` units into another memory. -/
def Pipe.flashCopy (p : Pipe) (k e u n : Nat) (dst : Mem) (key : Nat) : Mem :=
  (List.range n).foldl (fun d i => p.media.copyTo ((p.flash k).unitKey k e (u + i)) 4096 d (key + 4096 * i)) dst

/-- Fill whole units of HBM from `n` units. -/
def Pipe.flashFill (p : Pipe) (k e u n key : Nat) : Pipe :=
  let p1 := p.cleanUnits key (4096 * n)
  { p1 with hbm := p1.flashCopy k e u n p1.hbm key }

/-- Write a byte string from a unit on, the rest of its last unit zero. -/
def Pipe.flashWrite (p : Pipe) (k e u n : Nat) (bs : List Byte) : Pipe :=
  { p with media := (List.range n).foldl (fun (m : Mem) i =>
      let key := (p.flash k).unitKey k e (u + i)
      (m.clear key 4096).writeN key ((bs.drop (4096 * i)).take 4096)) p.media }

end Sys2Proof.Machine
end

