-- ==== Sys2Proof/Machine/Selection.lean ====
section
/-!
DEFINITION. Sys2Proof/Machine/Selection.lean: the selection unit on one request (chapter 08).
-/
namespace Sys2Proof.Machine

/-- A canonical score (R261). -/
def canonical (neg : Bool) (w : W32) : W32 :=
  let a := if neg then w ^^^ 0x80000000#32 else w
  if f32IsNan a then 0x7FC00000#32 else if a = 0x80000000#32 then 0#32 else a

/-- Does `a` precede `b` by the first four parts of the key (R260)? -/
def entBefore4 (a b : SelEnt) : Bool :=
  let na := f32IsNan a.score
  let nb := f32IsNan b.score
  if na != nb then nb
  else if !na && f32Lt a.score b.score then true
  else if !na && f32Lt b.score a.score then false
  else if a.part ≠ b.part then decide (a.part < b.part)
  else decide (a.id < b.id)

/-- Does `a` precede `b` by the whole key (R260)? -/
def entBefore (a b : SelEnt) : Bool := entBefore4 a b || (!entBefore4 b a && decide (a.pos < b.pos))

/-- Does an entry take part under THRESH (R263)? -/
def takesPart (thresh s : W32) : Bool :=
  let t := threshOf thresh
  t == f32PosInf || f32Lt s t

/-- The exact value of a score in units of 2^-149, infinities as the largest finite value, NaN as nothing (R275). -/
def exactUnits (w : W32) : Int :=
  match f32 w with
  | .nan => 0
  | .inf neg => sgnMant neg ((2 ^ 24 - 1) * 2 ^ (104 + 149))
  | .fin neg m e => sgnMant neg (m * 2 ^ (e + 149).toNat)

/-- An exact sum rounded once to fp32 (R275). -/
def roundUnits (x : Int) : W32 := if x = 0 then 0#32 else f32Sat (ofInt x (-149) false)

/-- Insert in key order. -/
def entInsert (x : SelEnt) : List SelEnt → List SelEnt
  | [] => [x]
  | y :: ys => if entBefore x y then x :: y :: ys else y :: entInsert x ys

/-- Sort by key. -/
def entSort (l : List SelEnt) : List SelEnt := l.foldr entInsert []

/-- Positions renumbered in list order. -/
def rePos (l : List SelEnt) : List SelEnt := l.mapIdx (fun i e => { e with pos := i })

/-- Prune a collect list to its K best, kept in list order, by the K-th key (R271, R272). -/
def SelReq.prune (r : SelReq) : SelReq :=
  let sorted := entSort r.entries
  match sorted[r.k - 1]? with
  | none => r
  | some kth =>
    let keep := r.entries.filter (fun e => !entBefore kth e)
    let left := r.entries.filter (fun e => entBefore kth e)
    { r with entries := rePos keep, bound := some kth, boundReg := kth.score,
             outX := left.foldl (fun x e => x + exactUnits e.score) r.outX }

/-- The register mode's BOUND: the K-th score held, or +infinity (R272). -/
def SelReq.regBound (r : SelReq) : SelReq :=
  { r with boundReg := match r.entries[r.k - 1]? with | some e => e.score | none => f32PosInf }

/-- One entry taken by an OPEN request; `canon` for an entry of a forwarded run (R261, R263, R268, R269, R271). -/
def SelReq.takeEntry (r : SelReq) (canon : Bool) (score : W32) (part id : Nat) : SelReq :=
  let s := if canon then score else canonical r.neg score
  let r := { r with delivered := min (r.delivered + 1) sat32Max, arrivals := r.arrivals + 1 }
  let out := { r with outX := r.outX + exactUnits s }
  if !takesPart r.thresh s then out
  else
    let nan := f32IsNan s
    let r := if nan then { r with nancnt := min (r.nancnt + 1) 65535 } else r
    let out := { r with outX := r.outX + exactUnits s }
    if r.compact then
      if r.entries.length < r.k then { r with entries := r.entries ++ [⟨s, part, id, r.entries.length⟩] }
      else { out with dropped := min (r.dropped + 1) sat32Max }
    else if r.k ≤ 256 then
      let es := entInsert ⟨s, part, id, r.arrivals⟩ r.entries
      if es.length > r.k then
        let lost := es.getLast?
        { r with entries := es.dropLast,
                 outX := match lost with | some e => r.outX + exactUnits e.score | none => r.outX }
      else { r with entries := es }
    else
      let e : SelEnt := ⟨s, part, id, r.entries.length⟩
      match r.bound with
      | some b =>
        if entBefore4 e b then
          let r1 := { r with entries := r.entries ++ [e] }
          if r1.entries.length ≥ 2 * r.k then r1.prune else r1
        else out
      | none =>
        let r1 := { r with entries := r.entries ++ [e] }
        if r1.entries.length ≥ 2 * r.k then r1.prune else r1

/-- A block taken in order (R266, R272). -/
def SelReq.takeBlock (r : SelReq) (b : SelBlock) : SelReq :=
  let r1 := b.entries.foldl (fun r e => r.takeEntry (b.src == .run) e.1 e.2.1 e.2.2) r
  let r2 := match b.runEnd with
    | some so => { r1 with outX := r1.outX + exactUnits so, runs := min (r1.runs + 1) 65535 }
    | none => r1
  if r2.compact || r2.k > 256 then r2 else r2.regBound

/-- The passes of CLOSE over a collect list (R273): the output so far, then further passes (`fuel` at most 64). -/
def closePasses (k : Nat) (l : List SelEnt) : Nat → Option SelEnt → List SelEnt → Nat → List SelEnt × Nat
  | 0, _, out, p => (out, p)
  | fuel + 1, excl, out, p =>
    let take := min 256 (k - out.length)
    let cand := match excl with
      | none => l
      | some x => l.filter (fun e => entBefore x e)
    let reg := (entSort cand).take take
    let out' := out ++ reg
    if reg.length < take || out'.length = k then (out', p + 1)
    else closePasses k l fuel reg.getLast? out' (p + 1)

/-- CLOSE completes the selection (R268, R269, R273, R275). -/
def SelReq.close (r : SelReq) : SelReq :=
  let (sel, passes) :=
    if r.compact then (r.entries, 0)
    else if r.k ≤ 256 then (r.entries, 0)
    else closePasses r.k r.entries 64 none [] 0
  let left := r.entries.filter (fun e => !sel.contains e)
  let outX := left.foldl (fun x e => x + exactUnits e.score) r.outX
  let selX := sel.foldl (fun x e => x + exactUnits e.score) 0
  { r with state := .done, count := sel.length, passes := passes, result := sel, outX := outX,
           sumSel := roundUnits selX, sumOut := roundUnits outX }

/-- BOUND brings the bound up to date (R272). -/
def SelReq.makeBound (r : SelReq) : SelReq :=
  if r.state ≠ .opened || r.compact then r
  else if r.k ≤ 256 then r.regBound
  else if r.entries.length > r.k then r.prune
  else if r.entries.length = r.k then
    match (entSort r.entries)[r.k - 1]? with
    | some e => { r with bound := some e, boundReg := e.score }
    | none => r
  else r

/-- A K field as it decodes: 0 as 1, above 16,384 as 16,384 (R264 and the query descriptor). -/
def k16384 (v : Nat) : Nat := if v = 0 then 1 else if v > 16384 then 16384 else v

/-- OPEN with the RO fields of a record (R264, R265). -/
def selFromRecord (b : List Byte) : SelReq :=
  { SelReq.reset with
    state := .opened, compact := fbit b 6, neg := fbit b 7, cls := field b 8 2, fwd := fbit b 10,
    idmapEn := fbit b 11, defPart := field b 12 4, k := k16384 (field b 16 15), thresh := BitVec.ofNat 32 (le32 b 4),
    list := field b 64 25 / 4096 * 4096, out := field b 96 25 / 16 * 16, idmap := field b 128 25 / 2048 * 2048,
    fcore := field b 156 4, freq := field b 160 12 }

/-- STATE as its code (R264). -/
def SelState.code : SelState → Nat
  | .idle => 0 | .opened => 1 | .closing => 2 | .done => 3

/-- Byte 0 of a record after the unit's write: CTL cleared, STATE, and the program's MODE and NEG (R264). -/
def selByte0 (old : Byte) (r : SelReq) : Byte := BitVec.ofNat 8 (old.toNat / 64 * 64 + 8 * r.state.code)

/-- The WO fields of a record, bytes 24 to 54 (R264). -/
def selWoBytes (r : SelReq) : List Byte :=
  packBytes 31 [(32, r.delivered), (32, r.dropped), (16, r.count), (16, r.nancnt), (32, r.sumSel.toNat),
    (32, r.sumOut.toNat), (32, r.boundReg.toNat), (8, r.passes), (16, r.runs), (32, r.late)]

/-- An output entry (R267 table). -/
def selOutBytes (e : SelEnt) : List Byte :=
  packBytes 16 [(32, e.score.toNat), (32, e.id), (4, e.part), (1, b2n (f32IsNan e.score))]

/-- A firmware request record's own RO bytes, so that the table in plate memory shows what the unit runs. -/
def selRecBytes (r : SelReq) : List Byte :=
  packBytes 24 [(3, 0), (3, r.state.code), (1, b2n r.compact), (1, b2n r.neg), (2, r.cls), (1, b2n r.fwd),
    (1, b2n r.idmapEn), (4, r.defPart), (15, r.k), (1, 0), (32, r.thresh.toNat), (25, r.list), (7, 0), (25, r.out),
    (7, 0), (25, r.idmap), (3, 0), (4, r.fcore), (12, r.freq)]

/-- The blocks of a forwarded run: up to 16 entries each, the last carrying the run end (R274). -/
def runBlocks (r : SelReq) : List SelBlock :=
  let es := (if r.compact then entSort r.result else r.result).map (fun e => (e.score, e.part, e.id))
  let bs := chunks 16 (es.length + 1) es
  let bs := if bs.isEmpty then [[]] else bs
  bs.mapIdx (fun i b =>
    { target := r.freq, src := .run, entries := b,
      runEnd := if i + 1 = bs.length then some r.sumOut else none, job := r.job, mapped := false })

end Sys2Proof.Machine
end

