-- ==== Sys2Proof/Machine/Objects.lean ====
section
/-!
DEFINITION. Sys2Proof/Machine/Objects.lean: the index objects in the index address space: descriptors, cluster lists,
graph headers, pieces, ordinal maps, item directories and embedding tables (chapters 09 to 11).
-/
namespace Sys2Proof.Machine

/-! ## Descriptors -/

/-- Decode an index descriptor (R281 tables). -/
def decodeIDesc (b : List Byte) : IDesc :=
  let m := field b 4 3
  let d := field b 8 14
  let g := le32 b 56 / 256 * 256
  { graph := field b 0 2 == 1, metric := if m ≤ 3 then m else 0, dim := if d = 0 then 1 else min d 8192,
    kslot := field b 24 4, nprobe := k16384 (field b 32 15), ncand := k16384 (field b 48 15), beam := max 1 (field b 64 8),
    hops := 16 * max 1 (field b 72 8), dirlog := max 10 (field b 80 5), cmppct := min (field b 88 7) 100,
    nclust := min (le32 b 12) 16777216, drpAddr := le64 b 16, centAddr := le64 b 24, clAddr := le64 b 32,
    classAddr := le64 b 40, dirBase := le64 b 48, growCap := if g = 0 then 256 else g }

/-- Decode an embedding table's descriptor and its remote range table (R345 tables, R348). -/
def decodeETab (handle : Nat) (b rtab : List Byte) : ETab :=
  let d := field b 4 14
  { handle := handle, int4 := field b 0 2 == 1, dim := if d = 0 then 1 else min d 8192, slog := min (field b 20 5) 20,
    nrows := le32 b 4, rowBase := le32 b 8, cbase := le32 b 16 / 32 * 32, sbase := le32 b 20 / 32 * 32,
    remote := (List.range (min (field b 192 7) 64)).map (fun i =>
      (le32 rtab (16 * i), le32 rtab (16 * i + 4), field rtab (128 * i + 64) 18)) }

/-- Bytes of an embedding table's code row (R346). -/
def ETab.rowb (t : ETab) : Nat := if t.int4 then ceilDiv t.dim 64 * 32 else ceilDiv t.dim 32 * 32

/-- Where a row id lies (R347, R348): partition, pseudo-channel and index of a local row; a remote range's number and
connection; or nowhere. -/
inductive RowPlace where
  | local_ (part pc i : Nat)
  | remote (range conn : Nat)
  | out
  deriving DecidableEq, Repr

/-- The place of a row id (R347, R348). -/
def ETab.place (t : ETab) (r : Nat) : RowPlace :=
  if t.rowBase ≤ r && r < t.rowBase + t.nrows then
    let l := r - t.rowBase
    let s := l / 2 ^ t.slog
    .local_ (s % 16) (s / 16 % 64) (s / 1024 * 2 ^ t.slog + l % 2 ^ t.slog)
  else
    match t.remote.findIdx? (fun x => decide (x.1 ≤ r) && decide (r < x.2.1)) with
    | some i => .remote i ((t.remote[i]?).map (fun x => x.2.2) |>.getD 0)
    | none => .out

/-! ## Pieces -/

/-- Key of a local address taken as R202 gives. -/
def Pipe.loc (p : Pipe) (k pc a : Nat) : Nat := hbmKey k pc (a % pcBytes p.variant64)

/-- A byte of a bank page as firmware knows it: in its frame, or in its flash copy once it has been spilled (R380). -/
def Pipe.bankByte (p : Pipe) (k pc a : Nat) : Byte :=
  let l := a % pcBytes p.variant64
  let e := p.tier (.bank k pc (l / 65536))
  if e.st = .flash || e.st = .in_ then
    match e.loc with
    | some (ex, po) => p.flashByte k ex (16 * po) (l % 65536)
    | none => 0#8
  else p.hbm.read (hbmKey k pc l)

def Pipe.bankRead (p : Pipe) (k pc a n : Nat) : List Byte := (List.range n).map (fun i => p.bankByte k pc (a + i))

/-- The units behind a range of a pseudo-channel, while its page lies in its frame. -/
def Pipe.bankUnits (p : Pipe) (k pc a n : Nat) : List Nat :=
  if p.poison.isEmpty && p.weak.isEmpty then []
  else ((List.range n).filterMap (fun i =>
    let l := (a + i) % pcBytes p.variant64
    let e := p.tier (.bank k pc (l / 65536))
    if e.st = .flash || e.st = .in_ then none else some (hbmKey k pc l / 32))).eraseDups

/-- A piece header as firmware and the I/O dies read it (R207). -/
def Pipe.hdrAt (p : Pipe) (k pc a : Nat) : PieceHdr := decodeHdr (p.bankRead k pc (a / 64 * 64) 64)

/-- Bank pages of a range of local addresses of one pseudo-channel. -/
def Pipe.bankPages (p : Pipe) (k pc a n : Nat) : List PageId :=
  if n = 0 then []
  else
    let l := a % pcBytes p.variant64
    (List.range ((l + n - 1) / 65536 - l / 65536 + 1)).filterMap (fun i =>
      if l / 65536 + i < pcFrames p.variant64 then some (.bank k pc (l / 65536 + i)) else none)

/-- The filter slices of a piece (R293): filter number and local address. -/
def Pipe.slices (p : Pipe) (k pc : Nat) (h : PieceHdr) : List (Nat × Nat) :=
  (List.range 4096).filterMap (fun f =>
    let d := leNat (p.bankRead k pc (h.fdir + 4 * f) 4)
    if bitsOf d 30 2 = 1 then some (f, 64 * bitsOf d 0 26) else none)

/-- The graph area of a graph piece, link records and neighbour blocks (R324); the ADJ field of any other piece is ignored
(R323). DEDUCED, log 182. -/
def Pipe.graphArea (p : Pipe) (k pc a : Nat) (h : PieceHdr) : List (Nat × Nat) :=
  if h.adj = 0xFFFFFFFF then []
  else match p.idx.vals.findSome? (fun x => (x.nodes.find? (fun n => n.1 == (k, pc, a))).map Prod.snd) with
    | some n => [(h.adj, 32 * h.cap + 128 * n)]
    | none => []

/-- The regions of a pseudo-channel that a piece takes, (local address, bytes): header, codes, scale entries, records,
directory and slices, and the graph area of a graph piece. -/
def Pipe.pieceRegions (p : Pipe) (k pc a : Nat) : List (Nat × Nat) :=
  let h := p.hdrAt k pc a
  [(a / 64 * 64, 64), (h.codes, h.cap * h.codeb), (h.scales, 4 * h.cap), (h.records, 32 * h.cap), (h.fdir, 16384)]
  ++ (p.slices k pc h).map (fun s => (s.2, 32 * ceilDiv h.cap 256))
  ++ p.graphArea k pc a h

/-- The page span of a piece and its slices (R376, R380). -/
def Pipe.pieceSpan (p : Pipe) (k pc a : Nat) : List PageId :=
  ((p.pieceRegions k pc a).flatMap (fun r => p.bankPages k pc r.1 r.2)).eraseDups

/-- Is a page there: its state lets it be read (R375), and a bank page, which an NBU reads in its frame, is not ZERO (R376)? -/
def Pipe.pageHere (p : Pipe) (pg : PageId) : Bool :=
  (p.tier pg).here && !(match pg with | .bank _ _ _ => (p.tier pg).st == .zero | .gen _ => false)

/-- Are all pages of a list there (R375)? -/
def Pipe.pagesHere (p : Pipe) (l : List PageId) : Bool := l.all p.pageHere

/-- The partition of the first page of a list that cannot come in because it is fenced (R47). -/
def Pipe.lostAt (p : Pipe) (l : List PageId) : Option Nat :=
  (l.find? (fun pg => !p.pageHere pg && p.fenced (p.tier pg).home)).map (fun pg => (p.tier pg).home)

/-- Ask for the pages of a list (R377, R383): did one find no frame? -/
def Pipe.wantPages (p : Pipe) (l : List PageId) : Pipe × Bool :=
  l.foldl (fun (acc : Pipe × Bool) pg =>
    if acc.1.pageHere pg then acc else
    let (p1, r) := acc.1.moveIn pg
    (p1, acc.2 || (match r with | .fail => true | _ => false))) (p, false)

/-! ## Cluster lists and graph headers (R286, R322) -/

/-- A cluster list entry. -/
structure ClEnt where
  owner : Nat
  npiece : Nat
  active : Nat
  ptab : Nat
  switch : Nat
  deriving DecidableEq, Repr

/-- Decode a cluster list entry. -/
def decodeCl (b : List Byte) : ClEnt :=
  let n := field b 8 8
  let a := field b 16 8
  { owner := field b 0 4, npiece := n, active := if a ≥ n then n - 1 else a, ptab := le64 b 4, switch := le32 b 12 }

/-- The bytes of a cluster list entry. -/
def ClEnt.bytes (c : ClEnt) : List Byte :=
  packBytes 32 [(4, c.owner), (4, 0), (8, c.npiece), (8, c.active), (8, 0), (64, c.ptab), (32, c.switch)]

/-- Address of a cluster's entry, and the entry. -/
def IdxCopy.clAddr (x : IdxCopy) (j : Nat) : Nat := x.desc.clAddr + 32 * j
def Pipe.cluster (p : Pipe) (x : IdxCopy) (j : Nat) : ClEnt := decodeCl (p.iasRead (x.clAddr j) 32)

/-- A graph partition entry (R322). -/
structure GEnt where
  ptab : Nat
  npiece : Nat
  fringe : Nat
  active : Nat
  /-- entry blocks: (block, piece). -/
  ents : List (Nat × Nat)
  raw : List Byte
  deriving DecidableEq, Repr

/-- Decode a graph partition entry. -/
def decodeGr (b : List Byte) : GEnt :=
  let n := le16 b 8
  let f := le16 b 10
  let a := le16 b 12
  { ptab := le64 b 0, npiece := n, fringe := min f n, active := if a < f || a ≥ n then n - 1 else a,
    ents := (List.range (min (field b 112 3) 4)).map (fun i => (le16 b (16 + 4 * i), le16 b (18 + 4 * i))), raw := b }

/-- Address of a subgraph's entry, and the entry. -/
def IdxCopy.grAddr (x : IdxCopy) (k : Nat) : Nat := x.desc.clAddr + 32 * k
def Pipe.subgraph (p : Pipe) (x : IdxCopy) (k : Nat) : GEnt := decodeGr (p.iasRead (x.grAddr k) 32)

/-- The piece references of a piece table: (pseudo-channel, header address). -/
def Pipe.pieceTab (p : Pipe) (ptab n : Nat) : List (Nat × Nat) :=
  let b := p.iasRead ptab (8 * n)
  (List.range n).map (fun i => (field b (64 * i) 6, le32 b (8 * i + 4) / 64 * 64))

/-- The block references of a link record or its like: (block, piece) (R324). -/
def blockRefs (b : List Byte) (n : Nat) : List (Nat × Nat) := (List.range n).map (fun i => (le16 b (4 * i), le16 b (4 * i + 2)))

/-- The references of the link record at a local address (R324). -/
def Pipe.linkAt (p : Pipe) (k pc a : Nat) : List (Nat × Nat) :=
  let l := p.bankRead k pc a 32
  blockRefs (l.drop 8) (min (field l 0 3) 4)

/-- The graph pieces of the unfenced subgraphs of an index, with as many neighbour blocks as a link record or an entry names
(R322 to R325). DEDUCED, log 182. -/
def Pipe.graphPieces (p : Pipe) (x : IdxCopy) : List (PieceRef × Nat) :=
  if !x.desc.graph then []
  else ((List.range 16).filter (fun k => !p.fenced k)).flatMap (fun k =>
    let g := p.subgraph x k
    let tab := (p.pieceTab g.ptab g.npiece).take g.fringe
    let refs := g.ents ++ tab.flatMap (fun r =>
      let h := p.hdrAt k r.1 r.2
      if h.adj = 0xFFFFFFFF then [] else (List.range (min h.tail h.cap)).flatMap (fun n => p.linkAt k r.1 (h.adj + 32 * n)))
    tab.mapIdx (fun i r => ((k, r.1, r.2), (refs.filter (fun y => y.2 == i)).foldl (fun m y => max m (y.1 + 1)) 0)))

/-- A load knows the graph pieces of its index. -/
def Pipe.learnNodes (p : Pipe) (l : Nat) : Pipe :=
  match p.idx.get? l with
  | none => p
  | some x => { p with idx := p.idx.set l { x with nodes := p.graphPieces x } }

/-- The piece references of an index: owner, pseudo-channel, header (R288). -/
def Pipe.allPieces (p : Pipe) (x : IdxCopy) : List PieceRef :=
  if x.desc.graph then
    (List.range 16).flatMap (fun k =>
      let g := p.subgraph x k
      (p.pieceTab g.ptab g.npiece).map (fun r => (k, r.1, r.2)))
  else
    (List.range x.desc.nclust).flatMap (fun j =>
      let c := p.cluster x j
      (p.pieceTab c.ptab c.npiece).map (fun r => (c.owner, r.1, r.2)))

/-- Byte ranges of the list that names an index's pieces, and of their tables. -/
def IdxCopy.listRange (x : IdxCopy) : Nat × Nat := (x.desc.clAddr, 32 * (if x.desc.graph then 16 else x.desc.nclust))
def Pipe.tabRanges (p : Pipe) (x : IdxCopy) : List (Nat × Nat) :=
  (if x.desc.graph then (List.range 16).map (fun k => let g := p.subgraph x k; (g.ptab, 8 * g.npiece))
   else (List.range x.desc.nclust).map (fun j => let c := p.cluster x j; (c.ptab, 8 * c.npiece))).filter (fun r => decide (r.2 > 0))

/-! ## Ordinal maps and records (R288, R290) -/

/-- Where an ordinal's record lies: pseudo-channel, header address, header, entry number (R288). -/
def Pipe.resolve (p : Pipe) (k ord : Nat) : Option (Nat × Nat × PieceHdr × Nat) :=
  match (p.part k).ordMap.get? (ord / 256) with
  | none => none
  | some (pc, a, _) =>
    let h := p.hdrAt k pc a
    let n := (ord + 2 ^ 32 - h.ordbase) % 2 ^ 32
    if n < h.cap then some (pc, a, h, n) else none

/-- Key of the record of entry `n`. -/
def Pipe.recKey (p : Pipe) (k pc : Nat) (h : PieceHdr) (n : Nat) : Nat := p.loc k pc (h.records + 32 * n)

/-- The record of an ordinal. -/
def Pipe.recordOf (p : Pipe) (k ord : Nat) : Option (List Byte) :=
  (p.resolve k ord).map (fun x => p.bankRead k x.1 (x.2.2.1.records + 32 * x.2.2.2) 32)

/-- The units of that record. -/
def Pipe.recUnits (p : Pipe) (k ord : Nat) : List Nat :=
  if p.poison.isEmpty && p.weak.isEmpty then []
  else match p.resolve k ord with
    | none => []
    | some x => p.bankUnits k x.1 (x.2.2.1.records + 32 * x.2.2.2) 32

/-- Write a byte range of a pseudo-channel by firmware or an I/O die (R200, R210): its page becomes dirty. -/
def Pipe.bankPut (p : Pipe) (k pc a : Nat) (bs : List Byte) : Pipe :=
  let p1 := p.hbmWrite (p.loc k pc a) bs
  (p.bankPages k pc a bs.length).foldl (fun (p : Pipe) pg =>
    let e := p.tier pg
    if e.st = .unmapped then p else p.setTier pg { e with dirty := true, ref := true }) p1

/-- Enter a piece in the ordinal map of its owner, and its regions among those in use (R288). -/
def Pipe.mapPiece (p : Pipe) (load : Nat) (r : PieceRef) : Pipe :=
  let h := p.hdrAt r.1 r.2.1 r.2.2
  p.modPart r.1 (fun q =>
    { q with
      ordMap := (List.range (h.cap / 256)).foldl (fun m i =>
        m.set ((h.ordbase / 256 + i) % 2 ^ 24) (r.2.1, r.2.2, load)) q.ordMap,
      regions := q.regions.set r.2.1
        ((p.pieceRegions r.1 r.2.1 r.2.2).filter (fun x => decide (x.2 > 0) && !(q.regions.getD r.2.1 []).contains x)
          ++ q.regions.getD r.2.1 []) })

/-- Remove the map entries that still name a piece, and free its regions (R288, R311). -/
def Pipe.unmapPiece (p : Pipe) (r : PieceRef) : Pipe :=
  let rs := p.pieceRegions r.1 r.2.1 r.2.2
  p.modPart r.1 (fun q =>
    { q with
      ordMap := q.ordMap.filter (fun m => !(m.2.1 == r.2.1 && m.2.2.1 == r.2.2)),
      regions := q.regions.set r.2.1 ((q.regions.getD r.2.1 []).filter (fun x => !rs.contains x)) })

/-! ## Loads that nothing uses any more (R283, R288, R349) -/

/-- The map entries of a load are removed, and the regions of pieces that no entry names any more are freed. -/
def Pipe.dropLoad (p : Pipe) (l : Nat) : Pipe :=
  (List.range 16).foldl (fun (p : Pipe) k =>
    let m := (p.part k).ordMap
    let left := m.filter (fun x => x.2.2.2 != l)
    let dead := ((m.filter (fun x => x.2.2.2 == l)).map (fun x => (x.2.1, x.2.2.1))).eraseDups.filter (fun r =>
      !left.any (fun x => x.2.1 == r.1 && x.2.2.1 == r.2))
    (dead.foldl (fun (p : Pipe) r => p.unmapPiece (k, r.1, r.2)) p).modPart k (fun q => { q with ordMap := left }))
    { p with idx := p.idx.erase l }

/-- Copies that no handle, job or piece compaction names are freed. -/
def Pipe.sweep (p : Pipe) : Pipe :=
  let used := p.handles.vals ++ p.jobs.vals.filterMap (·.idx) ++ p.parts.flatMap (fun q => q.comps.map (·.idx))
  let tabs := p.etabHandles.vals ++ p.jobs.vals.filterMap (·.etab)
  (p.idx.keys.filter (fun l => !used.contains l)).foldl Pipe.dropLoad { p with etabs := p.etabs.filter (fun t => tabs.contains t.1) }

/-- The first free range of `n` blocks of 256 ordinals of a partition (R288). -/
def freeBlocks (m : Tbl (Nat × Nat × Nat)) (n : Nat) : Option Nat :=
  let ends := 0 :: m.keys.map (· + 1)
  ends.find? (fun b => decide (b + n ≤ 2 ^ 24) && m.keys.all (fun x => decide (x < b) || decide (b + n ≤ x)))

/-- Free bytes of a pseudo-channel's index-data region (R289). -/
def Pipe.pcRoom (p : Pipe) (k pc : Nat) : Nat :=
  pcData p.variant64 - (((p.part k).regions.getD pc []).map Prod.snd).foldl (· + ·) 0

/-- The pseudo-channel with the most free space, the lower on a tie (R289). -/
def Pipe.roomiest (p : Pipe) (k : Nat) : Nat :=
  ((List.range 64).foldl (fun (b : Nat × Nat) pc => let n := p.pcRoom k pc; if n > b.2 then (pc, n) else b)
    (0, p.pcRoom k 0)).1

/-- Give the bank pages of a new region frames: an UNMAPPED page becomes HBM and zero, DIRTY (R205, R376); a GENERAL page in
such a frame moves to another, and there is no room while it cannot (R372). -/
def Pipe.mapBank (p : Pipe) (k pc a n : Nat) : Option Pipe :=
  (p.bankPages k pc a n).foldl (fun (acc : Option Pipe) pg => acc.bind (fun p =>
    let e := p.tier pg
    match pg with
    | .bank _ _ f =>
      if e.st = .unmapped || e.st = .zero then
        let q := match p.holder k pc f with | some g => p.relocate g.1 g.2 | none => (p, true)
        if q.2 then some ((q.1.hbmClear (hbmKey k pc (f * 65536)) 65536).setTier pg { e with st := .hbm, dirty := true, ref := true })
        else none
      else some p
    | .gen _ => some p)) (some p)

/-- Firmware takes regions of a pseudo-channel at the lowest free addresses; their addresses. -/
def Pipe.takeRegions (p : Pipe) (k pc : Nat) (ns : List Nat) : Option (Pipe × List Nat) :=
  let b : Bank := { p.bankOf k pc RawErrs.none none with used := (p.part k).regions.getD pc [] ++ p.heldRegions k pc }
  let take := fun (x : Option (List Nat × Bank)) (n : Nat) =>
    x.bind (fun x => (x.2.alloc n).map (fun y => (x.1 ++ [y.1], y.2)))
  match ns.foldl take (some ([], b)) with
  | none => none
  | some (as, b1) =>
    (b1.taken.foldl (fun (acc : Option Pipe) x => acc.bind (fun p => p.mapBank k pc x.1 x.2)) (some p)).map (fun p1 =>
      (p1.modPart k (fun q => { q with regions := q.regions.set pc (b1.taken ++ q.regions.getD pc []) }), as))

/-- A new piece (R205, R289, R311): its regions at the lowest free addresses, its header and an EMPTY slice directory
written; the header address, or none when the pseudo-channel has no room or no ordinals are left. -/
def Pipe.newPiece (p : Pipe) (load k pc codeb sfmt cap : Nat) : Option (Pipe × Nat) :=
  match freeBlocks (p.part k).ordMap (cap / 256) with
  | none => none
  | some blk =>
    match p.takeRegions k pc [64, cap * codeb, 4 * cap, 32 * cap, 16384] with
    | some (p1, [a, c, s, r, f]) =>
      let h : PieceHdr := { codeb := codeb, sfmt := sfmt, cap := cap, ordbase := 256 * blk, codes := c, scales := s,
                            records := r, fdir := f, adj := 0xFFFFFFFF, tail := 0 }
      let p2 := (p1.bankPut k pc a (hdrBytes h)).bankPut k pc f (List.replicate 16384 0#8)
      some (p2.modPart k (fun q =>
        { q with ordMap := (List.range (cap / 256)).foldl (fun m i => m.set (blk + i) (pc, a, load)) q.ordMap }), a)
    | _ => none

/-! ## The item directory (R300, R301) -/

/-- The hash of an external id, its slice and its first slot. -/
def dirHash (x : Nat) : Nat := x * 0x9E3779B97F4A7C15 % 2 ^ 64
def dirSliceOf (x : Nat) : Nat := dirHash x / 2 ^ 60
def dirFirst (x dirlog : Nat) : Nat := dirHash x % 2 ^ dirlog

/-- Address of a directory entry. -/
def IdxCopy.dirAddr (x : IdxCopy) (slice slot : Nat) : Nat :=
  x.desc.dirBase + slice * (16 * 2 ^ x.desc.dirlog) + 16 * slot

/-- What the search of an id met: its slot with ORD and PART, the first free slot, whether a record holds the lock of
that slot, and whether the slot is only reserved by the id's first PUT, so that the directory does not hold the id. -/
structure DirHit where
  found : Option (Nat × Nat × Nat)
  free : Option Nat
  held : Bool
  fresh : Bool
  deriving DecidableEq, Repr

/-- Search the directory for an id (R300, R301): 64 slots, wrapping, not stopping at a free one. A slot that a PUT in
progress has locked is not free. -/
def Pipe.dirSearch (p : Pipe) (x : IdxCopy) (id : Nat) : DirHit :=
  let sl := dirSliceOf id
  (List.range 64).foldl (fun (h : DirHit) i =>
    let n := (dirFirst id x.desc.dirlog + i) % 2 ^ x.desc.dirlog
    let e := p.iasRead (x.dirAddr sl n) 16
    let lock := (p.part sl).locks.find? (fun l => l.addr == x.dirAddr sl n)
    if fbit e 100 then
      (if h.found.isNone && le64 e 0 = id then { h with found := some (n, le32 e 8, field e 96 4), held := lock.isSome } else h)
    else match lock with
      | some l => if h.found.isNone && l.ext = id then { h with found := some (n, 0xFFFFFFFF, 0), held := true, fresh := true } else h
      | none => if h.free.isNone then { h with free := some n } else h) ⟨none, none, false, false⟩

/-- Addresses of the 64 slots as byte ranges: at most two. -/
def IdxCopy.dirRanges (x : IdxCopy) (id : Nat) : List (Nat × Nat) :=
  let f := dirFirst id x.desc.dirlog
  let n := min 64 (2 ^ x.desc.dirlog - f)
  [(x.dirAddr (dirSliceOf id) f, 16 * n)] ++ (if n < 64 then [(x.dirAddr (dirSliceOf id) 0, 16 * (64 - n))] else [])

/-- The bytes of a directory entry. -/
def dirBytes (id ord part : Nat) (valid lock : Bool) : List Byte :=
  packBytes 16 [(64, id), (32, ord), (4, part), (1, b2n valid), (1, b2n lock)]

/-! ## The cache tier (R385, R386) -/

/-- Bytes of a cache-tier row: TFMT codes, then scale and offset. -/
def IdxCopy.rowBytes (x : IdxCopy) : Nat :=
  (match x.drp.tfmt with | 1 => ceilDiv (rotLen x.drp.blklog x.desc.dim) 2 | 4 => 2 * rotLen x.drp.blklog x.desc.dim | _ => rotLen x.drp.blklog x.desc.dim) + 4

/-- The cache-tier address of an ordinal, if it has a row (R385). -/
def Pipe.cacheRow (p : Pipe) (handle part ord : Nat) : Option Nat :=
  match p.cacheTier.get? handle with
  | none => none
  | some (base, cpart, stride) =>
    if ord * stride ≥ cpart then none else some (base + part * cpart + ord * stride)

/-! ## The oldest retained epoch (R308) -/

/-- Does a job hold a read epoch (R102)? A query that ended at ENTRY or with EPOCH_EXPIRED (status 0x07) was never
dispatched with one. -/
def Job.pinsEpoch (j : Job) : Bool :=
  !j.batch && j.peer.isNone && j.counted && !(match j.ending with | some e => e.1 == 7 | none => false)

/-- The effective O: the lesser of the requested value and the least read epoch of a query in flight. -/
def Pipe.oldestNow (p : Pipe) : Nat :=
  (p.jobs.vals.filter Job.pinsEpoch).foldl (fun m j => min m j.epoch) p.oldest

end Sys2Proof.Machine
end

