-- ==== Sys2Proof/Machine/Media.lean ====
section
/-!
DEFINITION. Sys2Proof/Machine/Media.lean: extents, units, owner tags, programs and maintenance of the flash media as
operations on the pipeline (chapter 13).
-/
namespace Sys2Proof.Machine

/-! ## Units, tags and the journal (R400, R405 to R407, R419) -/

/-- Key of an owner tag. -/
def tagKey (e u : Nat) : Nat := e * 2 ^ 17 + u

/-- What a tag names, with the source that a copy's tag records (R400, R413). -/
def UnitTag.copied (t : UnitTag) (e u : Nat) : UnitTag :=
  match t with
  | .vector ext ord _ => .vector ext ord (some (e, u))
  | .page pg _ => .page pg (some (e, u))
  | .log n => .log n
def UnitTag.isPage : UnitTag → Bool
  | .page _ _ => true
  | _ => false

/-- The FREE extent with the lowest PEC, the lower number on a tie (R405). -/
def FlashPart.pickFree (f : FlashPart) : Option Nat :=
  let listed := f.exts.filter (fun x => decide (x.1 < f.next) && x.2.st == .free)
  let fresh := (f.exts.freeKey f.next).map (fun n => (n, Extent.fresh n))
  let all := listed ++ fresh.toList
  match all with
  | [] => none
  | x :: xs => some (xs.foldl (fun b y =>
      if y.2.pec < b.2.pec || (y.2.pec = b.2.pec && y.1 < b.1) then y else b) x).1

/-- The four open extents (R405). -/
inductive OpenFor where
  | log | data | comp | page
  deriving DecidableEq, Repr

def FlashPart.openAt (f : FlashPart) : OpenFor → Option Nat
  | .log => f.openLog | .data => f.openData | .comp => f.openComp | .page => f.openPage

def FlashPart.setOpen (f : FlashPart) (o : OpenFor) (e : Option Nat) : FlashPart :=
  match o with
  | .log => { f with openLog := e }
  | .data => { f with openData := e }
  | .comp => { f with openComp := e }
  | .page => { f with openPage := e }

def OpenFor.role : OpenFor → ExtRole
  | .log => .log | .data => .data | .comp => .data | .page => .page

/-- Change the flash controller of a partition. -/
def Pipe.modFlash (p : Pipe) (k : Nat) (g : FlashPart → FlashPart) : Pipe :=
  p.modPart k (fun q => { q with flash := g q.flash })

/-- One page of the journal of partition k is programmed, in both copies (R419, R427): it carries the published epoch and the
effective oldest epoch. DESIGN CHOICE, log 67. -/
def Pipe.journal (p : Pipe) (k : Nat) (kind : JKind) (recs : List JRec) : Pipe :=
  let pub := (p.part k).pub
  let p1 := p.modFlash k (fun f =>
    { f with journal := f.journal ++ [{ jseq := f.jseq, kind := kind, pub := pub, oldest := p.oldestNow, recs := recs }],
             jseq := f.jseq + 1 })
  { p1 with nand := { p1.nand with lastPage := some pub } }

/-- The journal records a new STATE of an extent (R419 table). -/
def Pipe.journalExt (p : Pipe) (k e : Nat) (mk : Nat → Nat → ExtRole → JRec) : Pipe :=
  let x := (p.flash k).ext e
  p.journal k .records [mk e x.oseq x.role]

/-- A SEALED DATA or PAGE extent whose LIVE is 0 becomes RETIRING; the jobs dispatched so far may still read it (R412). -/
def Pipe.retireEmpty (p : Pipe) (k e : Nat) : Pipe :=
  let x := (p.flash k).ext e
  if x.st = .sealed && x.role ≠ .log && x.live = 0 then
    (p.modFlash k (fun f => f.setExt e { x with st := .retiring, readers := p.jobs.keys, waits := [] })).journalExt k e .retire
  else p

/-- LIVE of an extent falls (R407). -/
def Pipe.liveDrop (p : Pipe) (k e n : Nat) : Pipe :=
  (p.modFlash k (fun f => f.modExt e (fun x => { x with live := x.live - n }))).retireEmpty k e

/-! ## Rows (R399) -/

/-- The parity page of row `w` is programmed: the XOR of the row's 63 data pages, unit by unit (R399). -/
def Pipe.programParity (p : Pipe) (k e w : Nat) : Pipe :=
  let f := p.flash k
  let par := (f.ext e).parityPos w
  { p with media := (List.range 4).foldl (fun (m : Mem) cw =>
      let key := f.cellKey k e par w cw
      (List.range 63).foldl (fun m j => m.xorTo (f.cellKey k e ((par + 1 + j) % 64) w cw) 4096 m key) (m.clear key 4096)) p.media }

/-- The rows that `n` units from unit `u` on complete have their parity pages programmed. -/
def Pipe.fullRows (p : Pipe) (k e u n : Nat) : Pipe :=
  (List.range ((u + n) / rowUnits - u / rowUnits)).foldl (fun p i => p.programParity k e (u / rowUnits + i)) p

/-- A row that writing leaves half done: zeros in each unwritten data position, then its parity page (R399). -/
def Pipe.padRow (p : Pipe) (k e : Nat) : Pipe :=
  let u := ((p.flash k).ext e).fill
  if u % rowUnits = 0 then p
  else (p.flashWrite k e u (rowUnits - u % rowUnits) []).programParity k e (u / rowUnits)

/-- Units that closing the rows of `n` units from `u` on programs beside them, and those that padding a row programs. -/
def parityUnits (u n : Nat) : Nat := 4 * ((u + n) / rowUnits - u / rowUnits)
def padUnits (u : Nat) : Nat := if u % rowUnits = 0 then 0 else rowUnits - u % rowUnits + 4

/-- Seal an open extent (R399, R405). -/
def Pipe.seal (p : Pipe) (k e : Nat) : Pipe :=
  if ((p.flash k).ext e).st = .open_ then
    (((p.padRow k e).modFlash k (fun f => f.modExt e (fun x => { x with st := .sealed }))).journalExt k e .seal).retireEmpty k e
  else p

/-- Open the next extent for a role (R405): none when no FREE extent is left. -/
def Pipe.openNext (p : Pipe) (k : Nat) (o : OpenFor) : Pipe × Option Nat :=
  match (p.flash k).pickFree with
  | none => (p.modFlash k (fun f => f.setOpen o none), none)
  | some e =>
    let p1 := p.modFlash k (fun f =>
      let s := (f.oseq + 1) % 2 ^ 32
      (({ f with oseq := s }.modExt e (fun x =>
        { x with st := .open_, role := o.role, oseq := s, plun := s % 64, fill := 0, live := 0, marked := false,
                 readers := [], waits := [] })).setOpen o (some e)))
    (p1.journalExt k e .openExt, some e)

/-- The open extent of a role with room for `n` units, sealing a full one and opening the next (R405). -/
def Pipe.room (p : Pipe) (k : Nat) (o : OpenFor) (n : Nat) : Pipe × Option Nat :=
  match (p.flash k).openAt o with
  | some e => if ((p.flash k).ext e).fill + n ≤ extUnits then (p, some e) else (p.seal k e).openNext k o
  | none => p.openNext k o

/-- Units of a byte string. -/
def unitsOf (n : Nat) : Nat := ceilDiv n 4096

/-- Units to skip, so that a tier page starts where its POFF can name it (R398, R413). -/
def pagePad (tag : UnitTag) (u : Nat) : Nat := if tag.isPage then (16 - u % 16) % 16 else 0

/-- Accept a byte string into the open extent of a role (R405 to R407): its units written in the buffer, tagged, LIVE
raised, the rows that it completes closed, and the program owed. Gives the extent and first unit. A package without
a cell-mode pair opens no extent (R574). -/
def Pipe.flashPut (p : Pipe) (k : Nat) (o : OpenFor) (tag : UnitTag) (bs : List Byte) (prog : Nat → Nat → Option Prog) :
    Pipe × Option (Nat × Nat) :=
  let n := unitsOf bs.length
  let skip := match (p.flash k).openAt o with | some e => pagePad tag ((p.flash k).ext e).fill | none => 0
  let (p0, r) := if p.pair.isNone then (p, none) else p.room k o (skip + n)
  match r with
  | none => (p0, none)
  | some e =>
    let was := ((p0.flash k).ext e).fill
    let u := was + pagePad tag was
    let p1 := p0.modFlash k (fun f =>
      { f.modExt e (fun x => { x with fill := u + n, live := x.live + (if o = .log then 0 else n) }) with
        tags := (List.range n).foldl (fun t i => t.set (tagKey e (u + i)) tag) f.tags,
        progs := f.progs ++ (prog e u).toList })
    let p2 := ((p1.flashWrite k e was (u - was) []).flashWrite k e u n bs).fullRows k e was (u + n - was)
    let p3 := if u + n = extUnits then ((p2.seal k e).openNext k o).1 else p2
    (p3, some (e, u))

/-! ## Programs, blocks and spares (R396, R399, R411) -/

/-- Spare block `n` of a LUN: the 48 highest-numbered blocks (R401, R402). -/
def FlashPart.spareBlock (f : FlashPart) (n : Nat) : Nat := (f.next + 16) * (64 / f.luns) + n

/-- Copy a block, and erase one. -/
def Mem.copyBlock (m : Mem) (src dst : Nat) : Mem := m.copyTo src blockBytes m dst

/-- A block at a position of an extent fails (R411): a spare of that LUN takes the first free remap slot; none when there is
no slot or no spare. Gives the flash, the slot and the spare. -/
def FlashPart.remap (f : FlashPart) (e pos : Nat) : Option (FlashPart × Nat × Nat) :=
  let x := f.ext e
  let lun := pos % f.luns
  let used := f.sparesUsed.getD lun 0
  match x.remaps.findIdx? (fun r => r.isNone || r.any (fun m => m.1 == pos)) with
  | none => none
  | some i =>
    if used ≥ 48 then none
    else some ({ f.setExt e { x with remaps := setNth x.remaps i (some (pos, f.spareBlock used)) } with
                 sparesUsed := setNth f.sparesUsed lun (used + 1) }, i, f.spareBlock used)

/-- FLASH_SPARE of the partition when the LUN has no spare left (R589 table). -/
def FlashPart.spareFault (f : FlashPart) (k pos : Nat) : List PipeOut :=
  if f.sparesUsed.getD (pos % f.luns) 0 ≥ 48 then [.fault (16 * k + 11)] else []

/-- Remap the failed block at a position of an extent (R411): the remap is journalled, and the pages of the failed block are
copied to the spare when it holds data. False when there is no slot or spare. -/
def Pipe.remapBlock (p : Pipe) (k e pos : Nat) (copy : Bool) : Pipe × Bool :=
  let f := p.flash k
  match f.remap e pos with
  | none => ({ p with out := p.out ++ f.spareFault k pos }, false)
  | some (f1, slot, spare) =>
    let p1 := (p.modFlash k (fun _ => f1)).journal k .records [.remap e slot pos spare]
    let p2 := { p1 with out := p1.out ++ f1.spareFault k pos }
    if copy then
      let n := 4 * ceilDiv (f.ext e).fill rowUnits
      ({ p2 with media := p2.media.copyBlock (f.posKey k e pos) (f1.posKey k e pos) }.count k 4 3 (2 * n), true)
    else (p2, true)

/-- The extent and LUN position of the first program that waits (R411). -/
def FlashPart.firstProg (f : FlashPart) : Option (Nat × Nat) :=
  match f.progs with
  | .data e u _ :: _ => some (e, unitPos (f.ext e) u)
  | .logPage _ :: _ => f.openLog.map (fun e => (e, unitPos (f.ext e) ((f.ext e).fill - 1)))
  | .page _ :: _ => f.openPage.map (fun e => (e, unitPos (f.ext e) ((f.ext e).fill - 1)))
  | _ => none

/-- Is a unit in the write buffer, its program not yet ended (R406)? -/
def FlashPart.buffered (f : FlashPart) (e u : Nat) : Bool :=
  f.progs.any (fun g => match g with | .data e' u' n => e' == e && decide (u' ≤ u) && decide (u < u' + n) | _ => false)

/-- The LUN positions of partition k that have a read waiting: those of the units that the reads in flight name and the write
buffer does not serve (R396, R404, R406). -/
def Pipe.readPositions (p : Pipe) (k : Nat) : List Nat :=
  let f := p.flash k
  let at_ := fun e u n => if f.okLoc e u then
      ((List.range n).filter (fun i => !f.buffered e (u + i))).map (fun i => unitPos (f.ext e) (u + i)) else []
  (f.reads.flatMap (fun r => match r with
    | .vector _ _ e u n => at_ e u n
    | .page pg _ => match (p.tier pg).loc with | some (e, po) => at_ e (16 * po) 16 | none => [])).eraseDups

/-- The LUN positions at which the erase under way is suspended (R396): an erase runs on the blocks of every position. -/
def Pipe.suspended (p : Pipe) (k : Nat) : List Nat := if (p.flash k).erases.isEmpty then [] else p.readPositions k

/-! ## The ingest log (R315, R316) -/

/-- Bytes of a log entry: batch fields, header, vector (R315). DESIGN CHOICE, log 159. -/
def LogEnt.bytes (e : LogEnt) : Nat := 16 + e.header.length + e.vector.length

/-- Bytes logged and in no page yet, and bytes of the unflushed tail (R424). -/
def FlashPart.loose (f : FlashPart) : Nat :=
  ((f.log.filter (fun e => !e.paged)).map LogEnt.bytes).foldl (· + ·) 0 - f.logCarry
def FlashPart.tail (f : FlashPart) : Nat := ((f.log.filter (fun e => !e.programmed)).map LogEnt.bytes).foldl (· + ·) 0

/-- The entries that end within the next `n` bytes of the log, and the bytes left of those `n`. -/
def takeWhole : List LogEnt → Nat → List Nat × Nat
  | [], n => ([], n)
  | e :: es, n =>
    if e.bytes ≤ n then
      let (a, r) := takeWhole es (n - e.bytes)
      (e.seq :: a, r)
    else ([], n)

/-- Put the loose bytes of partition k into 4 KiB log pages whose programs are then owed: the whole pages, or all of them
with the last page padded. Answers the pages taken. DESIGN CHOICE, log 159. -/
def Pipe.pageLog (p : Pipe) (k : Nat) (all : Bool) : Pipe × Nat :=
  let f := p.flash k
  let n := if all then ceilDiv f.loose 4096 else f.loose / 4096
  if n = 0 then (p, 0)
  else
    let (seqs, left) := takeWhole (f.log.filter (fun e => !e.paged)) (f.logCarry + 4096 * n)
    match p.flashPut k .log (.log (seqs.headD (f.nextSeq - 1))) (List.replicate (4096 * n) 0#8) (fun _ _ => some (.logPage seqs)) with
    | (p1, none) => (p1, 0)
    | (p1, some _) =>
      (p1.modFlash k (fun f => { f with
        logCarry := if all then 0 else left
        log := f.log.map (fun e => { e with paged := e.paged || seqs.contains e.seq }) }), n)

/-- Log pages that no one batch takes, counted against ingest (R418, R459). -/
def Pipe.pageLogAll (p : Pipe) (k : Nat) : Pipe :=
  let (p1, n) := p.pageLog k true
  p1.count k 1 3 n

/-- A log page has been programmed: its entries, and every note taken before it (R316). -/
def FlashPart.logDone (f : FlashPart) (seqs : List Nat) : FlashPart :=
  { f with log := f.log.map (fun e =>
      { e with programmed := e.programmed || seqs.contains e.seq, noted := e.noted || e.note.isSome }) }

/-! ## Committed maintenance (R413, R415) -/

/-- Is a unit live (R413): does a record of the partition or a tier entry still name it? Gives the record's place. -/
def Pipe.vectorOwner (p : Pipe) (k ext e u : Nat) : Option (Nat × PieceHdr × Nat) :=
  let pieces := ((p.part k).ordMap.vals.map (fun m => (m.1, m.2.1))).eraseDups
  pieces.findSome? (fun r =>
    let h := p.hdrAt k r.1 r.2
    ((List.range h.tail).find? (fun n =>
      let rec_ := p.bankRead k r.1 (h.records + 32 * n) 32
      recExt rec_ == ext && recExtent rec_ == e && recOffset rec_ == u)).map (fun n => (r.1, h, n)))

/-- Does a page's tier entry name (e, u) as its flash copy? -/
def Pipe.pageOwns (p : Pipe) (pg : PageId) (e u : Nat) : Bool := (p.tier pg).loc = some (e, u / 16)

/-- Bring a page of partition k in at once for a step of firmware's own, when a frame can be had (R377, R382).
DESIGN CHOICE, log 68. -/
def Pipe.bringIn (p : Pipe) (pg : PageId) : Pipe :=
  let e := p.tier pg
  if e.st ≠ .flash then p
  else match p.moveIn pg with
    | (p1, .got _ _) =>
      let e1 := p1.tier pg
      let key := hbmKey e1.home e1.pc (e1.frame * 65536)
      let p2 := match e1.loc with
        | some (ex, po) => if (p1.flash e1.home).okLoc ex (16 * po) then p1.flashFill e1.home ex (16 * po) 16 key
            else p1.hbmClear key 65536
        | none => p1.hbmClear key 65536
      (p2.setTier pg { e1 with st := .hbm, dirty := false }).modFlash e1.home (fun f =>
        { f with reads := f.reads.filter (fun r => match r with | .page x _ => x != pg | _ => true) })
    | (p1, _) => p1

/-- A live unit's record or tier entry is rewritten to name its copy, whose tag is the unit's own (R413 step 5). -/
def Pipe.rewriteUnit (p : Pipe) (k e u e' u' : Nat) : Pipe :=
  match (p.flash k).tags.get? (tagKey e' u') with
  | some (.vector ext _ _) =>
    match p.vectorOwner k ext e u with
    | some (pc, h, n) =>
      let p0 := (p.bankPages k pc (h.records + 32 * n) 32).foldl Pipe.bringIn p
      let bits := leNat (p0.bankRead k pc (h.records + 32 * n) 32)
      let r := leBytes 32 (bits - bitsOf bits 160 48 * 2 ^ 160 + (e' + 2 ^ 24 * u') * 2 ^ 160)
      (p0.bankPut k pc (h.records + 32 * n) r).modFlash k (fun f => f.modExt e' (fun x => { x with live := x.live + 1 }))
    | none => p
  | some (.page pg _) =>
    if p.pageOwns pg e u then
      let p1 := p.setTier pg { p.tier pg with loc := some (e', u' / 16) }
      p1.modFlash k (fun f => f.modExt e' (fun x => { x with live := x.live + 16 }))
    else p
  | _ => p

/-- The copies of the compaction of S. -/
def FlashPart.copiesOf (f : FlashPart) (src : Nat) : List (Nat × Nat × Nat) :=
  (f.maint.filterMap (fun m => match m with | .compact s c _ => if s = src then some c else none | _ => none)).flatten

/-- Steps 5 and 6 of R413 for source S. -/
def Pipe.endComp (p : Pipe) (k src : Nat) : Pipe :=
  let copies := (p.flash k).copiesOf src
  let p1 := copies.foldl (fun p c => p.rewriteUnit k src c.1 c.2.1 c.2.2) p
  let p2 := (p1.modFlash k (fun f =>
    { f.modExt src (fun x => { x with st := .retiring, live := 0, readers := p1.jobs.keys, waits := [] }) with
      moved := f.moved ++ copies.map (fun c => (src, c.1, c.2.1, c.2.2)),
      maint := f.maint.filter (fun m => match m with | .compact s _ _ => s ≠ src | _ => true) })).journalExt k src .retire
  ((copies.map (fun c => c.2.1)).eraseDups).foldl (fun p e => p.retireEmpty k e) p2

/-- Committed compactions perform their step 5, unless a piece compaction lies between its steps 2 and 6 (R414).
DEDUCED, log 183. -/
def Pipe.runCommits (p : Pipe) (k : Nat) : Pipe :=
  if !(p.part k).comps.isEmpty then p
  else ((p.flash k).maint.filterMap (fun m => match m with | .compact s _ true => some s | _ => none)).foldl
    (fun p s => p.endComp k s) p

/-- The commit page of the compaction of S is programmed (R413 step 4). -/
def Pipe.commitComp (p : Pipe) (k src : Nat) : Pipe :=
  let ranges := ((p.flash k).copiesOf src).map (fun c => (c.2.1, c.2.2, 1))
  ((p.journal k .records [.commitComp src ranges]).modFlash k (fun f =>
    { f with maint := f.maint.map (fun m => match m with | .compact s c d => .compact s c (d || s == src) | x => x) })).runCommits k

/-- Steps 5 and 6 of R415 for extent C and target F: the block sets are exchanged, and F's new blocks wait for the
reads under way and their erase. -/
def Pipe.commitReloc (p : Pipe) (k src : Nat) : Pipe :=
  match (p.flash k).maint.findSome? (fun m => match m with | .relocate s t _ => if s = src then some t else none | _ => none) with
  | none => p
  | some t =>
    let x := (p.flash k).ext t
    (p.journal k .records [.commitReloc src x.block x.remaps]).modFlash k (fun f =>
      let c := f.ext src
      let mine := f.reads.filter (fun r => match r with
        | .vector _ _ e _ _ => e == src
        | .page pg _ => match (p.tier pg).loc with | some (e, _) => e == src | none => false)
      let f1 := f.setExt src { c with st := .sealed, block := x.block, remaps := x.remaps, pec := x.pec, marked := false }
      let f2 := f1.setExt t { x with st := .retiring, block := c.block, remaps := c.remaps, pec := c.pec, readers := [], waits := mine }
      { f2 with maint := f2.maint.filter (fun m => match m with | .relocate s _ _ => s ≠ src | _ => true) })

/-! ## The maintenance lock (R417) -/

/-- Rank of a maintenance process: scrub repair, compaction, wear levelling. -/
def Maint.rank : Maint → Nat
  | .relocate _ _ 6 => 3
  | .compact _ _ _ => 2
  | .relocate _ _ _ => 1
def Maint.holds (m : Maint) (e : Nat) : Bool :=
  match m with
  | .compact s _ _ => s == e
  | .relocate s t _ => s == e || t == e
def Maint.committed : Maint → Bool
  | .compact _ _ d => d
  | .relocate _ _ _ => false

/-- A process is given up before its commit: its source is SEALED again, what it copied is dead, and a target is erased
again (R415, R417). -/
def Pipe.giveUp (p : Pipe) (k : Nat) (m : Maint) : Pipe :=
  p.modFlash k (fun f =>
    let f0 := { f with maint := f.maint.erase m }
    match m with
    | .compact s _ _ =>
      { f0.modExt s (fun x => { x with st := .sealed }) with progs := f0.progs.filter (· != .commitComp s) }
    | .relocate s t _ =>
      { (f0.modExt s (fun x => { x with st := .sealed })).modExt t (fun x => { x with readers := [], waits := [] }) with
        progs := f0.progs.filter (· != .commitReloc s) })

/-- An activity of a rank asks for the lock of extent `e` (R417): given when it is free or a lower activity holds it before its
commit. -/
def Pipe.takeLock (p : Pipe) (k e rank : Nat) : Pipe × Bool :=
  match (p.flash k).maint.find? (fun m => m.holds e) with
  | none => (p, true)
  | some m => if m.rank < rank && !m.committed then (p.giveUp k m, true) else (p, false)

/-- Begin a relocation of C onto the FREE extent F (R415 steps 1 to 3): C is sealed and taken, every page of it is copied to
the same place of the target's blocks, and the commit page is owed. -/
def Pipe.startReloc (p : Pipe) (k src target act : Nat) : Pipe :=
  let x := (p.flash k).ext src
  if src ≥ (p.flash k).next || target ≥ (p.flash k).next || src = target || ((p.flash k).ext target).st ≠ .free
      || !(x.st = .sealed || x.st = .open_ || x.st = .moving) then p
  else match p.takeLock k src (if act = 6 then 3 else 1) with
    | (_, false) => p
    | (p0, true) =>
      let p1 := (p0.seal k src).modFlash k (fun f =>
        { f with openLog := f.openLog.filter (· ≠ src), openData := f.openData.filter (· ≠ src),
                 openComp := f.openComp.filter (· ≠ src), openPage := f.openPage.filter (· ≠ src) })
      if ((p1.flash k).ext src).st ≠ .sealed then p1
      else
        let f := p1.flash k
        let media := (List.range 64).foldl (fun (m : Mem) pos => m.copyBlock (f.posKey k src pos) (f.posKey k target pos)) p1.media
        let p2 := { p1 with media := media }.modFlash k (fun f =>
          { (f.modExt src (fun y => { y with st := .moving })).modExt target (fun y =>
              { y with st := .retiring, readers := [], waits := [] }) with
            maint := f.maint ++ [Maint.relocate src target act], progs := f.progs ++ [Prog.commitReloc src] })
        p2.count k act 3 (2 * 256 * ceilDiv x.fill rowUnits)

/-! ## Rows -/

/-- PROGRAM_DONE of partition k (R316, R399, R413, R415): the first program that is no write-back ends. -/
def programDone (k : Nat) (p : Pipe) : Pipe :=
  let f := p.flash k
  match f.progs.find? (fun g => match g with | .page _ => false | _ => true) with
  | none => p
  | some g =>
    let p1 := p.modFlash k (fun f => { f with progs := f.progs.erase g })
    match g with
    | .logPage seqs => p1.modFlash k (fun f => f.logDone seqs)
    | .data _ _ _ => p1
    | .page _ => p1
    | .commitComp src => p1.commitComp k src
    | .commitReloc src => p1.commitReloc k src

/-- The programs and erases already started in partition k run to their end (R426, R584); a write-back does not. -/
def Pipe.finishPrograms (p : Pipe) (k : Nat) : Nat → Pipe
  | 0 => p
  | n + 1 => (programDone k p).finishPrograms k n

/-- PROGRAM_FAIL of partition k (R411, R425): the block of the first program is remapped onto a spare, its pages are copied
there and the program is repeated; with no slot or spare, the extent is sealed and relocated whole, or becomes RETIRED. -/
def programFail (k : Nat) (p : Pipe) : Pipe :=
  match (p.flash k).firstProg with
  | none => p
  | some (e, pos) =>
    match p.remapBlock k e pos true with
    | (p1, true) => p1
    | (p1, false) =>
      match (p1.flash k).pickFree with
      | some t => p1.startReloc k e t 4
      | none => ((p1.seal k e).modFlash k (fun f => f.modExt e (fun x => { x with st := .retired }))).journalExt k e .retire

/-- The SEALED extent with the least PEC and the FREE one with the greatest, when wear levelling is due (R416). -/
def FlashPart.wearPair (f : FlashPart) (wllim : Nat) : Option (Nat × Nat) :=
  let alive := f.exts.filter (fun x => decide (x.1 < f.next) && x.2.st != .retired)
  let fresh := (f.exts.freeKey f.next).map (fun n => (n, Extent.fresh n))
  let most := alive.foldl (fun m x => max m x.2.pec) 0
  let least := if fresh.isSome then 0 else alive.foldl (fun m x => min m x.2.pec) most
  if most > least + max wllim 50 then
    let src := (alive.filter (fun x => x.2.st == .sealed)).foldl (fun (b : Option (Nat × Extent)) x =>
      match b with | none => some x | some y => if x.2.pec < y.2.pec then some x else b) none
    let dst := (alive.filter (fun x => x.2.st == .free) ++ fresh.toList).foldl (fun (b : Option (Nat × Extent)) x =>
      match b with | none => some x | some y => if x.2.pec > y.2.pec then some x else b) none
    match src, dst with
    | some s, some d => some (s.1, d.1)
    | _, _ => none
  else none

/-- The erase of an extent ends (R412, R415, R416): it becomes FREE, or RETIRED at PECMAX. DESIGN CHOICE, log 112. -/
def Pipe.erased (p : Pipe) (k e : Nat) (rest : List Nat) : Pipe :=
  let f := p.flash k
  let pec := min ((f.ext e).pec + 1) 0xFFFF
  let p1 := { p with media := (List.range 64).foldl (fun (m : Mem) pos => m.clear (f.posKey k e pos) blockBytes) p.media }
  let p2 := (p1.modFlash k (fun f =>
    { f.modExt e (fun x => { x with st := if pec ≥ p.pecmax then .retired else .free, pec := pec, fill := 0, live := 0,
                                    readers := [], waits := [], marked := false }) with
      erases := rest, tags := f.tags.filter (fun t => t.1 / 2 ^ 17 != e) })).journalExt k e (if pec ≥ p.pecmax then .retire else .free)
  p2.count k 4 3 (16 * 64)

/-- ERASE_DONE of partition k (R396, R412, R415, R416): an erase with a read waiting on one of its LUNs is suspended there, and
does not end. -/
def eraseDone (k : Nat) (p : Pipe) : Pipe :=
  match (p.flash k).erases with
  | [] => p
  | e :: rest =>
    if !(p.suspended k).isEmpty then p
    else
      let p1 := p.erased k e rest
      match (p1.flash k).wearPair p1.wllim with
      | some (s, t) => if (p1.part k).sched.maintOpen 4 then p1.startReloc k s t 4 else p1
      | none => p1

/-- ERASE_FAIL of partition k (R411): the block at a position of the extent under erase is remapped, and the extent is
left out of use when it cannot be. -/
def eraseFail (k pos : Nat) (p : Pipe) : Pipe :=
  match (p.flash k).erases with
  | [] => p
  | e :: rest =>
    match p.remapBlock k e (pos % 64) false with
    | (p1, true) => p1
    | (p1, false) =>
      (p1.modFlash k (fun f =>
        { f.modExt e (fun x => { x with st := .retired }) with erases := rest })).journalExt k e .retire

/-- EXTENT_RETIRE (R412, R415): a RETIRING extent without readers is erased. -/
def extentRetire (k e : Nat) (p : Pipe) : Pipe :=
  let f := p.flash k
  let x := f.ext e
  if x.st = .retiring && x.readers.isEmpty && x.waits.all (fun r => !f.reads.contains r) && !f.erases.contains e &&
      !f.maint.any (fun m => m.holds e) then
    p.modFlash k (fun f => { f with erases := f.erases ++ [e] })
  else p

/-- Does an activity of maintenance start a step in partition k now (R475, R477)? -/
def Pipe.maintMay (p : Pipe) (k act now : Nat) : Bool :=
  !p.fenced k && (p.part k).sched.maintOpen act && !(p.part k).sched.short now act

/-- The live units of extent S, each with its tag and its length (R413 step 2). -/
def Pipe.liveUnits (p : Pipe) (k src : Nat) : List (Nat × UnitTag × Nat) :=
  let f := p.flash k
  (List.range (f.ext src).fill).filterMap (fun u =>
    match f.tags.get? (tagKey src u) with
    | some tag =>
      match tag with
      | .vector ext _ _ =>
        if (p.vectorOwner k ext src u).isSome then
          some (u, tag, ((List.range 8).takeWhile (fun i => f.tags.get? (tagKey src (u + i)) == some tag)).length)
        else none
      | .page pg _ => if u % 16 = 0 && p.pageOwns pg src u then some (u, tag, 16) else none
      | .log _ => none
    | none => none)

/-- Copy one live unit of S, with its tag recording S and the unit; none when no extent takes it. The copies made so far, and
the units programmed beside them, are carried on. -/
def Pipe.copyUnit (k src : Nat) (acc : Pipe × List (Nat × Nat × Nat) × Nat) (m : Nat × UnitTag × Nat) :
    Pipe × List (Nat × Nat × Nat) × Nat :=
  let (p, copies, extra) := acc
  let (u, tag, n) := m
  let fill := match (p.flash k).openComp with | some e => ((p.flash k).ext e).fill | none => 0
  match p.flashPut k .comp (tag.copied src u) (p.flashGet k src u (4096 * n)) (fun e v => some (.data e v n)) with
  | (p1, some (e, v)) =>
    let gap := if v = 0 && fill ≠ 0 then padUnits fill else 0
    (p1.modFlash k (fun f => f.modExt e (fun y => { y with live := y.live - n })), copies ++ [(u, e, v)],
     extra + gap + parityUnits v n)
  | (p1, none) => (p1, copies, extra)

/-- EXTENT_COMPACT (R413): steps 1 to 3 of the compaction of extent S, and its commit page owed. -/
def extentCompact (k src now : Nat) (p : Pipe) : Pipe :=
  let x := (p.flash k).ext src
  let pct := min p.ecpct 90
  if !p.maintMay k 2 now || src ≥ (p.flash k).next || !(x.st = .sealed || x.st = .moving) || x.role = .log || pct = 0
      || x.live * 100 > pct * x.fill then p
  else match p.takeLock k src 2 with
    | (_, false) => p
    | (p0, true) =>
      let p1 := p0.modFlash k (fun f => f.modExt src (fun x => { x with st := .moving }))
      let live := p1.liveUnits k src
      let (p2, copies, extra) := live.foldl (Pipe.copyUnit k src) (p1, [], 0)
      if copies.length < live.length then p0
      else
        (p2.modFlash k (fun f => { f with maint := f.maint ++ [.compact src copies false], progs := f.progs ++ [.commitComp src] })).count
          k 2 3 (x.fill + (live.map (fun m => m.2.2)).foldl (· + ·) 0 + extra)

/-- RELOCATION (R415, R418): extent C is moved whole onto the FREE extent F. -/
def relocation (k src target now : Nat) (p : Pipe) : Pipe :=
  if p.maintMay k 4 now then p.startReloc k src target 4 else p

/-- Retries and rebuilds of a read (R408): counted, and the extent marked for scrub repair. -/
def FlashPart.readCounts (f : FlashPart) (e retries rebuilds : Nat) : FlashPart :=
  let f1 := { f with retries := f.retries + retries, rebuilds := f.rebuilds + rebuilds }
  if retries + rebuilds > 0 then f1.modExt e (fun x => { x with marked := true }) else f1

/-- An unrecoverable unit (R409): FLS_UEk and the fault source. -/
def Pipe.unitLost (p : Pipe) (k : Nat) : Pipe :=
  let p1 := p.modFlash k (fun f => { f with ue := satAdd f.ue 1 })
  { p1 with out := p1.out ++ [.fault (16 * k + 4)] }

/-- What a pass of scrub finds in extent `e`: retries, rebuilds, and unrecoverable units (R408 to R410). -/
def Pipe.scrubFound (p : Pipe) (k : Nat) (r : Nat × Nat × Nat × Nat) : Pipe :=
  if ((p.flash k).ext r.1).st ≠ .sealed then p
  else (List.replicate r.2.2.2 ()).foldl (fun p _ => p.unitLost k) (p.modFlash k (fun f => f.readCounts r.1 r.2.1 r.2.2.1))

/-- Scrub repair of an HBM page whose flash copy is current: its uncorrectable units are rewritten from the copy (R410, R213). -/
def Pipe.scrubPage (k : Nat) (p : Pipe) (e : TierEnt) : Pipe :=
  match e.loc, e.key 0 with
  | some (ex, po), some key =>
    let bad := p.poison.filter (fun u => decide (key ≤ 32 * u) && decide (32 * u < key + 65536))
    if e.dirty || bad.isEmpty || e.home ≠ k || !(p.flash k).okLoc ex (16 * po) then p
    else
      let hbm := bad.foldl (fun (m : Mem) u => m.writeN (32 * u)
        ((List.range 32).map (fun i => p.flashByte k ex (16 * po) (32 * u - key + i)))) p.hbm
      { p with hbm := hbm, poison := p.poison.filter (fun u => !bad.contains u) }
  | _, _ => p

/-- SCRUB_PERIOD of partition k (R410, R213): every SEALED extent is read, and `found` says what the reads of it met; a marked
one is relocated whole; an uncorrectable HBM unit of a page whose flash copy is current is rewritten from it. -/
def scrubPeriod (k now : Nat) (found : List (Nat × Nat × Nat × Nat)) (p : Pipe) : Pipe :=
  if !p.maintMay k 6 now then p
  else
    let sealed := (p.flash k).exts.filter (fun x => x.2.st == .sealed)
    let p1 := found.foldl (fun p r => p.scrubFound k r)
      (p.count k 6 3 ((sealed.map (fun x => x.2.fill)).foldl (· + ·) 0))
    let marked := (p1.flash k).exts.filter (fun x => x.2.marked && (x.2.st == .sealed || x.2.st == .moving))
    let p2 := marked.foldl (fun (p : Pipe) x =>
      match (p.flash k).pickFree with
      | some t => p.startReloc k x.1 t 6
      | none => p) p1
    (p2.general.vals ++ p2.bank.vals).foldl (Pipe.scrubPage k) p2

end Sys2Proof.Machine
end

