-- ==== Sys2Proof/Machine/JobOps.lean ====
section
/-!
DEFINITION. Sys2Proof/Machine/JobOps.lean: queues, descriptors, jobs, their ends and their completion entries
(chapters 03, 14 and 15).
-/
namespace Sys2Proof.Machine

/-- Status codes of R26 and of the mailbox commands. -/
def stOK : Nat := 0x00
def stBUSY : Nat := 0x01
def stSTALE : Nat := 0x02
def stTOOLATE : Nat := 0x03
def stABORTED : Nat := 0x04
def stTRUNCATED : Nat := 0x05
def stNAN : Nat := 0x06
def stEXPIRED : Nat := 0x07
def stNOENTROPY : Nat := 0x08
def stFENCED : Nat := 0x09
def stNOTENABLED : Nat := 0x0A
def stBUDGETWAIT : Nat := 0x0B
def stVERIFY : Nat := 0x0C
def stNOCOMMAND : Nat := 0x80
def stSCOPE : Nat := 0x81
def stNOTFOUND : Nat := 0x82
def stBADSTATE : Nat := 0x83
def stHOST : Nat := 0x84
def stNOSPACE : Nat := 0x85
def stTIERFULL : Nat := 0x86
def stTRNFULL : Nat := 0x87
def stSEQUENCE : Nat := 0x88
def stBADKEY : Nat := 0x89

/-! ## Queues (R429, R430, R452, R463) -/

/-- The partition that owns a queue (R34). -/
def queuePart (q : Nat) : Nat := q / 2 ^ 20 % 16

/-- An Almanac entry; an unlisted one reads zeros (R456). -/
def Pipe.queue (p : Pipe) (q : Nat) : AlmEntry := (p.part (queuePart q)).alm.entries.getD (q % 2 ^ 20) AlmEntry.zero

/-- Write an Almanac entry. -/
def Pipe.setQueue (p : Pipe) (q : Nat) (e : AlmEntry) : Pipe :=
  p.modPart (queuePart q) (fun k => { k with alm := { k.alm with entries := k.alm.entries.set (q % 2 ^ 20) e } })

/-- Change an Almanac entry. -/
def Pipe.modQueue (p : Pipe) (q : Nat) (f : AlmEntry → AlmEntry) : Pipe := p.setQueue q (f (p.queue q))

/-- Is an entry pinned in the cache (R452)? -/
def Pipe.pinnedQueue (p : Pipe) (q : Nat) : Bool :=
  !(p.queue q).fetched.isEmpty || (p.part (queuePart q)).alm.bells.any (fun b => b.1 == q) ||
    p.jobs.any (fun j => j.2.queue == q && j.2.phase == .completing)

/-- Drop the last entry of a list that a test lets go. -/
def dropLastWhere (ok : Nat → Bool) (l : List Nat) : List Nat :=
  match l.reverse.find? ok with
  | some x => l.erase x
  | none => l

/-- An access to an entry passes through the Almanac cache (R452). -/
def Pipe.touchQueue (p : Pipe) (q : Nat) : Pipe :=
  p.modPart (queuePart q) (fun k =>
    let c := k.alm.cache
    if c.contains q then { k with alm := { k.alm with cache := q :: c.erase q } }
    else
      let c1 := if c.length ≥ 8192 then dropLastWhere (fun x => !p.pinnedQueue x) c else c
      { k with alm := { k.alm with cache := q :: c1, miss := satAdd k.alm.miss 1 } })

/-- A queue that is ready and not yet on the active list joins it at the tail (R463). -/
def Pipe.enlist (p : Pipe) (q : Nat) : Pipe :=
  let e := p.queue q
  if e.ready && !e.onlist then
    (p.setQueue q { e with onlist := true }).modPart (queuePart q) (fun k =>
      { k with sched := { k.sched with active := k.sched.active ++ [q] } })
  else p

/-- A queue leaves the active list. -/
def Pipe.delist (p : Pipe) (q : Nat) : Pipe :=
  (p.modQueue q (fun e => { e with onlist := false })).modPart (queuePart q) (fun k =>
    { k with sched := { k.sched with active := k.sched.active.filter (· ≠ q) } })

/-- The signal of a queue's vector (R435, R448, R118). -/
def Pipe.signal (p : Pipe) (q : Nat) : Pipe :=
  let e := p.queue q
  if e.ien then { p with out := p.out ++ [.msix (if e.pf then 0 else queuePart q + 1) e.msix] } else p

/-- A queue enters ERROR (R435, R437, R448): GEN stays. -/
def Pipe.queueError (p : Pipe) (q : Nat) : Pipe :=
  let e := p.queue q
  if e.state = .enabled || e.state = .paused then
    ((p.delist q).modQueue q (fun e => { e with state := .error })).signal q
  else p

/-- A dispatched job of a queue has completed: OUTST falls; a DRAINING queue with none becomes FREE (R448).
DEDUCED, log 132. -/
def Pipe.releaseOut (p : Pipe) (q : Nat) : Pipe :=
  (p.modQueue q (fun e =>
    let o := e.outst - 1
    { e with outst := o, state := if e.state = .draining && o = 0 then .free else e.state })).enlist q

/-! ## Descriptors (R91 to R97, R298) -/

/-- Decode of a 15-bit count whose 0 stands for a default given elsewhere. -/
def cap16384 (v : Nat) : Nat := min v 16384

/-- Decode a query descriptor (R95 tables). -/
def decodeQ (b : List Byte) : QDesc :=
  let kind := field b 0 4
  let mode := field b 4 2
  let ep := field b 6 2
  let pl := field b 8 2
  let vf := field b 48 4
  let me := field b 52 4
  { kind := if kind ≤ 2 then kind else 0, mode := if mode = 3 then 0 else mode, epMode := if ep = 3 then 0 else ep,
    payload := if pl = 3 then 0 else pl, rescore := fbit b 10, noRerank := fbit b 11, index := field b 16 16,
    dim := min (field b 32 14) 8192, vfmt := if vf ≤ 5 then vf else 0, metric := if me ≤ 4 then me else 0,
    rnet := field b 56 8, k := k16384 (field b 64 15), nprobe := cap16384 (field b 80 15),
    ncand := cap16384 (field b 96 15), rbMax := field b 112 16, tag := field b 128 64, pinEpoch := field b 192 48,
    filt := (List.range 4).map (fun i => field b (256 + 16 * i) 16), fcomb := fbit b 320,
    thresh := threshOf (BitVec.ofNat 32 (field b 352 32)), etab := field b 384 16, nrows := min (field b 400 11) 1024,
    mean := fbit b 411, beam := field b 416 8, hops := field b 424 8 }

/-- Decode an ingest batch descriptor (R298 table). -/
def decodeB (b : List Byte) : BDesc :=
  let vf := field b 28 3
  { index := field b 0 16, nrec := min (field b 16 11) 1024, vfmt := if vf ≤ 5 then vf else 0, repl := fbit b 31,
    rconn := field b 32 18, dim := min (field b 50 14) 8192, tag := field b 64 64 }

/-- The index that a handle names now. -/
def Pipe.index (p : Pipe) (h : Nat) : Option IdxCopy :=
  match p.handles.get? h with
  | some l => (p.idx.get? l).filter (fun x => !x.dormant)
  | none => none

/-- The load that a handle names for a new job (R97, R283). -/
def Pipe.loadOf (p : Pipe) (h : Nat) : Option Nat := if (p.index h).isSome then p.handles.get? h else none

/-- The dimension that DIM 0 stands for: that of the named index, or 0 (R94, R298). -/
def Pipe.dimOf (p : Pipe) (dim h : Nat) : Nat :=
  if dim ≠ 0 then dim else match p.index h with | some x => x.desc.dim | none => 0

/-- Slots of a query, and where its parts lie in the trailing data (R93, R94): slots, vector offset in bytes. -/
def querySlots (d : QDesc) (dim : Nat) : Nat × Nat :=
  let bag := if d.kind = 1 || d.kind = 2 then ceilDiv (4 * d.nrows) 128 else 0
  let vec := if d.kind = 0 || d.kind = 2 then ceilDiv (dim * vfmtSize d.vfmt) 128 else 0
  (1 + bag + vec, 128 * bag)

/-- Slots of a batch and the slot offset of each record (R298), from the trailing data. -/
def batchSlots (dim esize : Nat) (data : List Byte) : Nat → Nat → List Nat → Nat × List Nat
  | 0, slot, offs => (slot, offs)
  | n + 1, slot, offs =>
    let h := (data.drop (128 * (slot - 1))).take 32
    let len := if field h 64 2 = 1 then 1 else ceilDiv (32 + dim * esize) 128
    batchSlots dim esize data n (slot + len) (offs ++ [slot])

/-- A job with every field at 0, or at what an absent descriptor decodes to. -/
def Job.zero : Job :=
  { batch := false, home := 0, queue := 0, slot := 0, slots := 1, tag := 0, cq := 0, frecv := false, void := false,
    compSeq := 0, act := 0, phase := .completing, stage := 0, d := decodeQ [], b := decodeB [], idx := none, etab := none,
    epoch := 0, mode := 0, est := 0, data := [], records := [], supplied := [], pooled := [], poolWait := 0, poolParts := [],
    poolCount := 0, forms := none, metric := 0, selChoice := none, selMerge := none, selRerank := none, selRescore := none,
    pend := 0, thresh := f32PosInf, probes := [], chosen := [], toScan := [], scanOut := 0, cands := [], group := 0, readsOut := 0,
    results := [], sumSel := 0, sumOut := 0, layer := 0, net := none, acts := [], outs := [], skipped := 0, fenceSkip := false,
    scanned := 0, use := Use.zero, abort := false, ending := none, applied := 0, maxU := 0, nextRec := 0, counted := false,
    order := 0, peer := none, ordered := true, poolConns := [] }

/-! ## Selection requests and their records (R264, R265) -/

/-- Change the core of a partition. -/
def Pipe.modCore (p : Pipe) (k : Nat) (f : CoreSt → CoreSt) : Pipe := p.modPart k (fun q => { q with core := f q.core })
def Pipe.core (p : Pipe) (k : Nat) : CoreSt := (p.part k).core

/-- Plate address of the record of request `n`. -/
def selRec (n : Nat) : Nat := 0x1000000 + 64 * n

/-- The unit writes what a program sees of request `n`: CTL cleared, STATE and the WO fields, and the RO fields of a request of a
stage program. DESIGN CHOICE, log 149. -/
def Pipe.showSel (p : Pipe) (k n : Nat) : Pipe :=
  let old := p.plateByte k (selRec n)
  match (p.core k).sel.get? n with
  | none => p.plateWrite k (selRec n) [BitVec.ofNat 8 (old.toNat / 64 * 64)]
  | some r =>
    (p.plateWrite k (selRec n) (if r.use = .user then [selByte0 old r] else selRecBytes r)).plateWrite k (selRec n + 24) (selWoBytes r)

/-- Remove a request: IDLE, and its register is free. -/
def Pipe.dropSel (p : Pipe) (k n : Nat) : Pipe :=
  (p.modCore k (fun c => { c with sel := c.sel.erase n, resident := c.resident.filter (· ≠ n) })).showSel k n

/-! ## Ends of jobs (R126, R128, R129) -/

/-- Clear the LOCK bit of a directory entry whose page is there (R300). -/
def Pipe.clearLock (p : Pipe) (k addr : Nat) : Pipe :=
  let b := p.iasRead (addr + 12) 1
  if p.iasReady addr 16 && fbit b 5 then p.iasPut k (addr + 12) [BitVec.ofNat 8 (leNat b - 32)] else p

/-- Release the directory locks of a batch (R301). -/
def Pipe.unlockJob (p : Pipe) (j : Nat) : Pipe :=
  let held := (List.range 16).flatMap (fun k => ((p.part k).locks.filter (·.job == j)).map (fun l => (k, l.addr)))
  let p1 := held.foldl (fun (p : Pipe) x => p.clearLock x.1 x.2) p
  { p1 with parts := p1.parts.map (fun q => { q with locks := q.locks.filter (·.job != j) }) }

/-- The stage programs of a job store DISCARD to each of its requests; blocks that still come for them are stray (R277). -/
def Pipe.discardAll (p : Pipe) (j : Nat) : Pipe :=
  (List.range 16).foldl (fun (p : Pipe) k =>
    ((p.core k).sel.filter (fun r => r.2.use != .user && r.2.job == j)).foldl (fun (p : Pipe) r => p.dropSel k r.1) p) p

/-- What a job held is given up: its waits, tiles, selection requests, walks, records and locks (R109, R265, R301,
R335). -/
def Pipe.letGo (p : Pipe) (j : Nat) : Pipe :=
  let p := (p.unlockJob j).discardAll j
  { p with
    parts := p.parts.map (fun q =>
      { q with
        recs := q.recs.filter (·.job != j), lockQueue := q.lockQueue.filter (fun x => x.1 != j),
        walkWait := q.walkWait.filter (fun w => match p.walks.get? w with | some x => x.job ≠ j | none => false),
        flash := { q.flash with reads := q.flash.reads.filter (fun r => match r with | .vector i _ _ _ _ => i ≠ j | .page _ _ => true) },
        core := { q.core with
          derot := q.core.derot.filter (·.job ≠ j), coarse := q.core.coarse.filter (· ≠ j),
          invWait := q.core.invWait.filter (·.job ≠ j), inv := q.core.inv.filter (·.job ≠ j),
          ctxs := match q.core.inv with | some v => if v.job = j then q.core.ctxs.erase v.ctx else q.core.ctxs | none => q.core.ctxs,
          vslots := match q.core.inv with
            | some v => if v.job = j then q.core.vslots.filter (fun x => x.2.ctx ≠ v.ctx) else q.core.vslots
            | none => q.core.vslots,
          tiles := (q.core.tiles.map (fun t => { t with jobs := t.jobs.map (fun x => if x = j then 0 else x) })).filter (fun t =>
            t.jobs.isEmpty || t.jobs.any (· != 0)) } }),
    walks := p.walks.filter (fun w => w.2.job ≠ j),
    unissued := p.unissued.filter (fun u => u.2.2.job ≠ j) }

/-- May an entry be written to this queue (R450, R451)? -/
def AlmEntry.takesComp (e : AlmEntry) : Bool := e.kind = .comp && (e.state = .enabled || e.state = .paused)

/-- Is the job the first to have reached COMPLETION of those on its completion queue (R121, R441)? -/
def Pipe.firstAt (p : Pipe) (j : Nat) : Bool :=
  match p.jobs.get? j with
  | none => false
  | some jb =>
    jb.phase = .completing &&
      p.jobs.all (fun x => x.1 == j || !(x.2.phase == .completing && x.2.cq == jb.cq && x.2.frecv == jb.frecv
        && decide (x.2.compSeq < jb.compSeq) && x.2.home == jb.home))

/-- The placement of the first job at COMPLETION begins on its COMP queue, once that of the job before it is over (R121,
R441, R443): the buffers that it may use are reserved, and count as held. -/
def Pipe.reserveFor (p : Pipe) (cq : Nat) : Pipe :=
  match p.jobs.find? (fun x => x.2.cq == cq && !x.2.frecv && x.2.peer.isNone && p.firstAt x.1) with
  | none => p
  | some (j, jb) =>
    let e := p.queue cq
    if jb.batch || jb.void || jb.ending.isSome || e.resvJob ≠ 0 || !e.takesComp then p
    else
      let n := min (e.rbCount - e.rbheld) (if jb.d.rbMax = 0 then 65535 else jb.d.rbMax)
      p.setQueue cq { e with resv := n, resvJob := j, rbheld := e.rbheld + n }

/-- A job waits for its completion entry. -/
def Pipe.toCompletion (p : Pipe) (j : Nat) : Pipe :=
  let p1 := ({ p with order := p.order + 1 }).modJob j (fun jb => { jb with phase := .completing, compSeq := p.order })
  match p1.jobs.get? j with
  | some jb => if jb.frecv then p1 else p1.reserveFor jb.cq
  | none => p1

/-- End a job early (R129): the first condition reached ends it; an abort waits as a mark (R128). -/
def Pipe.endJob (p : Pipe) (j status : Nat) (faultPart : Option Nat) : Pipe :=
  match p.jobs.get? j with
  | none => p
  | some jb =>
    if jb.ending.isSome then p
    else ((p.letGo j).modJob j (fun jb => { jb with ending := some (status, jb.stage, faultPart) })).toCompletion j

/-- End a job at a given stage. -/
def Pipe.endJobAt (p : Pipe) (j status stage : Nat) (faultPart : Option Nat) : Pipe :=
  (p.modJob j (fun jb => if jb.ending.isSome then jb else { jb with stage := stage })).endJob j status faultPart

/-- An interface read of a job (R199, R211, R212): an uncorrectable unit ends it and names its partition (R129); false then. -/
def Pipe.readFor (p : Pipe) (j : Nat) (us : List Nat) : Pipe × Bool :=
  match p.readUnits us with
  | (p1, none) => (p1, true)
  | (p1, some k) => (p1.endJob j stABORTED (some k), false)

/-- Pages that a job asks for before it goes on: none when all are there; one in a fenced partition, or that finds no frame, ends
it (R47, R375, R382). -/
def Pipe.needFor (p : Pipe) (j : Nat) (l : List PageId) : Option Pipe :=
  if p.pagesHere l then none
  else match p.lostAt l with
    | some k => some (p.endJob j stFENCED (some k))
    | none =>
      let (p1, fail) := p.wantPages l
      some (if fail then p1.endJob j stABORTED none else p1)

/-- An abort of a job is accepted (R125): it waits as a mark for the next stage boundary; POOL ends at once (R361). DEDUCED, log 172. -/
def Pipe.markAbort (p : Pipe) (j : Nat) : Pipe :=
  let p1 := p.modJob j (fun y => { y with abort := true })
  match p.jobs.get? j with
  | some jb => if (jb.phase = .bag || jb.phase = .pooling) && jb.peer.isNone then p1.endJob j stABORTED none else p1
  | none => p1

/-- A stage boundary (R126): an aborted job ends with the last stage begun, any other begins the next one. -/
def Pipe.stageTo (p : Pipe) (j stage : Nat) (ph : Phase) : Pipe :=
  match p.jobs.get? j with
  | none => p
  | some jb =>
    if jb.ending.isSome then p
    else if jb.abort && !jb.batch then p.endJob j stABORTED none
    else p.modJob j (fun jb => { jb with stage := stage, phase := ph })

/-- Does the job still run at a phase? -/
def Pipe.jobAt (p : Pipe) (j : Nat) (ph : Phase) : Option Job :=
  match p.jobs.get? j with
  | some jb => if jb.phase = ph && jb.ending.isNone then some jb else none
  | none => none

/-! ## Completion entries (R113 to R123, R436, R441 to R443, R450) -/

/-- What a completion entry says besides its queue's own fields. -/
structure CompFields where
  /-- an ingest batch, whose RB_FIRST is 0 (R299 table). -/
  ingest : Bool
  tag : Nat
  status : Nat
  mode : Nat
  stage : Nat
  fenceSkip : Bool
  sq : Nat
  sqIndex : Nat
  fault : Option Nat
  count : Nat
  dropped : Nat
  epoch : Nat
  skipped : Nat
  sumSel : W32
  sumOut : W32
  charge : Nat
  scanned : Nat
  deriving DecidableEq, Repr

/-- The bytes of a completion entry (R113 tables). -/
def compBytes (c : CompFields) (phase : Bool) (rbFirst rbUsed : Nat) : List Byte :=
  packBytes 64 [(64, c.tag), (8, c.status), (1, b2n phase), (2, c.mode), (4, c.stage), (1, b2n c.fenceSkip), (24, c.sq),
    (16, c.sqIndex), (4, c.fault.getD 0), (1, b2n c.fault.isSome), (3, 0), (16, c.count), (16, c.dropped),
    (16, rbFirst), (16, rbUsed), (48, c.epoch), (16, min c.skipped 0xFFFF), (32, c.sumSel.toNat), (32, c.sumOut.toNat),
    (32, c.charge), (32, min c.scanned sat32Max), (128, 0)]

/-- A result record with its payload (R115). -/
def resultBytes (payload vbytes : Nat) (finder : Bool) (c : Cand) : List Byte :=
  let noPl := payload = 2 && (finder || c.vec.isEmpty)
  packBytes 16 [(64, recExt c.rcd), (32, c.score.toNat), (4, c.part), (1, b2n (recNan c.rcd || f32IsNan c.score)),
    (1, b2n c.sketchOnly), (1, b2n noPl)]
  ++ (match payload with
      | 1 => padTo 32 c.rcd
      | 2 => padTo (ceilDiv vbytes 16 * 16) (if noPl then [] else c.vec)
      | _ => [])

/-- Bytes of one result of a query. -/
def resultLen (payload vbytes : Nat) : Nat :=
  16 + (match payload with | 1 => 32 | 2 => ceilDiv vbytes 16 * 16 | _ => 0)

/-- Cut a byte stream over result buffers (R122): (buffer index, bytes); `fuel` bounds the buffers. -/
def bufParts (size count : Nat) : Nat → Nat → List Byte → List (Nat × List Byte)
  | 0, _, _ => []
  | _, _, [] => []
  | n + 1, i, bs => (i % count, bs.take size) :: bufParts size count n (i + 1) (bs.drop size)

/-- The placement of results into a free run (R121, R123): count written, buffers used. -/
def placement (n len size free rbMax : Nat) : Nat × Nat :=
  let res := min free (if rbMax = 0 then 65535 else rbMax)
  let cnt := min n (res * size / len)
  (cnt, ceilDiv (cnt * len) size)

/-- The completion fields of a job and its results; a status other than OK voids the results (R114, R299 table). -/
def Pipe.compFields (p : Pipe) (jb : Job) (status stage : Nat) (fault : Option Nat) (count dropped : Nat) : CompFields :=
  let _ := p
  let ok := status = stOK || status = stTRUNCATED
  if jb.batch then
    { ingest := true, tag := jb.tag, status := status, mode := 0, stage := stage, fenceSkip := false, sq := jb.queue, sqIndex := jb.slot,
      fault := fault, count := if status = stOK then jb.applied else 0, dropped := 0, epoch := jb.maxU,
      skipped := jb.skipped, sumSel := 0, sumOut := 0, charge := jb.use.charge, scanned := 0 }
  else
    { ingest := false, tag := jb.tag, status := status, mode := jb.mode, stage := stage, fenceSkip := jb.fenceSkip, sq := jb.queue,
      sqIndex := jb.slot, fault := fault, count := if ok then count else 0, dropped := if ok then dropped else 0,
      epoch := if stage = 0 then 0 else jb.epoch, skipped := jb.skipped, sumSel := if ok then jb.sumSel else 0,
      sumOut := if ok then jb.sumOut else 0, charge := jb.use.charge, scanned := jb.scanned }

/-- Bytes of a job's stored full vectors (R115 VECTOR payload). -/
def Pipe.vectorBytes (p : Pipe) (jb : Job) : Nat :=
  match jb.idx with
  | some l => match p.idx.get? l with | some x => fmtBytes x.drp.fvfmt x.desc.dim | none => 0
  | none => 0

/-- The queue that takes a completion: the job's own, else the orphan queue (R450). -/
def Pipe.compTarget (p : Pipe) (k cq : Nat) : Option Nat :=
  if (p.queue cq).takesComp then some cq
  else if (p.queue (k * 2 ^ 20)).takesComp then some (k * 2 ^ 20) else none

/-- Write bytes to a ring or buffer of a queue, in host memory with a relaxed-ordering attribute where the spec gives it, or in
the index address space. -/
def Pipe.ringPut (p : Pipe) (k : Nat) (e : AlmEntry) (addr : Nat) (bs : List Byte) (relaxed : Option Bool) : Pipe :=
  if bs.isEmpty then p
  else if e.ias then p.iasPut k addr bs
  else { p with out := p.out ++ [.write (if e.pf then 0 else k + 1) addr bs relaxed] }

/-- One completion entry at PIDX with its results' buffers (R118, R299 table, R436, R442): the entry with the relaxed-ordering
attribute clear. -/
def Pipe.putComp (p : Pipe) (k q : Nat) (c : CompFields) (stream : List Byte) (used : Nat) : Pipe :=
  let e := p.queue q
  let parts := bufParts e.rbSize e.rbCount (used + 1) e.rbnext stream
  let p1 := parts.foldl (fun p x => p.ringPut k e (e.rbbase / 4096 * 4096 + e.rbSize * x.1) x.2 none) p
  let p2 := p1.ringPut k e (e.slotAddr (e.pidx % e.size)) (compBytes c e.cphase (if c.ingest then 0 else e.rbnext % 65536) used) (some false)
  let p3 := p2.modQueue q (fun e => { e.advP with rbnext := (e.rbnext + used) % e.rbCount, rbheld := e.rbheld + used })
  p3.signal q

/-- True-up at the completion entry (R462). -/
def Pipe.trueUp (p : Pipe) (jb : Job) : Pipe :=
  if !jb.counted then p else
  let charge := jb.use.charge
  let d : Int := (charge : Int) - jb.est
  let e := p.queue jb.queue
  let p1 := if e.state = .free then p else
    let p1 := p.setQueue jb.queue { e with deficit := clampI 32 (e.deficit - d) }
    if e.shaper = 0 then p1 else
      p1.modPart jb.home (fun q =>
        let s := q.sched.shaper e.shaper
        { q with sched := { q.sched with shapers := q.sched.shapers.set e.shaper { s with tokens := clampI 64 (s.tokens - 256 * d) } } })
  let h := if jb.batch then jb.b.index else jb.d.index
  match jb.idx with
  | none => p1
  | some _ =>
    p1.modPart jb.home (fun q =>
      let es := q.sched.est h
      let es' :=
        if jb.batch then (if jb.b.nrec = 0 then es else { es with record := estUpdate es.record (charge / jb.b.nrec) })
        else match jb.mode with
          | 1 => { es with zenith := estUpdate es.zenith charge }
          | 2 => { es with finder := estUpdate es.finder charge }
          | _ => { es with survey := estUpdate es.survey charge }
      { q with sched := { q.sched with ests := q.sched.ests.set h es' } })

/-- The registers of a partition's power domain at their reset values (R669). DEDUCED, log 76. -/
def Part.clearRegs (q : Part) : Part :=
  { q with
    ueBits := 0, ce := 0, trapCnt := 0, trapCause := 0, alm := { q.alm with dbdrop := 0, orphan := 0, miss := 0 },
    sched := { q.sched with finder := 0, forgive := 0 }, flash := { q.flash with ue := 0 } }

/-- A partition after a job is over: it reads no extent, old piece or old piece table any more (R289, R311, R412). -/
def Part.forget (q : Part) (j : Nat) : Part :=
  let last := q.oldTabs.filter (fun (t : Nat × Nat × Nat × List Nat) => t.2.2.2 == [j])
  let free := fun (m : Tbl (List (Nat × Nat))) (t : Nat × Nat × Nat × List Nat) =>
    m.adj t.1 (fun rs => rs.filter (· != (t.2.1, t.2.2.1)))
  let tabs := q.oldTabs.map (fun (t : Nat × Nat × Nat × List Nat) => (t.1, t.2.1, t.2.2.1, t.2.2.2.filter (· ≠ j)))
  { q with
    flash := { q.flash with exts := q.flash.exts.mapv (fun (x : Extent) => { x with readers := x.readers.filter (· ≠ j) }) },
    comps := q.comps.map (fun (c : PieceComp) => { c with readers := c.readers.filter (· ≠ j) }),
    regions := last.foldl free q.regions, oldTabs := tabs.filter (fun t => !t.2.2.2.isEmpty) }

/-- The job is over: its context is freed, copies that it alone used are freed (R283), OUTST falls (R98, R118), and the placement
of the next job begins on its COMP queue (R441). -/
def Pipe.retire (p : Pipe) (j : Nat) : Pipe :=
  match p.jobs.get? j with
  | none => p
  | some jb =>
    let p1 := { p with jobs := p.jobs.erase j, parts := p.parts.map (fun (q : Part) => q.forget j) }
    let p2 := if jb.peer.isSome || !jb.counted then p1.sweep else p1.sweep.releaseOut jb.queue
    if jb.frecv || jb.peer.isSome then p2 else p2.reserveFor jb.cq

/-- The status, stage and fault that a job completes with. -/
def Job.endOf (jb : Job) : Nat × Nat × Option Nat :=
  match jb.ending with
  | some e => e
  | none => if jb.abort && !jb.batch then (stABORTED, jb.stage, none) else (stOK, 8, none)

/-- A placement takes up the reservation of its job, or of all free buffers that R121 allows when it has none: the buffers
count as held no longer. -/
def AlmEntry.unreserve (e : AlmEntry) (j : Nat) : AlmEntry × Nat :=
  if e.resvJob = j then ({ e with resv := 0, resvJob := 0, rbheld := e.rbheld - e.resv }, e.resv)
  else (e, e.rbCount - e.rbheld)

/-- Write a job's results and completion entry to a COMP queue (R113 to R123): unchanged while the ring has no free
entry. `trueup` false at the I/O die (R462). -/
def Pipe.complete (p : Pipe) (j : Nat) (trueup : Bool) : Pipe :=
  match p.jobs.get? j with
  | none => p
  | some jb =>
    if jb.void then (p.retire j)
    else
      let (st, stage, fault) := jb.endOf
      let fin := fun (p : Pipe) => (if trueup then p.trueUp jb else p).retire j
      match p.compTarget jb.home jb.cq with
      | none =>
        fin (p.modPart jb.home (fun q => { q with alm := { q.alm with orphan := satAdd q.alm.orphan 1 } }))
      | some q =>
        let e := p.queue q
        if e.freeSlots = 0 then p
        else
          let vb := p.vectorBytes jb
          let len := resultLen jb.d.payload vb
          let n := jb.results.length
          let u := e.unreserve j
          let (cnt, used) := if st = stOK && !jb.batch then placement n len e.rbSize u.2 jb.d.rbMax else (0, 0)
          let st' := if st = stOK && !jb.batch && cnt < n then stTRUNCATED else st
          let stream := (jb.results.take cnt).flatMap (resultBytes jb.d.payload vb (jb.mode == 2))
          let jb2 : Job := if e.ias then { jb with use := jb.use.add 2 (64 + stream.length) } else jb
          let c := p.compFields jb2 st' stage fault cnt (n - cnt)
          let p1 := ((p.setQueue q u.1).touchQueue q).putComp jb.home q c stream used
          let p2 := if e.ias then p1.count jb.home jb.act 2 (64 + stream.length) else p1
          (if trueup then p2.trueUp jb2 else p2).retire j

/-! ## Doorbells (R438 to R444) -/

/-- Count a doorbell that is dropped or ignored. -/
def Pipe.dropBell (p : Pipe) (k : Nat) : Pipe :=
  p.modPart k (fun q => { q with alm := { q.alm with dbdrop := satAdd q.alm.dbdrop 1 } })

/-- RB_FIRST and RB_USED of a completion entry's bytes (R113 tables). -/
def compRb (b : List Byte) : Nat × Nat := (le16 b 20, le16 b 22)

/-- A consumer doorbell with the completion entry that it reads (R444). -/
def AlmEntry.consume (e : AlmEntry) (index : Nat) (entry : List Byte) : AlmEntry :=
  let c := index % e.size
  let (first, used) := compRb entry
  { e with cidx := c, rbheld := (if c = e.pidx % e.size then 0 else rbHeldOf e.rbnext e.rbCount first used) + e.resv }

/-- A doorbell takes effect (R439, R444): none while the completion entry that it reads lies in a page that is away (R375), which
is asked for. `ring` is what that entry holds in host memory. DEDUCED, log 135. -/
def Pipe.bell (p : Pipe) (k q index : Nat) (ring : Option (List Byte)) : Pipe × Bool :=
  let p1 := p.touchQueue q
  let e := p1.queue q
  if e.kind = .frecv || !(e.state = .enabled || e.state = .paused) then (p1.dropBell k, true)
  else if e.kind ≠ .comp then ((p1.setQueue q { e with pidx := index % e.size }).enlist q, true)
  else
    let at_ := e.slotAddr (index % e.size)
    if index % e.size = e.pidx % e.size then (p1.setQueue q (e.consume index []), true)
    else if e.ias then
      if p1.iasReady at_ 64 then (p1.setQueue q (e.consume index (p1.iasRead at_ 64)), true)
      else ((p1.want at_ 64).1, false)
    else match ring with
      | some b => (p1.setQueue q (e.consume index b), true)
      | none => (p1.queueError q, true)

/-- Write the doorbell queue of partition k. -/
def Pipe.setBells (p : Pipe) (k : Nat) (bs : List (Nat × Nat × Option (List Byte))) : Pipe :=
  p.modPart k (fun x => { x with alm := { x.alm with bells := bs } })

/-- The doorbells of partition k that wait, in order of arrival, as far as they can be taken (R440). -/
def Pipe.takeBells (p : Pipe) (k : Nat) : Nat → Pipe
  | 0 => p
  | n + 1 => match (p.part k).alm.bells with
    | [] => p
    | (q, index, ring) :: rest =>
      match p.bell k q index ring with
      | (p1, true) => (p1.setBells k rest).takeBells k n
      | (p1, false) => p1

/-- Every partition's doorbells go on after a page has come in. -/
def Pipe.freeBells (p : Pipe) : Pipe :=
  (List.range 16).foldl (fun (p : Pipe) k => if p.fenced k then p else p.takeBells k (p.part k).alm.bells.length) p

/-- ALM_DOORBELLk (R438 to R444): `v` names the queue and the index; `ring` is what the entry that a consumer doorbell
reads holds in host memory. Behind a doorbell that waits, others wait in order, a later one for the same queue in its place; of a
4,097th the write itself waits on the link (R440). DEDUCED, log 136. -/
def almDoorbell (k nbytes v : Nat) (ring : Option (List Byte)) (p : Pipe) : Pipe :=
  let q := bitsOf v 0 24
  let index := bitsOf v 24 16
  let bells := (p.part k).alm.bells
  if nbytes < 8 || queuePart q ≠ k || q / 2 ^ 20 ≠ k || p.fenced k then p.dropBell k
  else if bells.isEmpty then
    match p.bell k q index ring with
    | (p1, true) => p1
    | (p1, false) => p1.setBells k [(q, index, ring)]
  else if bells.any (fun b => b.1 == q) then p.setBells k (bells.map (fun b => if b.1 = q then (q, index, ring) else b))
  else if bells.length ≥ 4096 then p
  else p.setBells k (bells ++ [(q, index, ring)])

end Sys2Proof.Machine
end

