-- ==== Sys2Proof/Machine/Query.lean ====
section
/-!
DEFINITION. Sys2Proof/Machine/Query.lean: the stages of a query from the Derotator to the scans, as operations that
stage programs perform (chapters 03, 05, 08 and 09).
-/
namespace Sys2Proof.Machine

/-! ## Metrics and constants (R107 table, R189) -/

/-- The decoded metric of a job, 0 inner product, 1 L2, 2 cosine, 3 Hamming, from METRIC of the descriptor and of the
index. -/
def metricOf (d x : Nat) : Nat := if d = 0 then x else d - 1

/-- Are scores negated on entry to selection? -/
def negMetric (m : Nat) : Bool := m = 0 || m = 2

/-- -2 as fp32, and -0.5. -/
def f32MinusTwo : W32 := 0xC0000000#32
def f32MinusHalf : W32 := 0xBF000000#32

/-- A product of constants as the Derotator forms it (R175): it saturates and carries no -0. -/
def constMul (a b : W32) : W32 := noNegZero (satMulF a b)

/-- QSCL, QOFF and QBIAS of a stage (R175, R189): stage 0 coarse, 1 scan or cache tier, 2 full-vector store. -/
def stageConst (stage metric : Nat) (v : QVec) (cscale : W32) (len : Nat) : W32 × W32 × W32 :=
  let s := if stage = 0 then constMul v.sq cscale else if stage = 1 then v.sq else f32One
  let a := if stage = 1 then v.a else 0#32
  match metric with
  | 1 => (constMul f32MinusTwo s, if stage = 1 then constMul f32MinusTwo a else 0#32, v.n)
  | 3 => (f32MinusHalf, 0#32, satDivF (f32OfInt len) (f32OfInt 2))
  | _ => (s, a, 0#32)

/-- An operand row reduced to the signs of its elements, 1-bit codes (R189, Hamming). -/
def signRow (f : Nat) (bs : List Byte) (d : Nat) : List Byte :=
  packBits ((List.range d).map (fun i => !((elemNum f bs i).lt (numOfInt 0))))

/-- Format and bytes of an operand row for a metric. -/
def opFmt (metric f : Nat) : Nat := if metric = 3 then 7 else f
def opRow (metric f : Nat) (bs : List Byte) (d : Nat) : List Byte := if metric = 3 then signRow f bs d else bs

/-- The scan operand of a Hamming query: the codes of QFMT_S reduced to their signs, still in QFMT_S, to which the home
core sizes QLEN (R189, R246). DEDUCED, log 141. -/
def signCodes (v : QVec) (d : Nat) : List Byte :=
  if v.fmt = 7 then v.codes
  else packInts v.fmt ((List.range d).map (fun n => hammSign (codeElem v.fmt v.codes n)))

/-! ## Core resources -/

/-- A stage program opens a selection request without bound (R276), at the lowest free number, with IDMAP_EN as given. -/
def Pipe.openSel (p : Pipe) (k j : Nat) (use : SelUse) (n : Nat) (neg : Bool) (cls : Nat) (idmap : Bool)
    (fwd : Option (Nat × Nat)) : Pipe × Nat :=
  let num := ((p.core k).sel.freeKey 4096).getD 0
  let r : SelReq := { SelReq.reset with
    state := .opened, k := k16384 n, neg := neg, cls := cls, thresh := f32PosInf, fwd := fwd.isSome,
    fcore := (fwd.getD (0, 0)).1, freq := (fwd.getD (0, 0)).2, job := j, use := use,
    idmapEn := idmap }
  ((p.modCore k (fun c => { c with sel := c.sel.set num r })).showSel k num, num)

/-- Enqueue a tile; a stage program waits on its handle (R154). -/
def Pipe.addTile (p : Pipe) (k : Nat) (t : Tile) : Pipe :=
  p.modCore k (fun c => { c with tiles := c.tiles ++ [{ t with handle := c.nextHandle }], nextHandle := (c.nextHandle + 1) % 65536 })

/-- PART and id of an entry that a tile or VSEL sends (R266): IDMAP, or DEFPART. DEDUCED, log 148. -/
def Pipe.mapId (p : Pipe) (k : Nat) (r : SelReq) (e : W32 × Nat × Nat) : W32 × Nat × Nat :=
  if r.idmapEn && e.2.2 < 256 then
    let m := p.plateRead k (r.idmap + 8 * e.2.2) 8
    (e.1, field m 32 4, le32 m 0)
  else (e.1, r.defPart, e.2.2)

/-- Does an entry from this source to this request pass through IDMAP? Those that a stage program sends to a request of its own
carry what its map gives. -/
def SelReq.maps (r : SelReq) (src : BlockSrc) : Bool := r.use == .user && (src == .tile || src == .vsel)

/-- Blocks of up to 32 entries join those that wait for the selection unit of a core (R266, R267). -/
def Pipe.putBlocks (p : Pipe) (k target : Nat) (src : BlockSrc) (job : Nat) (mapped : Bool) (es : List (W32 × Nat × Nat)) : Pipe :=
  p.modCore k (fun c =>
    { c with blocks := c.blocks ++ (chunks 32 (es.length + 1) es).map (fun b =>
        { target := target, src := src, entries := b, runEnd := none, job := job, mapped := mapped }) })

/-- Deliver entries to the selection unit of a core: each takes its PART and id as it reaches the unit (R266). -/
def Pipe.deliver (p : Pipe) (k target : Nat) (src : BlockSrc) (job : Nat) (es : List (W32 × Nat × Nat)) : Pipe :=
  match (p.core k).sel.get? target with
  | some r => if r.maps src then p.putBlocks k target src job true (es.map (p.mapId k r)) else p.putBlocks k target src job false es
  | none => p.putBlocks k target src job false es

/-- A tile with the defaults that stage programs use. -/
def Tile.stage (cls d afmt bfmt : Nat) (arows brows : List (List Byte)) (rowc : List (W32 × W32 × W32))
    (ids : List (Nat × Nat)) (sel jobs : List Nat) : Tile :=
  { handle := 0, cls := cls, d := d, afmt := afmt, bfmt := bfmt, epi := 1, arows := arows, brows := brows, rowc := rowc,
    colc := [], cb := .none, ids := ids, sel := sel, out := none, use := .plain, jobs := jobs, kernel := none, next := 0,
    acc := [] }

/-- Is a tile of the job in a core's queue? -/
def CoreSt.hasTile (c : CoreSt) (j : Nat) : Bool := c.tiles.any (fun t => t.jobs.contains j)

/-- The copy of a job's index. -/
def Pipe.idxOf (p : Pipe) (jb : Job) : Option IdxCopy := jb.idx.bind p.idx.get?

/-- Class of a job's work by mode: 0 for Zenith, `c` otherwise (R160, R219, R267). -/
def Job.cls (jb : Job) (c : Nat) : Nat := if jb.mode = 1 then 0 else c

/-! ## Coarse (R109, R110, R284, R285) -/

/-- |c|^2 of a centroid row from its stored codes under CSCALE (R284). -/
def centNorm (x : DrpBlock) (d : Nat) (row : List Byte) : W32 :=
  ((List.range d).map (fun i => satMulF x.cscale (f32Enc (elemNum x.cfmt row i)))).foldl
    (fun acc y => f32Add acc (f32Mul y y)) 0#32

/-- The decoded probe count in the mode of the job (R97, R111). -/
def Job.probeCount (jb : Job) (x : IdxCopy) : Nat :=
  let n := if jb.d.nprobe = 0 then x.desc.nprobe else jb.d.nprobe
  let n := if jb.mode = 2 then max 1 (n / 4) else n
  min n x.desc.nclust

/-- NCAND as decoded: at least K (R97). -/
def Job.ncand (jb : Job) (x : IdxCopy) : Nat :=
  max (if jb.d.ncand = 0 then x.desc.ncand else jb.d.ncand) jb.d.k

/-- Coarse tiles over centroid rows `lo` to `lo + n - 1` on core `c`, for the jobs of a batch with their requests. -/
def Pipe.coarseTiles (p : Pipe) (c : Nat) (x : IdxCopy) (metric cls : Nat) (rows : List (Nat × Nat)) : Nat → Nat → Nat → Pipe
  | 0, _, _ => p
  | _, _, 0 => p
  | fuel + 1, lo, n =>
    let m := min n 256
    let dr := rotLen x.drp.blklog x.desc.dim
    let form := fun (j : Nat) => match p.jobs.get? j with | some jb => jb.forms.map (fun (f : QueryForms) => f.coarse) | none => none
    let empty : QVec := ⟨0, 0#32, [], 0#32, 0#32⟩
    let t := Tile.stage cls dr (opFmt metric (match rows with | r :: _ => ((form r.1).getD empty).fmt | [] => 0))
      (opFmt metric x.drp.cfmt)
      (rows.map (fun r => let v := (form r.1).getD empty; opRow metric v.fmt v.codes dr))
      ((List.range m).map (fun i => opRow metric x.drp.cfmt (x.rows.getD (lo + i) []) dr))
      (rows.map (fun r => stageConst 0 metric ((form r.1).getD empty) x.drp.cscale dr))
      ((List.range m).map (fun i => (lo + i, 0))) (rows.map Prod.snd) (rows.map Prod.fst)
    let t1 := if metric = 1 then { t with cb := .vals ((List.range m).map (fun i => x.norms.getD (lo + i) 0#32)) } else t
    (p.addTile c t1).coarseTiles c x metric cls rows fuel (lo + 256) (n - m)

/-- Open the CHOICE request of a job on a core (R276). -/
def Pipe.openChoice (p : Pipe) (k j : Nat) (jb : Job) (x : IdxCopy) (fwd : Option (Nat × Nat)) : Pipe × Nat :=
  p.openSel k j .choice (jb.probeCount x) (negMetric jb.metric) (jb.cls 2) false fwd

/-- The queries that wait at COARSE with a job: those of its index and its decoded metric, at most 256 (R109). -/
def Pipe.coarseGroup (p : Pipe) (k j : Nat) : List Nat :=
  match p.jobs.get? j with
  | none => []
  | some jb => ((p.core k).coarse.filter (fun i =>
      match p.jobs.get? i with | some y => y.idx == jb.idx && y.metric == jb.metric | none => false)).take 256

/-- Close a Survey batch at core k and issue its tiles (R109): one that holds 256 queries, or the first to have come once
the arrays are free. -/
def Pipe.coarseBatch (p : Pipe) (k : Nat) : Pipe :=
  let c := p.core k
  let full := c.coarse.find? (fun j => decide ((p.coarseGroup k j).length ≥ 256))
  match full.orElse (fun _ => c.coarse.head?) with
  | none => p
  | some j =>
    match p.jobs.get? j with
    | none => p.modCore k (fun c => { c with coarse := c.coarse.erase j })
    | some jb =>
      match p.idxOf jb with
      | none => p
      | some x =>
        let batch := p.coarseGroup k j
        if batch.length < 256 && c.tiles.any (fun t => t.cls ≤ 2) then p
        else
          let p1 := p.modCore k (fun c => { c with coarse := c.coarse.filter (fun i => !batch.contains i) })
          let (p2, rows) := batch.foldl (fun (acc : Pipe × List (Nat × Nat)) i =>
            match acc.1.jobs.get? i with
            | none => acc
            | some y =>
              let (q, n) := acc.1.openChoice k i y x none
              (q.modJob i (fun y => { y with selChoice := some n, phase := .scoring }), acc.2 ++ [(i, n)])) (p1, [])
          p2.coarseTiles k x jb.metric 2 rows (x.desc.nclust / 256 + 1) 0 x.desc.nclust

/-- The coarse stage of a Zenith query (R110, R285): each unfenced core its own sixteenth, the home core also those of
fenced partitions. -/
def Pipe.zenithCoarse (p : Pipe) (j : Nat) (jb : Job) (x : IdxCopy) : Pipe :=
  let len := ceilDiv x.desc.nclust 16
  let (p1, home) := p.openChoice jb.home j jb x none
  let p2 := p1.modJob j (fun y => { y with selChoice := some home, phase := .scoring })
  (List.range 16).foldl (fun (p : Pipe) c =>
    let lo := c * len
    let n := min len (x.desc.nclust - lo)
    if n = 0 then p
    else if c = jb.home || p.fenced c then p.coarseTiles jb.home x jb.metric 0 [(j, home)] (n / 256 + 1) lo n
    else
      let (q, r) := p.openChoice c j jb x (some (jb.home, home))
      q.coarseTiles c x jb.metric 0 [(j, r)] (n / 256 + 1) lo n) p2

/-- Enter STAGE 0x3 (R100): wait for a batch, or spread over the cores. -/
def Pipe.enterCoarse (p : Pipe) (j : Nat) : Pipe :=
  match (p.stageTo j 3 .coarse).jobAt j .coarse with
  | none => p.stageTo j 3 .coarse
  | some jb =>
    let p1 := p.stageTo j 3 .coarse
    match p1.idxOf jb with
    | none => p1
    | some x =>
      if jb.mode = 1 then p1.zenithCoarse j jb x
      else (p1.modCore jb.home (fun c => { c with coarse := c.coarse ++ [j] })).coarseBatch jb.home

/-! ## Requests to the NBUs (R104, R214, R220, R376) -/

/-- An NBU of a partition. -/
def Pipe.nbu (p : Pipe) (k pc : Nat) : Nbu := (p.part k).nbus.getD pc Nbu.idle
def Pipe.modNbu (p : Pipe) (k pc : Nat) (f : Nbu → Nbu) : Pipe :=
  p.modPart k (fun q => { q with nbus := q.nbus.set pc (f (q.nbus.getD pc Nbu.idle)) })

/-- A request enters the network to an NBU; the first 64 of the list are its queue, later ones wait in the network (R220). -/
def Pipe.inject (p : Pipe) (k pc : Nat) (r : NbuReq) : Pipe :=
  ({ p with nbuSeq := p.nbuSeq + 1 }).modNbu k pc (fun n => { n with queue := n.queue ++ [{ r with seq := p.nbuSeq }] })

/-- A request with every field at 0. -/
def NbuReq.zero : NbuReq :=
  { kernel := 8, cls := 0, neg := false, norm := false, fcomb := false, hamm := false, piece := 0, thresh := f32PosInf,
    smax := 1, repoch := 0, filt := [0, 0, 0, 0], qscl := 0, qoff := 0, qbias := 0, job := 0, home := 0, selreq := 0,
    arg0 := 0, arg1 := 0, operand := [], seq := 0, handOff := false }

/-- Does a context of core `home` that works for job j wait, because a request of it waits in the network (R220)? A job's stage
program runs on one context of a core. -/
def Pipe.waitsInNet (p : Pipe) (j home : Nat) : Bool :=
  let mine := fun (r : NbuReq) => r.job == j && r.home == home && !r.handOff && (r.kernel ≤ 1 || r.kernel == 4)
  p.unissued.any (fun u => mine u.2.2) || p.parts.any (fun q => q.nbus.any (fun n => (n.2.queue.drop 64).any mine))

/-- A core context issues a request, once its earlier ones have left the network (R220). -/
def Pipe.issue (p : Pipe) (k pc : Nat) (r : NbuReq) : Pipe :=
  if p.waitsInNet r.job r.home then { p with unissued := p.unissued ++ [(k, pc, r)] } else p.inject k pc r

/-- The PQ8 lookup tables of a query, S of 256 bytes (R244). DESIGN CHOICE, log 23. -/
def Pipe.pqTabs (p : Pipe) (j : Nat) : List Byte :=
  match p.jobs.get? j with
  | none => []
  | some jb =>
    match p.idxOf jb, jb.forms with
    | some x, some f => Config.pqTables x.book f.rotated jb.metric
    | _, _ => []

/-- The stage program keeps the tables of a long PQ8 code in the plate memory of core HOME at ARG1 (R244). DESIGN CHOICE, log 174. -/
def Pipe.keepTabs (p : Pipe) (k pc : Nat) (r : NbuReq) : Pipe :=
  if pqSweeps (p.hdrAt k pc r.piece) = 0 then p
  else p.plateWrite r.home r.arg1 (p.pqTabs r.job)

/-- The SCAN or BLOCK of a job on a piece (R189, R214, R215, R336). DEDUCED, log 141. -/
def Pipe.scanReq (p : Pipe) (j : Nat) (jb : Job) (x : IdxCopy) (kernel k pc a : Nat) (thresh : W32) (smax sel : Nat) :
    NbuReq :=
  let h := p.hdrAt k pc a
  let dr := rotLen x.drp.blklog x.desc.dim
  let v : QVec := match jb.forms with | some f => f.scan | none => ⟨0, 0#32, [], 0#32, 0#32⟩
  let c := stageConst 1 jb.metric v x.drp.cscale dr
  let rot := match jb.forms with | some f => f.rotated | none => []
  let pq := h.sfmt = 8
  let kc := fun i => Config.pqConst x.book rot jb.metric i
  let cs := if jb.metric = 3 then signCodes v dr else v.codes
  { NbuReq.zero with
    kernel := kernel, cls := jb.cls 1, neg := negMetric jb.metric, norm := jb.metric = 1, hamm := jb.metric = 3,
    fcomb := jb.d.fcomb, piece := a, thresh := thresh, smax := smax, repoch := jb.epoch, filt := jb.d.filt,
    qscl := if pq && jb.metric ≠ 3 then kc 0 else c.1, qoff := if pq && jb.metric ≠ 3 then kc 1 else c.2.1,
    qbias := if pq && jb.metric = 1 then kc 2 else c.2.2, job := j, home := jb.home, selreq := sel,
    arg1 := if pqSweeps h > 0 then Config.pqPlace j % 0x540000 else 0,
    operand := if pq then (p.pqTabs j).take 16384 else padTo (ceilDiv cs.length 32 * 32) cs }

/-- The scan threshold of a job now (R104): THRESH, then the bound of its MERGE request. -/
def Pipe.threshOfJob (p : Pipe) (jb : Job) : W32 :=
  match jb.selMerge with
  | none => jb.thresh
  | some n =>
    match (p.core jb.home).sel.get? n with
    | none => jb.thresh
    | some r => if f32Lt r.boundReg jb.thresh then r.boundReg else jb.thresh

/-- BOUND on the MERGE request before a group of scans (R272). -/
def Pipe.mergeBound (p : Pipe) (jb : Job) : Pipe :=
  match jb.selMerge with
  | none => p
  | some n => (p.modCore jb.home (fun c => { c with sel := c.sel.adj n SelReq.makeBound })).showSel jb.home n

/-- Issue the scans of a job whose pieces are there (R287, R376, R384), as far as the network takes them (R220). A piece in a
fenced partition ends the job. DEDUCED, log 152. -/
def Pipe.issueScans (p : Pipe) (j : Nat) : Pipe :=
  match p.jobAt j .scanning with
  | none => p
  | some jb =>
    match p.idxOf jb, jb.selMerge with
    | some x, some sel =>
      match jb.toScan.find? (fun r => p.fenced r.1) with
      | some r => p.endJob j stFENCED (some r.1)
      | none =>
        let ready := jb.toScan.filter (fun r => p.pagesHere (p.pieceSpan r.1 r.2.1 r.2.2))
        if ready.isEmpty || p.waitsInNet j jb.home then p
        else
          let p1 := p.mergeBound jb
          let th := p1.threshOfJob jb
          let (p2, gone) := ready.foldl (fun (acc : Pipe × List PieceRef) r =>
            if acc.1.waitsInNet j jb.home then acc
            else
              let q := acc.1.scanReq j jb x 0 r.1 r.2.1 r.2.2 th (jb.ncand x) sel
              ((acc.1.keepTabs r.1 r.2.1 q).inject r.1 r.2.1 q, acc.2 ++ [r])) (p1, [])
          p2.modJob j (fun y => { y with
            toScan := y.toScan.filter (fun r => !gone.contains r), scanOut := y.scanOut + gone.length, thresh := th })
    | _, _ => p

/-- Requests have left the network: the core contexts that waited go on (R220). -/
def Pipe.unblock (p : Pipe) : Pipe :=
  if p.unissued.isEmpty && p.jobs.all (fun j => j.2.toScan.isEmpty) then p
  else
    let p1 := p.unissued.foldl (fun (q : Pipe) u => q.issue u.1 u.2.1 u.2.2) { p with unissued := [] }
    p1.jobs.keys.foldl Pipe.issueScans p1

/-! ## CHOICE (R112, R286, R287, R383) -/

/-- The clusters still to be chosen, in order, as far as their entries are there (`fuel` bounds them). -/
def Pipe.chooseLoop (p : Pipe) (j : Nat) (x : IdxCopy) : Nat → Pipe
  | 0 => p
  | n + 1 =>
    match p.jobAt j .choosing with
    | none => p
    | some jb =>
      match jb.probes with
      | [] => p
      | c :: cs =>
        match p.needFor j (pagesOf p.variant64 (x.clAddr c) 32) with
        | some p1 => p1
        | none =>
          let e := p.cluster x c
          if p.fenced e.owner then
            let (p, ok) := p.readFor j (p.iasUnits (x.clAddr c) 32)
            if !ok then p
            else (p.modJob j (fun y => { y with probes := cs, skipped := y.skipped + 1, fenceSkip := true })).chooseLoop j x n
          else match p.needFor j (pagesOf p.variant64 e.ptab (8 * e.npiece)) with
          | some p1 => p1
          | none =>
            let (p, ok) := p.readFor j (p.iasUnits (x.clAddr c) 32 ++ p.iasUnits e.ptab (8 * e.npiece))
            if !ok then p else
            let refs := (p.pieceTab e.ptab e.npiece).map (fun r => (e.owner, r.1, r.2))
            let (p1, fail) := refs.foldl (fun (acc : Pipe × Bool) r =>
              let (q, f) := acc.1.wantPages (acc.1.pieceSpan r.1 r.2.1 r.2.2)
              (q, acc.2 || f)) (p, false)
            if fail then p1.endJob j stABORTED none
            else
              let p2 := { p1 with parts := modNth p1.parts e.owner (fun q =>
                { q with probed := refs.foldl (fun (t : Tbl Nat) (r : PieceRef) => t.set (hbmKey r.1 r.2.1 r.2.2) q.watchNo) q.probed }) }
              (p2.modJob j (fun y => { y with probes := cs, toScan := y.toScan ++ refs })).chooseLoop j x n

/-- Go on with CHOICE, and enter SCAN once every cluster has been chosen (R126, R287); without a piece to scan, MERGE follows
at once. DEDUCED, log 155. -/
def Pipe.chooseStep (p : Pipe) (j : Nat) : Pipe :=
  match p.jobAt j .choosing with
  | none => p
  | some jb =>
    match p.idxOf jb with
    | none => p
    | some x =>
      let p1 := p.chooseLoop j x (jb.probes.length + 1)
      match p1.jobAt j .choosing with
      | none => p1
      | some jb1 =>
        if !jb1.probes.isEmpty then p1
        else
          let p2 := p1.stageTo j 5 .scanning
          match p2.jobAt j .scanning with
          | none => p2
          | some jb2 =>
            let (p3, n) := p2.openSel jb2.home j .merge (jb2.ncand x) (negMetric jb2.metric) (jb2.cls 1) false none
            let p4 := (p3.modJob j (fun y => { y with selMerge := some n })).issueScans j
            match p4.jobAt j .scanning with
            | some y => if y.toScan.isEmpty && y.scanOut = 0 then p4.stageTo j 6 .merging else p4
            | none => p4

/-- Is every coarse output of a job in its CHOICE request: no tile, no run of another core and no block that waits? -/
def Pipe.coarseDone (p : Pipe) (j : Nat) (jb : Job) : Bool :=
  p.parts.all (fun q => !q.core.hasTile j
    && !(q.core.sel.any (fun r => r.2.job == j && r.2.use == .choice && r.2.fwd)))
  && !(p.core jb.home).blocks.any (fun b => b.job == j && some b.target == jb.selChoice)

/-- CLOSE of a home CHOICE request: the probed clusters, best first (R112, R276). -/
def Pipe.closeChoice (p : Pipe) (j : Nat) (jb : Job) (r : SelReq) : Pipe :=
  let p1 := p.stageTo j 4 .choosing
  match p1.jobAt j .choosing with
  | none => p1
  | some _ =>
    let ids := r.close.result.map (fun (e : SelEnt) => e.id)
    (((match jb.selChoice with | some n => p1.dropSel jb.home n | none => p1).modJob j (fun y =>
      { y with selChoice := none, probes := ids, chosen := ids })).chooseStep j)

/-! ## The Derotator (R103, R179, R180) -/

/-- Add two vectors element by element with saturation, of `n` elements (R354). -/
def addVec (n : Nat) (a b : List W32) : List W32 :=
  (List.range n).map (fun i => satAddF (a.getD i 0#32) (b.getD i 0#32))

/-- The quantised query of a context: each form's scale, sums and codes (R101, R184). -/
def QueryForms.bytes (f : QueryForms) : List Byte :=
  [f.plain, f.coarse, f.scan, f.rerank].flatMap (fun v =>
    leBytes 4 v.sq.toNat ++ leBytes 4 v.a.toNat ++ leBytes 4 v.n.toNat ++ v.codes)

/-- The query context keeps its quantised query in plate memory of the home core (R101, R184). DESIGN CHOICE, log 174. -/
def Pipe.keepQuery (p : Pipe) (k j : Nat) (f : QueryForms) : Pipe := p.plateWrite k (Config.queryPlace j % 0x720000) f.bytes

/-- A query passes the Derotator (R103, R174, R179): a NaN in the supplied or the pooled vector ends it; otherwise its forms
go to COARSE. The walk of a graph query is entered by the caller. -/
def Pipe.derotQuery (p : Pipe) (j : Nat) : Pipe :=
  match p.jobAt j .derot with
  | none => p
  | some jb =>
    match p.idxOf jb with
    | none => p
    | some x =>
      let given := fitDim x.desc.dim jb.supplied
      let pooled := fitDim x.desc.dim jb.pooled
      let bad := (jb.d.kind ≠ 1 && given.any f32IsNan) || (jb.d.kind ≠ 0 && pooled.any f32IsNan)
      if bad then p.endJobAt j stNAN 2 none
      else
        let row := match jb.d.kind with
          | 0 => given
          | 1 => pooled
          | _ => addVec x.desc.dim (pooled.map finite32) (given.map finite32)
        let f := Sys2Proof.Machine.derotQuery x.drp x.desc.dim (jb.metric == 2) row
        let p1 := (p.modJob j (fun y => { y with forms := some f })).keepQuery jb.home j f
        if x.desc.graph then p1 else p1.enterCoarse j

end Sys2Proof.Machine
end

