-- ==== Sys2Proof/Machine/Rerank.lean ====
section
/-!
DEFINITION. Sys2Proof/Machine/Rerank.lean: the stages of a query from MERGE to COMPLETION: candidates, re-rank groups,
learned re-scoring and payloads (R106, R111, R163 to R166, R190, R276, R288, R386).
-/
namespace Sys2Proof.Machine

/-! ## Payloads and the end of selection -/

/-- Bytes of a stored full vector (R291). -/
def IdxCopy.fullBytes (x : IdxCopy) : Nat := fmtBytes x.drp.fvfmt x.desc.dim

/-- Where the full vector of a candidate is (R291, R404, R406): a flash read of (extent, unit, units), or none, with
the count of bad locators. -/
def Pipe.fullAt (p : Pipe) (x : IdxCopy) (c : Cand) : Option (Nat × Nat × Nat) × Nat :=
  let e := recExtent c.rcd
  let u := recOffset c.rcd
  if e = 0xFFFFFF then (none, 0)
  else if p.pair.isSome && (p.flash c.part).okLoc e u then (some (e, u, unitsOf x.fullBytes), 0)
  else (none, 1)

/-- Issue a full-vector read (R404). -/
def Pipe.readVector (p : Pipe) (j i k e u n : Nat) : Pipe :=
  (p.modFlash k (fun f => { f with reads := f.reads ++ [.vector j i e u n] })).modJob j (fun y => { y with readsOut := y.readsOut + 1 })

/-- Read the full vectors that a VECTOR payload lacks, or go to COMPLETION (R115). -/
def Pipe.enterPayload (p : Pipe) (j : Nat) : Pipe :=
  match p.jobs.get? j with
  | none => p
  | some jb =>
    match p.idxOf jb with
    | none => (p.stageTo j 8 .completing).toCompletion j
    | some x =>
      let idx := (List.range jb.results.length).filter (fun i =>
        match jb.results[i]? with | some c => c.vec.isEmpty | none => false)
      if jb.d.payload ≠ 2 || jb.mode = 2 || idx.isEmpty then
        let p1 := p.stageTo j 8 .payload
        match p1.jobAt j .payload with
        | none => p1
        | some _ => p1.toCompletion j
      else
        let p1 := p.modJob j (fun y => { y with phase := .payload })
        let go := fun (p : Pipe) (i : Nat) =>
          match jb.results[i]? with
          | none => p
          | some c =>
            match p.fullAt x c with
            | (some (e, u, n), _) =>
              if p.fenced c.part then p.endJob j stFENCED (some c.part) else p.readVector j i c.part e u n
            | (none, b) => p.modFlash c.part (fun f => { f with badLoc := f.badLoc + b })
        let p2 := idx.foldl go p1
        match p2.jobAt j .payload with
        | none => p2
        | some jb2 =>
          if jb2.readsOut > 0 then p2
          else
            let p3 := p2.stageTo j 8 .payload
            match p3.jobAt j .payload with
            | none => p3
            | some _ => p3.toCompletion j

/-- The payload reads are in: COMPLETION begins. -/
def Pipe.payloadDone (p : Pipe) (j : Nat) : Pipe :=
  match p.jobAt j .payload with
  | none => p
  | some jb =>
    if jb.readsOut > 0 then p
    else
      let p1 := p.stageTo j 8 .payload
      match p1.jobAt j .payload with
      | none => p1
      | some _ => p1.toCompletion j

/-! ## Learned re-scoring (R163 to R166) -/

/-- Elements of a quantised vector as fp32. -/
def qvecElems (v : QVec) (d : Nat) : List W32 :=
  (List.range d).map (fun i => satMulF v.sq (f32Enc (elemNum v.fmt v.codes i)))

/-- The dequantised elements of a cache-tier row (R185, R385). -/
def rowElems (tfmt d n : Nat) (row : List Byte) : List W32 :=
  let m := row.length - 4
  let c := fp16Safe (le16 row m)
  let o := fp16Safe (le16 row (m + 2))
  (List.range (min d n)).map (fun i => satAddF (satMulF c (f32Enc (elemNum tfmt row i))) o)

/-- The candidate's vector as re-rank read it, D elements: a cache-tier row is rotated, and cut to D. DESIGN CHOICE, log 181. -/
def Cand.elems (c : Cand) (x : IdxCopy) : List W32 :=
  let d := x.desc.dim
  if !c.vec.isEmpty then (List.range d).map (fun i => f32Enc (elemNum x.drp.fvfmt c.vec i))
  else if !c.row.isEmpty then rowElems x.drp.tfmt d (rotLen x.drp.blklog d) c.row
  else (List.range d).map (Config.absentFeature c.ord)

/-- The input features of a candidate of rank `rank` (R163, R164). -/
def features (f : Nat) (x : IdxCopy) (q : QVec) (c : Cand) (rank : Nat) : List W32 :=
  let f := if f % 32 = 0 then 4 else f
  ((if bitOf f 0 then qvecElems q x.desc.dim else []) ++ (if bitOf f 1 then c.elems x else [])
    ++ (if bitOf f 2 then [c.score] else []) ++ (if bitOf f 3 then [c.sketch] else [])
    ++ (if bitOf f 4 then [f32OfInt rank] else [])).take 4096

/-- The codes of an activation row in AFMT under the layer's input scale, by which the values are divided.
DESIGN CHOICE, log 181. -/
def actRow (afmt : Nat) (iscale : W32) (xs : List W32) : List Byte :=
  packFloat (if afmt = 4 then bf16 else fp8e4m3) (xs.map (fun y => satDivF y iscale))

/-- The tiles of one layer (R165): rows by 256, columns by 256. -/
def Pipe.layerTiles (p : Pipe) (j : Nat) (jb : Job) (net : RNet) (l : Nat) (ly : RLayer) : Pipe :=
  let last := l + 1 = net.layers.length
  let m := jb.acts.length
  (List.range (ceilDiv m 256)).foldl (fun (p : Pipe) a =>
    (List.range (ceilDiv ly.width 256)).foldl (fun (p : Pipe) b =>
      let rows := (jb.acts.drop (256 * a)).take 256
      let n := min 256 (ly.width - 256 * b)
      let cols := (List.range n).map (fun i => 256 * b + i)
      let t := Tile.stage (jb.cls 1) ((jb.acts.headD []).length) net.afmt net.wfmt
        (rows.map (actRow net.afmt ly.iscale)) (cols.map (fun i => ly.rows.getD i []))
        (rows.map (fun _ => (ly.iscale, 0#32, 0#32))) (cols.map (fun i => (i, 256 * a))) [] [j]
      p.addTile jb.home { t with
        epi := if ly.relu && !last then 2 else 1, colc := cols.map (fun _ => (ly.wscale, 0#32)),
        cb := .vals (cols.map (fun i => ly.bias.getD i 0#32)), use := .layer j l }) p) p

/-- Begin layer `l`, or deliver the network's outputs to a RESCORE request after the last (R165, R276). DEDUCED, log 153. -/
def Pipe.enterLayer (p : Pipe) (j l : Nat) : Pipe :=
  match p.jobAt j .rescoring with
  | none => p
  | some jb =>
    match jb.net with
    | none => p
    | some net =>
      match net.layers[l]? with
      | some ly =>
        let p1 := p.modJob j (fun y => { y with layer := l, outs := y.acts.map (fun _ => List.replicate ly.width 0#32) })
        p1.layerTiles j jb net l ly
      | none =>
        let (p1, n) := p.openSel jb.home j .rescore jb.d.k true (jb.cls 1) true none
        let es := (List.zip jb.results jb.acts).map (fun x => (x.2.headD 0#32, x.1.part, x.1.ord))
        (p1.modJob j (fun y => { y with layer := l, selRescore := some n })).deliver jb.home n .tile j es

/-- An output tile of layer `l` has ended: its outputs, and the next layer once all are in. DEDUCED, log 153. -/
def Pipe.layerDone (p : Pipe) (j l : Nat) (acc : List (Nat × Nat × W32)) : Pipe :=
  let p1 := p.modJob j (fun y => { y with outs := acc.foldl (fun o x => modNth o x.1 (fun r => setNth r x.2.1 x.2.2)) y.outs })
  match p1.jobAt j .rescoring with
  | none => p1
  | some jb =>
    if (p1.core jb.home).tiles.any (fun t => t.use == .layer j l) then p1
    else (p1.modJob j (fun y => { y with acts := y.outs })).enterLayer j (l + 1)

/-- The final K are known: the network runs over them, or their payloads follow (R106, R166). Its QUERY feature is the unrotated
query, also where the cache tier gave the VECTOR feature. DEDUCED, log 150. DESIGN CHOICE, log 181. -/
def Pipe.afterSelect (p : Pipe) (j : Nat) (rs : List Cand) (sumSel sumOut : W32) : Pipe :=
  let p1 := p.modJob j (fun y => { y with results := rs, sumSel := sumSel, sumOut := sumOut })
  match p1.jobs.get? j with
  | none => p1
  | some jb =>
    match p1.idxOf jb, p1.rnets.get? jb.d.rnet, jb.forms with
    | some x, some net, some f =>
      if jb.d.rescore && !jb.d.noRerank && !rs.isEmpty then
        (p1.modJob j (fun y => { y with
          phase := .rescoring, net := some net, acts := rs.mapIdx (fun i c => features net.features x f.plain c (i + 1)) })).enterLayer j 0
      else p1.enterPayload j
    | _, _, _ => p1.enterPayload j

/-! ## Re-rank (R106, R190, R386) -/

/-- The custom kernel of an index's re-rank on core k (R140). -/
def Pipe.kernelOf (p : Pipe) (k : Nat) (x : IdxCopy) : Option Nat :=
  if x.desc.kslot ≠ 0 && (p.core k).kernels.has x.desc.kslot then some x.desc.kslot else none

/-- The score of a candidate as a tile would deliver it: unnegated. -/
def unneg (neg : Bool) (s : W32) : W32 := if neg then s ^^^ 0x80000000#32 else s

/-- Choose the source of one candidate (R111, R291, R386): the cache tier, a flash read, or none. DEDUCED, log 151. -/
def Pipe.source (p : Pipe) (j : Nat) (jb : Job) (x : IdxCopy) (i : Nat) : Pipe :=
  match jb.cands[i]? with
  | none => p
  | some c =>
    let put := fun (p : Pipe) (f : Cand → Cand) => p.modJob j (fun y => { y with cands := modNth y.cands i f })
    let keep := fun (p : Pipe) =>
      let p1 := put p (fun c => { c with src := 4, sketchOnly := true })
      match jb.selRerank with
      | some n => p1.deliver jb.home n .vsel j [(unneg (negMetric jb.metric) c.sketch, c.part, c.ord)]
      | none => p1
    let row := match p.cacheRow jb.d.index c.part c.ord with
      | some a =>
        if recCached c.rcd
            && (pagesOf p.variant64 a x.rowBytes).all (fun (pg : PageId) => (p.tier pg).st == TierSt.hbm) then some a else none
      | none => none
    match row with
    | some a =>
      let k := match pagesOf p.variant64 a 1 with | pg :: _ => (p.tier pg).home | [] => jb.home
      let bs := p.iasRead a x.rowBytes
      let (p, ok) := p.readFor j (p.iasUnits a x.rowBytes)
      if !ok then p
      else put ((p.ref a x.rowBytes).charge j k 2 x.rowBytes) (fun c => { c with src := 1, row := bs })
    | none =>
      if jb.mode = 2 then keep p
      else
        match p.fullAt x c with
        | (some (e, u, n), _) =>
          if p.fenced c.part then p.endJob j stFENCED (some c.part)
          else put (p.readVector j i c.part e u n) (fun c => { c with src := 2 })
        | (none, b) => keep (p.modFlash c.part (fun f => { f with badLoc := f.badLoc + b }))

/-- The tiles of a re-rank group, one for each 128 candidates of a path (R106, R189, R190): those with a cache row, and,
without a kernel, those with a full vector. -/
def Pipe.rerankTiles (p : Pipe) (j : Nat) (jb : Job) (x : IdxCopy) (n : Nat) (kernel : Bool) (group : List Cand) : Pipe :=
  match jb.forms with
  | none => p
  | some f =>
    let d := x.desc.dim
    let dr := rotLen x.drp.blklog d
    let tiles := fun (p : Pipe) (cached : Bool) (l : List Cand) =>
      (chunks 128 (l.length + 1) l).foldl (fun (p : Pipe) cs =>
        let v := if cached then f.rerank else f.plain
        let len := if cached then dr else d
        let bf := if cached then x.drp.tfmt else x.drp.fvfmt
        let rowOf := fun (c : Cand) => if cached then c.row.take (c.row.length - 4) else c.vec
        let t := Tile.stage (jb.cls 1) len (opFmt jb.metric v.fmt) (opFmt jb.metric bf)
          [opRow jb.metric v.fmt v.codes len] (cs.map (fun c => opRow jb.metric bf (rowOf c) len))
          [stageConst (if cached then 1 else 2) jb.metric v x.drp.cscale len] (cs.map (fun c => (c.ord, c.part))) [n] [j]
        p.addTile jb.home { t with
          colc := if cached && jb.metric ≠ 3 then cs.map (fun c =>
              (fp16Safe (le16 c.row (c.row.length - 4)), fp16Safe (le16 c.row (c.row.length - 2)))) else [],
          cb := if jb.metric = 1 then .norm else .none }) p
    let cached := tiles p true (group.filter (·.src = 1))
    if kernel then cached else tiles cached false (group.filter (·.src = 3))

/-- Go on with re-rank (R106): sources of a group, and its tiles or kernel invocation once its vectors are in (`fuel`
bounds the groups). DEDUCED, log 151. -/
def Pipe.rerankGo (p : Pipe) (j : Nat) : Nat → Pipe
  | 0 => p
  | fuel + 1 =>
    match p.jobAt j .reranking with
    | none => p
    | some jb =>
      match p.idxOf jb, jb.selRerank with
      | some x, some n =>
        if jb.group ≥ jb.cands.length || jb.readsOut > 0 then p
        else
          let is := (List.range 256).map (fun i => jb.group + i)
          let fresh := ((jb.cands[jb.group]?).map (fun c => decide (c.src = 0))).getD false
          let p1 : Pipe := if fresh then is.foldl (fun (p : Pipe) (i : Nat) => p.source j jb x i) p else p
          match p1.jobAt j .reranking with
          | none => p1
          | some jb1 =>
            if jb1.readsOut > 0 then p1
            else
              let group := (jb1.cands.drop jb1.group).take 256
              let p2 := match p1.kernelOf jb1.home x with
                | some slot =>
                  let cs := group.filter (fun (c : Cand) => decide (c.src = 3))
                  let p1 := p1.rerankTiles j jb1 x n true group
                  if cs.isEmpty then p1
                  else
                    let v : Invocation := { job := j, slot := slot, ords := cs.map (fun (c : Cand) => (c.part, c.ord)),
                                            vectors := cs.map (fun (c : Cand) => c.vec), selreq := n, ctx := 0 }
                    p1.modCore jb1.home (fun (c : CoreSt) => { c with invWait := c.invWait ++ [v] })
                | none => p1.rerankTiles j jb1 x n false group
              (p2.modJob j (fun y => { y with group := y.group + 256 })).rerankGo j fuel
      | _, _ => p

/-- Enough fuel for every group. -/
def Pipe.rerank (p : Pipe) (j : Nat) : Pipe := p.rerankGo j 66

/-! ## CLOSE by purpose (R116, R276, R288) -/

/-- The candidates of a merged list whose ordinal resolves to a record (R288). -/
def Pipe.candidates (p : Pipe) (es : List SelEnt) : List Cand :=
  es.filterMap (fun e => (p.recordOf e.part e.id).map (fun r =>
    { part := e.part, ord := e.id, sketch := e.score, score := e.score, rcd := r, src := 0, row := [], vec := [],
      sketchOnly := false }))

/-- The candidates that a final selection named, with its scores, best first. -/
def pickCands (cands : List Cand) (es : List SelEnt) : List Cand :=
  es.filterMap (fun e => (cands.find? (fun c => c.part == e.part && c.ord == e.id)).map (fun c => { c with score := e.score }))

/-- CLOSE of a MERGE request (R106, R113, R276, R288): the record reads, and RERANK or the results. DEDUCED, log 150. -/
def Pipe.closeMerge (p : Pipe) (j : Nat) (jb : Job) (r : SelReq) : Pipe :=
  let c := r.close
  let cands := p.candidates c.result
  let (p, ok) := p.readFor j (c.result.flatMap (fun e => p.recUnits e.part e.id))
  if !ok then p else
  let p0 := match jb.selMerge with | some n => p.dropSel jb.home n | none => p
  let p1 := p0.modJob j (fun y => { y with selMerge := none, cands := cands })
  if jb.d.noRerank then
    let fin : SelReq := { SelReq.reset with state := .opened, k := jb.d.k, thresh := f32PosInf, outX := c.outX }
    let s := (cands.foldl (fun (s : SelReq) x => s.takeEntry true x.score x.part x.ord) fin).close
    let rs := (pickCands cands s.result).map (fun x => { x with sketchOnly := true })
    p1.afterSelect j rs s.sumSel s.sumOut
  else
    let p2 := p1.stageTo j 7 .reranking
    match p2.jobAt j .reranking with
    | none => p2
    | some _ =>
      let (p3, n) := p2.openSel jb.home j .rerank jb.d.k (negMetric jb.metric) (jb.cls 1) true none
      (p3.modJob j (fun y => { y with selRerank := some n, group := 0 })).rerank j

/-- Has every candidate of RERANK been scored and delivered? -/
def Pipe.rerankDone (p : Pipe) (jb : Job) (j : Nat) : Bool :=
  let c := p.core jb.home
  decide (jb.group ≥ jb.cands.length) && jb.readsOut = 0 && !c.hasTile j && !c.invWait.any (·.job == j)
    && !(match c.inv with | some v => v.job == j | none => false)

/-- CLOSE of a RERANK request. -/
def Pipe.closeRerank (p : Pipe) (j : Nat) (jb : Job) (r : SelReq) : Pipe :=
  let c := r.close
  let p0 := match jb.selRerank with | some n => p.dropSel jb.home n | none => p
  (p0.modJob j (fun y => { y with selRerank := none })).afterSelect j (pickCands jb.cands c.result) c.sumSel c.sumOut

/-- CLOSE of a RESCORE request (R165, R166). -/
def Pipe.closeRescore (p : Pipe) (j : Nat) (jb : Job) (r : SelReq) : Pipe :=
  let c := r.close
  let p0 := match jb.selRescore with | some n => p.dropSel jb.home n | none => p
  (p0.modJob j (fun y => { y with
    selRescore := none, results := pickCands jb.results c.result, sumSel := c.sumSel, sumOut := c.sumOut })).enterPayload j

end Sys2Proof.Machine
end

