-- ==== Sys2Proof/Machine/NbuOps.lean ====
section
/-!
DEFINITION. Sys2Proof/Machine/NbuOps.lean: requests on the threads of the near-bank units: taking, running, ending,
cancelling (chapters 06 and 07; R304 to R306).
-/
namespace Sys2Proof.Machine

/-! ## Taking a request (R214, R219, R232, R253, R304 to R306) -/

/-- Is KERNEL loaded: one of the standard kernels, or a program whose entry offset lies within the image (R253)? -/
def Nbu.offset (n : Nbu) (kernel : Nat) : Option Nat :=
  if 0x10 ≤ kernel && kernel < 0x20 then
    match n.image.offsets[kernel - 0x10]? with
    | some o => if o < 4 * n.image.words.length then some o else none
    | none => none
  else none

/-- A request that the epoch guard governs (R305). -/
def NbuReq.guarded (r : NbuReq) : Bool := r.kernel ≤ 1 || (0x10 ≤ r.kernel && r.kernel < 0x20)

/-- A request that changes a piece's entries in order (R306). -/
def NbuReq.updates (r : NbuReq) : Bool := r.kernel = 2 || r.kernel = 3 || r.kernel = 5

/-- The pieces that a piece stands for under compaction: itself, its successor and its predecessor (R305, R311). -/
def Nbu.kin (n : Nbu) (a : Nat) : List Nat :=
  a :: (n.links.filterMap (fun l => if l.1 = a then some l.2 else if l.2 = a then some l.1 else none))

/-- Requests that threads of the NBU run. -/
def Nbu.running (n : Nbu) : List NbuReq := n.threads.filterMap (fun t => t.req)

/-- May a request be taken (R305, R306)? `fresh r` says that every source that binds has sent a marker for r. -/
def Nbu.eligible (n : Nbu) (fresh : Nat → Bool) (r : NbuReq) : Bool :=
  let here := n.queue.take 64
  let busy := n.running
  if r.guarded then
    fresh r.repoch && !(here ++ busy).any (fun u => u.updates && (n.kin r.piece).contains u.piece && decide (u.repoch ≤ r.repoch))
  else if r.updates then
    !(busy.any (fun u => u.updates && u.piece == r.piece))
      && !(here.any (fun u => u.updates && u.piece == r.piece && decide (u.seq < r.seq)))
  else true

/-- The request that a free thread takes (R219, R254): the oldest eligible one of the first class, in the thread's
order of classes. While an image waits, no loaded program is started. -/
def Nbu.choose (n : Nbu) (fresh : Nat → Bool) (th : Nat) : Option NbuReq :=
  let ok := (n.queue.take 64).filter (fun r => n.eligible fresh r && !(n.nextImage.isSome && (n.offset r.kernel).isSome))
  (if th = 3 then [2, 3, 0, 1] else [0, 1, 2, 3]).findSome? (fun c => ok.find? (fun r => r.cls == c))

/-- The markers of every source that is not fenced have reached epoch r (R304, R305). -/
def Pipe.markersAt (p : Pipe) (n : Nbu) (r : Nat) : Bool :=
  (List.range 16).all (fun s => p.fenced s || decide (r ≤ n.markers.getD s 0))

/-- Change a thread. -/
def Pipe.modThread (p : Pipe) (k pc th : Nat) (f : Thread → Thread) : Pipe :=
  p.modNbu k pc (fun n => { n with threads := modNth n.threads th f })
def Pipe.thread (p : Pipe) (k pc th : Nat) : Thread := ((p.nbu k pc).threads[th]?).getD Thread.idle

/-- NBU_REQUEST_TAKE: the program that runs and the filters are those of the moment (R254, R294); the request that now has a place in
the queue lets its core context go on (R220). -/
def nbuTake (k pc th : Nat) (p : Pipe) : Pipe :=
  if p.fenced k || k ≥ 16 || pc ≥ 64 || th ≥ 4 then p
  else
    let n := p.nbu k pc
    let t := p.thread k pc th
    if t.req.isSome then p
    else match n.choose (p.markersAt n) th with
      | none => p
      | some r =>
        let h := p.hdrAt k pc r.piece
        let t1 := t.enter r th (pcBytes p.variant64) (pcData p.variant64) (n.offset r.kernel) (p.part k).resident
          (r.kernel ≤ 1 && h.sfmt = 8)
        (p.modNbu k pc (fun n => { n with queue := n.queue.erase r, threads := setNth n.threads th t1 })).unblock

/-! ## The end of a request (R221 to R223) -/

/-- The activity of a request whose job is over or that has none (R457). -/
def NbuReq.activity (r : NbuReq) : Nat :=
  match r.kernel with | 2 => 1 | 3 => 1 | 5 => 2 | 6 => 8 | 7 => 6 | _ => 0

/-- Charge a request's bytes in partition k (R221). -/
def Pipe.chargeReq (p : Pipe) (k : Nat) (r : NbuReq) (n : Nat) : Pipe :=
  if p.jobs.has r.job then p.charge r.job k 0 n else p.count k r.activity 0 n

/-- What a request answers besides its status. -/
structure Ended where
  status : EndStatus
  count : Nat := 0
  scanned : Nat := 0
  tailRead : Nat := 0
  bytes : Nat := 0
  replies : List Reply := []
  partial_ : List W32 := []
  noRoom : Bool := false

/-- The thread is free, its scratch as it stands (R233), and one end message goes to core HOME (R222). A fenced core
receives nothing. -/
def Pipe.endReq (p : Pipe) (k pc th : Nat) (e : Ended) : Pipe :=
  match (p.thread k pc th).req with
  | none => p
  | some r =>
    let p1 := (p.modThread k pc th (fun t => { t with req := none, cancel := none, block := [] })).chargeReq k r e.bytes
    if p1.fenced r.home then p1
    else
      let m : EndMsg := { status := e.status, count := e.count, scanned := e.scanned, tailRead := e.tailRead, bytes := e.bytes,
                          req := r, part := k, pc := pc, replies := e.replies, partial_ := e.partial_, noRoom := e.noRoom }
      p1.modCore r.home (fun c => { c with ends := c.ends ++ [m] })

/-- Survivor blocks of a request to its selection request on core HOME (R222). -/
def Pipe.survivors (p : Pipe) (k : Nat) (r : NbuReq) (es : List (W32 × Nat)) : Pipe :=
  if p.fenced r.home || es.isEmpty then p
  else p.deliver r.home r.selreq .nbu r.job (es.map (fun x => (x.1, k, x.2)))

/-- The blocks that wait for the selection unit leave no room (R267). -/
def Pipe.blocksFull (p : Pipe) (k : Nat) : Bool := decide ((p.core k).blocks.length ≥ 256)

/-- The thread runs a request of one of the kernels, on a partition that works. -/
def Pipe.running (p : Pipe) (k pc th : Nat) (kernel : Nat → Bool) : Option NbuReq :=
  if p.fenced k || k ≥ 16 || pc ≥ 64 || th ≥ 4 then none
  else match (p.thread k pc th).req with
    | some r => if kernel r.kernel then some r else none
    | none => none

/-- The operand of a request as scoring codes, the tables of a PQ8 request, those of its further sweeps from the plate memory of
core HOME (R214, R244), and the filters resident when it was taken (R294). -/
def Pipe.envOf (p : Pipe) (resident : List Nat) (r : NbuReq) : ScoreEnv :=
  { req := r, query := r.operand, qfmt := 0,
    tabs := fun i => if i < 16384 then r.operand.getD i 0#8 else p.plateByte r.home (r.arg1 + i),
    resident := resident }

/-- The piece of a request has a PQ8 code of more than 64 bytes (R244). -/
def Pipe.longPq (p : Pipe) (k pc : Nat) (r : NbuReq) : Bool := decide (pqSweeps (p.hdrAt k pc r.piece) > 0)

/-- What a firmware kernel leaves in the scratch area (R233): the partial sums of a long PQ8 code, at no stated place, and a survivor
buffer of 8 KiB or less from 0x2000 on (R218). DESIGN CHOICE, log 147. -/
def Thread.leaves (t : Thread) (r : NbuReq) (long : Bool) (buf : ScanBuf) : Thread :=
  let m := if long then t.scratch.writeN 0 ((List.range 0x4000).map (Config.scratchOpen r.seq)) else t.scratch
  { t with scratch := if 16 * r.smax ≤ 8192 then m.writeN 0x2000 buf.bytes else m }

/-- SCAN (R104, R215 to R218, R221, R222). -/
def nbuScan (k pc th : Nat) (errs : RawErrs) (p : Pipe) : Pipe :=
  match p.running k pc th (· == 0) with
  | none => p
  | some r =>
    if p.blocksFull r.home then p
    else
      let (e, buf) := kernelScan (p.envOf (p.thread k pc th).resident r) th (p.bankOf k pc errs none)
      let p1 := (p.putBank k pc e.bank).modThread k pc th (fun t => t.leaves r (p.longPq k pc r) buf)
      let out := if e.status = .done then e.survivors else []
      (p1.survivors k r out).endReq k pc th
        { status := e.status, count := out.length, scanned := e.scanned, tailRead := e.tailRead, bytes := e.bank.bytes }

/-- BLOCK (R336 to R338). -/
def nbuBlock (k pc th : Nat) (errs : RawErrs) (p : Pipe) : Pipe :=
  match p.running k pc th (· == 1) with
  | none => p
  | some r =>
    let (e, rs) := kernelBlock (p.envOf (p.thread k pc th).resident r) th (p.bankOf k pc errs none)
    let p1 := (p.putBank k pc e.bank).modThread k pc th (fun t => if p.longPq k pc r then t.leaves { r with smax := 512 } true ⟨[], 0⟩ else t)
    p1.endReq k pc th
      { status := e.status, count := rs.length, scanned := e.scanned, tailRead := e.tailRead, bytes := e.bank.bytes, replies := rs }

/-- APPEND, STAMP, COMPACT and SCRUB (R225 to R227, R311, R312): a kernel that sends no survivors (R222). -/
def Pipe.runKernel (p : Pipe) (k pc th : Nat) (e : KernelEnd) : Pipe :=
  (p.putBank k pc e.bank).endReq k pc th
    { status := e.status, scanned := e.scanned, tailRead := e.tailRead, bytes := e.bank.bytes }

/-- APPEND. -/
def nbuAppend (k pc th : Nat) (errs : RawErrs) (p : Pipe) : Pipe :=
  match p.running k pc th (· == 2) with
  | none => p
  | some r => p.runKernel k pc th (kernelAppend r (p.bankOf k pc errs none))

/-- STAMP. -/
def nbuStamp (k pc th : Nat) (errs : RawErrs) (p : Pipe) : Pipe :=
  match p.running k pc th (· == 3) with
  | none => p
  | some r =>
    let succ := ((p.nbu k pc).links.find? (fun l => l.1 == r.piece)).map (fun l => l.2)
    p.runKernel k pc th (kernelStamp r succ (p.bankOf k pc errs none))

/-- COMPACT: at its end the NBU records the successor (R311 step 3). -/
def nbuCompact (k pc th : Nat) (errs : RawErrs) (p : Pipe) : Pipe :=
  match p.running k pc th (· == 5) with
  | none => p
  | some r =>
    let e := kernelCompact r (p.bankOf k pc errs none)
    let p1 := p.runKernel k pc th e
    if e.status = .done then p1.modNbu k pc (fun n => { n with links := (n.links ++ [(r.piece, r.arg0)]).take 64 }) else p1

/-- BITMAP (R296). -/
def nbuBitmap (k pc th : Nat) (errs : RawErrs) (p : Pipe) : Pipe :=
  match p.running k pc th (· == 6) with
  | none => p
  | some r =>
    let (e, room) := kernelBitmap r (p.bankOf k pc errs none)
    (p.putBank k pc e.bank).endReq k pc th { status := e.status, bytes := e.bank.bytes, noRoom := !room }

/-- SCRUB. -/
def nbuScrub (k pc th : Nat) (errs : RawErrs) (p : Pipe) : Pipe :=
  match p.running k pc th (· == 7) with
  | none => p
  | some r => p.runKernel k pc th (kernelScrub r (p.bankOf k pc errs none))

/-- The embedding table of a POOL request: that of its job (R349). -/
def Pipe.poolTab (p : Pipe) (r : NbuReq) : Option PoolTab :=
  let l := match p.jobs.get? r.job with | some jb => jb.etab | none => p.etabHandles.get? r.arg0
  (l.bind p.etabs.get?).map (fun t => { int4 := t.int4, dim := t.dim, cbase := t.cbase, sbase := t.sbase })

/-- POOL (R352). -/
def nbuPool (k pc th : Nat) (errs : RawErrs) (p : Pipe) : Pipe :=
  match p.running k pc th (· == 4) with
  | none => p
  | some r =>
    match p.poolTab r with
    | none => p.endReq k pc th { status := .done }
    | some t =>
      let (e, part) := kernelPool r t (p.bankOf k pc errs none)
      (p.putBank k pc e.bank).endReq k pc th { status := e.status, count := r.arg1, bytes := e.bank.bytes, partial_ := part }

/-- NOP: a reserved kernel number, or a program that is not loaded (R214, R253). -/
def nbuNop (k pc th : Nat) (p : Pipe) : Pipe :=
  match p.running k pc th (fun n => decide (n ≥ 8) && (p.thread k pc th).prog.isNone) with
  | none => p
  | some _ => p.endReq k pc th { status := .nop }

/-! ## Instructions (R238, R251, R257 to R259) -/

/-- The code of a trap cause bit. -/
def Trap.bit : Trap → Nat
  | .illegal => 0 | .range => 1 | .align => 2 | .limit => 3 | .order => 4

/-- A trap of a loaded program (R258). -/
def Pipe.trapReq (p : Pipe) (k pc th : Nat) (t : Trap) : Pipe :=
  let x := p.thread k pc th
  (p.modPart k (fun q => { q with trapCnt := satAdd q.trapCnt 1, trapCause := q.trapCause ||| (1#32 <<< t.bit) })).endReq
    k pc th { status := .trap, count := x.sent, scanned := x.scanned, tailRead := x.tailRead, bytes := x.bytes }

/-- Does a cancel take effect at this instruction boundary (R259)? -/
def Thread.cancelDue (t : Thread) : Bool :=
  match t.cancel with
  | none => false
  | some (b, i) => decide (t.fetched / 4096 > b / 4096) || decide (t.issued ≥ i + 4096)

/-- What the instructions of a thread see. -/
def Pipe.isaEnv (p : Pipe) (k pc th : Nat) (r : NbuReq) : IsaEnv :=
  { loaded := (p.thread k pc th).prog.isSome, w := th, resident := (p.thread k pc th).resident,
    tabs64 := fun i => p.plateByte r.home (r.arg1 + i) }

/-- The effect of one instruction on the package (R212, R236, R251, R258). -/
def Pipe.afterInstr (p : Pipe) (k pc th : Nat) (r : NbuReq) (o : NOut) : Pipe :=
  let p1 := (p.putBank k pc o.bank).modThread k pc th (fun _ => o.th)
  let p2 := o.sent.foldl (fun (p : Pipe) b => p.survivors k r b) p1
  let fin := fun (s : EndStatus) =>
    p2.endReq k pc th { status := s, count := o.th.sent, scanned := o.th.scanned, tailRead := o.th.tailRead, bytes := o.th.bytes }
  if o.bank.ue then fin .ue
  else match o.trap with
    | some t => p2.trapReq k pc th t
    | none => if o.ended then fin .done else if o.th.cancelDue then fin .cancelled else p2

/-- One instruction issued by a thread that holds a request. -/
def nbuInstr (k pc th : Nat) (errs : RawErrs) (i : NInstr) (p : Pipe) : Pipe :=
  match p.running k pc th (fun _ => true) with
  | none => p
  | some r =>
    p.afterInstr k pc th r (nIssue (p.isaEnv k pc th r) i r (p.thread k pc th) (p.bankOf k pc errs (if (p.thread k pc th).prog.isSome then some th else none)))

/-- A loaded program runs `n` instructions from its program counter (R252, R253). -/
def nbuProgram (k pc th : Nat) (errs : RawErrs) : Nat → Pipe → Pipe
  | 0, p => p
  | n + 1, p =>
    match p.running k pc th (fun _ => (p.thread k pc th).prog.isSome) with
    | none => p
    | some r =>
      nbuProgram k pc th errs n (p.afterInstr k pc th r
        (nFetchIssue (p.isaEnv k pc th r) (p.nbu k pc).image r (p.thread k pc th) (p.bankOf k pc errs (some th))))

/-- NBU_LIMIT (R257). -/
def nbuLimit (k pc th : Nat) (p : Pipe) : Pipe :=
  match p.running k pc th (fun _ => (p.thread k pc th).prog.isSome) with
  | none => p
  | some _ => if (p.thread k pc th).issued ≥ 4194304 then p.trapReq k pc th .limit else p

/-! ## Cancelling (R228, R259) -/

/-- A cancel naming JOB reaches NBU k.pc. It is sent once the job is over. -/
def nbuCancel (k pc job : Nat) (p : Pipe) : Pipe :=
  let past := match p.jobs.get? job with | some jb => jb.ending.isSome | none => true
  if p.fenced k || !past then p
  else
    let n := p.nbu k pc
    let dead := n.queue.filter (fun r => r.job == job && (r.kernel = 0 || r.kernel = 1 || r.kernel = 4))
    let p1 := p.modNbu k pc (fun n =>
      { n with
        queue := n.queue.filter (fun r => !dead.contains r),
        threads := n.threads.map (fun t => match t.req with
          | some r => if r.job = job && (r.kernel = 0 || r.kernel = 1 || r.kernel = 4 || t.prog.isSome) && t.cancel.isNone then
              { t with cancel := some (t.fetched, t.issued) } else t
          | none => t) })
    Pipe.unblock <| dead.foldl (fun (p : Pipe) r =>
      if p.fenced r.home then p
      else p.modCore r.home (fun c => { c with ends := c.ends ++
        [{ status := .cancelled, count := 0, scanned := 0, tailRead := 0, bytes := 0, req := r, part := k, pc := pc,
           replies := [], partial_ := [], noRoom := false }] })) p1

/-- A firmware kernel up to a fetch boundary: entries tested, TAIL read and the port, once it has come there. -/
def Pipe.haltedAt (p : Pipe) (k pc th : Nat) (r : NbuReq) (b : Bank) : Nat × Nat × Bank :=
  let env := p.envOf (p.thread k pc th).resident r
  match r.kernel with
  | 0 => let e := (kernelScan env th b).1; (e.scanned, e.tailRead, e.bank)
  | 1 => let e := (kernelBlock env th b).1; (e.scanned, e.tailRead, e.bank)
  | _ => match p.poolTab r with | some t => (0, 0, (kernelPool r t b).1.bank) | none => (0, 0, b)

/-- CANCELLED: a request that a cancel named stops at its next boundary (R228, R259): a loaded program at an instruction boundary; a
SCAN, BLOCK or POOL at the 4 KiB fetch boundary number `n`, its bytes up to there charged. One that ends before it is not stopped. -/
def nbuCancelled (k pc th n : Nat) (p : Pipe) : Pipe :=
  match p.running k pc th (fun _ => true) with
  | none => p
  | some r =>
    let t := p.thread k pc th
    if t.cancel.isNone then p
    else if t.prog.isSome then
      if !t.cancelDue then p
      else p.endReq k pc th { status := .cancelled, count := t.sent, scanned := t.scanned, tailRead := t.tailRead, bytes := t.bytes }
    else
      let (scanned, tail, b) := p.haltedAt k pc th r { p.bankOf k pc RawErrs.none none with stop := some (4096 * n) }
      if !b.halted || b.ue then p
      else (p.putBank k pc b).endReq k pc th { status := .cancelled, scanned := scanned, tailRead := tail, bytes := 4096 * n + (b.bytes - b.fetched) }

/-! ## Images and markers (R254, R303, R304) -/

/-- NBU_IMAGE_SWITCH. -/
def nbuSwitch (k pc : Nat) (p : Pipe) : Pipe :=
  let n := p.nbu k pc
  match n.nextImage with
  | none => p
  | some i =>
    if p.fenced k || n.threads.any (fun t => t.req.isSome && t.prog.isSome) then p
    else p.modNbu k pc (fun n => { n with image := i, nextImage := none })

/-- EPOCH_MARKER: the published epoch of partition src as its ingest engine knows it. -/
def nbuMarker (k pc src : Nat) (p : Pipe) : Pipe :=
  if p.fenced k || p.fenced src || k ≥ 16 || pc ≥ 64 || src ≥ 16 then p
  else p.modNbu k pc (fun n => { n with markers := setNth n.markers src (max (n.markers.getD src 0) (p.part src).pub) })

/-- Sources send a marker of the published epoch before their first requests (R304). -/
def Pipe.sendMarkers (p : Pipe) (srcs : List Nat) (pub : Nat) : Pipe :=
  let take := fun (n : Nbu) => { n with markers := srcs.foldl (fun m s => setNth m s (max (m.getD s 0) pub)) n.markers }
  { p with parts := p.parts.map (fun (q : Part) =>
      { q with nbus := (List.range 64).map (fun pc => (pc, take (q.nbus.getD pc Nbu.idle))) }) }

end Sys2Proof.Machine
end

