-- ==== Sys2Proof/Machine/Ingest.lean ====
section
/-!
DEFINITION. Sys2Proof/Machine/Ingest.lean: the ingest engines: records, directory locks, appends, growth of clusters,
the stamp retry list and piece compaction (chapter 09).
-/
namespace Sys2Proof.Machine

/-! ## The engine's records (R299, R302) -/

/-- The record of a batch that the engine of partition k has in hand. -/
def Pipe.recOf (p : Pipe) (k j : Nat) : Option IngRec := (p.part k).recs.find? (fun r => r.job == j)
def Pipe.modRec (p : Pipe) (k j : Nat) (f : IngRec → IngRec) : Pipe :=
  p.modPart k (fun q => { q with recs := q.recs.map (fun r => if r.job = j then f r else r) })

/-- STAGE of a batch (R299 table). -/
def Pipe.stageOf (p : Pipe) (j stage : Nat) : Pipe := p.modJob j (fun y => { y with stage := stage })

/-- A record fails, and its batch ends with it (R299). -/
def Pipe.failRec (p : Pipe) (j status stage : Nat) (fault : Option Nat) : Pipe := p.endJobAt j status stage fault

/-- Ask for the pages that a step of a batch still lacks: none when all are there; a batch whose page finds no frame
ends (R375, R382). -/
def Pipe.need (p : Pipe) (j stage : Nat) (pages : List PageId) : Option Pipe :=
  if p.pagesHere pages then none
  else match p.lostAt pages with
  | some k => some (p.failRec j stFENCED stage (some k))
  | none =>
    let (p1, fail) := p.wantPages pages
    some (if fail then p1.failRec j stABORTED stage none else p1)

/-- The next record of a batch may be taken, or the batch is over (R299). Between two records STAGE stays that of the record just
applied. DESIGN CHOICE, log 170. -/
def Pipe.applied (p : Pipe) (k j : Nat) (skipped : Bool) : Pipe :=
  let p1 := (p.unlockJob j).modPart k (fun q => { q with recs := q.recs.filter (·.job != j) })
  let p2 := p1.modJob j (fun y => { y with applied := y.applied + 1, skipped := y.skipped + b2n skipped })
  match p2.jobs.get? j with
  | none => p2
  | some jb => if jb.nextRec ≥ jb.b.nrec then (p2.stageOf j 8).toCompletion j else p2

/-- Does ingest dispatch of partition k wait: its stamp retry list is full, or its log tail at the limit (R307, R424)?
DEDUCED, log 158. -/
def Pipe.ingestWaits (p : Pipe) (k : Nat) : Bool :=
  decide ((p.part k).stampRetry.length ≥ 65536)
    || (p.dirtyMax != 0 && decide ((p.flash k).tail ≥ min (min p.dirtyMax 2147483648 / 16) 134217728))

/-- The record header and the supplied vector of record `n` of a batch (R297, R298). -/
def Job.recordAt (jb : Job) (n : Nat) : List Byte × List Byte :=
  let at_ := jb.data.drop (128 * (jb.records.getD n 1 - 1))
  let h := slice at_ 0 32
  (h, if field h 64 2 = 1 then [] else slice at_ 32 (jb.b.dim * vfmtSize jb.b.vfmt))

/-- The bytes of a log entry as they are replicated (R315, R525): batch fields in 16 bytes, header, vector.
DESIGN CHOICE, log 159. -/
def LogEnt.image (e : LogEnt) : List Byte :=
  packBytes 16 [(16, e.index), (11, e.nrec), (1, 0), (3, e.vfmt), (1, b2n e.repl), (18, e.rconn), (14, e.dim), (64, e.tag)]
    ++ e.header ++ e.vector

/-- The engine's record for a logged record of batch j. -/
def ingRec (j : Nat) (jb : Job) (h v : List Byte) (logSeq : Nat) (repl : Bool) : IngRec :=
  { job := j, n := jb.nextRec, ext := le64 h 0, del := field h 64 2 = 1, fclass := field h 80 16, step := .logged,
    logSeq := logSeq, replWait := repl, vec := supplied jb.b.vfmt jb.b.dim v, nan := false, code := ⟨[], 0, 0⟩,
    ctRow := ⟨[], 0, 0⟩, cluster := 0, owner := 0, extent := 0xFFFFFF, offset := 0, dirSlice := dirSliceOf (le64 h 0),
    dirSlot := 0, old := none, u := 0, apOut := false, stOut := false, piece := (0, 0, 0), newOrd := none, full := false, fringe := none }

/-- Step 1 of R302: record `n` of a batch enters the log of its home partition. -/
def Pipe.logRecord (p : Pipe) (j : Nat) (jb : Job) (repl : Bool) : Pipe × LogEnt :=
  let k := jb.home
  let (h, v) := jb.recordAt jb.nextRec
  let e : LogEnt :=
    { seq := (p.flash k).nextSeq, queue := jb.queue, tag := jb.tag, index := jb.b.index, nrec := jb.b.nrec, vfmt := jb.b.vfmt,
      repl := jb.b.repl, rconn := jb.b.rconn, dim := jb.b.dim,
      header := h, vector := v, note := none, paged := false, programmed := false, noted := false }
  let r := ingRec j jb h v e.seq repl
  let p1 := p.modFlash k (fun f => { f with log := f.log ++ [e], nextSeq := f.nextSeq + 1 })
  let p2 := (p1.modPart k (fun q => { q with recs := q.recs ++ [r] })).modJob j (fun y =>
    { y with nextRec := y.nextRec + 1, stage := 1 })
  let (p3, n) := p2.pageLog k (p.dirtyMax == 0 && jb.nextRec + 1 ≥ jb.b.nrec)
  (p3.charge j k 3 n, e)

/-- May the engine take the next record of a batch (R302, R424)? While no extent may be opened it waits here (R574).
DEDUCED, log 156. DEDUCED, log 158. -/
def Pipe.mayRecord (p : Pipe) (j : Nat) (jb : Job) : Bool :=
  !p.fenced jb.home && !(p.part jb.home).ingestHold && (p.recOf jb.home j).isNone && decide (jb.nextRec < jb.b.nrec)
    && p.pair.isSome && !p.ingestWaits jb.home

/-- A logged record goes on (R302 steps 2 and 3): a PUT to the Derotator, a DELETE to its directory slice. -/
def Pipe.afterLog (p : Pipe) (j : Nat) : Pipe :=
  match p.jobAt j .records with
  | none => p
  | some jb =>
    let k := jb.home
    match p.recOf k j with
    | none => p
    | some r =>
      if r.step ≠ .logged || r.replWait then p
      else if r.del then
        if p.fenced r.dirSlice then p.failRec j stFENCED 4 (some r.dirSlice)
        else ((p.modRec k j (fun r => { r with step := .lock })).stageOf j 4).modPart r.dirSlice (fun q =>
          { q with lockQueue := q.lockQueue ++ [(j, r.n)] })
      else ((p.modRec k j (fun r => { r with step := .derot })).stageOf j 2).modCore k (fun c =>
        { c with derot := c.derot ++ [{ group := 2, job := j, queue := jb.queue }] })

/-! ## Codes and assignment (R179, R185, R186, R276, R342) -/

/-- The owner is known: the full vector takes its place in the owner's flash (R302 step 2, R405), and the record goes to
its directory slice. -/
def Pipe.assigned (p : Pipe) (j cluster owner : Nat) : Pipe :=
  match p.jobAt j .records with
  | none => p
  | some jb =>
    match p.recOf jb.home j, p.idxOf jb with
    | some r, some x =>
      if p.fenced owner then p.failRec j stFENCED 3 (some owner)
      else
        let bs := storeVector x.drp x.desc.dim (dropNans (fitDim x.desc.dim r.vec)).1
        let (p1, place) := p.flashPut owner .data (.vector r.ext 0 none) bs (fun e u => some (.data e u (unitsOf bs.length)))
        match place with
        | none => p1.failRec j stABORTED 3 none
        | some (e, u) =>
          let p2 := p1.charge j owner 3 (unitsOf bs.length)
          if p2.fenced r.dirSlice then p2.failRec j stFENCED 4 (some r.dirSlice)
          else
            ((p2.modRec jb.home j (fun r =>
              { r with step := .lock, cluster := cluster, owner := owner, extent := e, offset := u })).stageOf j 4).modPart
                r.dirSlice (fun q => { q with lockQueue := q.lockQueue ++ [(j, r.n)] })
    | _, _ => p

/-- The piece table of a record's cluster or subgraph, its pieces, and the piece that receives appends. -/
structure AppendTo where
  ptab : Nat
  npiece : Nat
  active : Option Nat

def Pipe.appendTo (p : Pipe) (x : IdxCopy) (cluster owner : Nat) : AppendTo :=
  if x.desc.graph then
    let g := p.subgraph x owner
    ⟨g.ptab, g.npiece, if g.fringe < g.npiece then some g.active else none⟩
  else
    let c := p.cluster x cluster
    ⟨c.ptab, c.npiece, if c.npiece = 0 then none else some c.active⟩

/-- STAGE 0x3 of a record for a graph index (R342): the ACTIVE fringe piece of its subgraph is chosen, or the subgraph must first
have one. -/
def Pipe.chooseFringe (p : Pipe) (j : Nat) : Pipe :=
  match p.jobAt j .records with
  | none => p
  | some jb =>
    match p.recOf jb.home j, p.idxOf jb with
    | some r, some x =>
      if !x.desc.graph || r.step ≠ .assign || r.full then p
      else if p.fenced r.dirSlice then p.failRec j stFENCED 3 (some r.dirSlice)
      else match p.need j 3 (pagesOf p.variant64 (x.grAddr r.dirSlice) 32) with
        | some p1 => p1
        | none =>
          match p.readUnits (p.iasUnits (x.grAddr r.dirSlice) 32) with
          | (p1, some f) => p1.failRec j stABORTED 3 (some f)
          | (p1, none) =>
            match (p1.appendTo x 0 r.dirSlice).active with
            | none => p1.modRec jb.home j (fun r => { r with owner := r.dirSlice, full := true })
            | some i => (p1.modRec jb.home j (fun r => { r with fringe := some i })).assigned j 0 r.dirSlice
    | _, _ => p

/-- Assignment tiles of a record: one row, class 3 (R160, R276), over every centroid (R284). -/
def Pipe.assignTiles (p : Pipe) (k j : Nat) (x : IdxCopy) (v : QVec) (n : Nat) : Nat → Nat → Pipe
  | 0, _ => p
  | fuel + 1, lo =>
    let m := min (x.desc.nclust - lo) 256
    if m = 0 then p
    else
      let dr := rotLen x.drp.blklog x.desc.dim
      let metric := x.desc.metric
      let t := Tile.stage 3 dr (opFmt metric v.fmt) (opFmt metric x.drp.cfmt) [opRow metric v.fmt v.codes dr]
        ((List.range m).map (fun i => opRow metric x.drp.cfmt (x.rows.getD (lo + i) []) dr))
        [stageConst 0 metric v x.drp.cscale dr] ((List.range m).map (fun i => (lo + i, 0))) [n] [j]
      let t1 := if metric = 1 then { t with cb := .vals ((List.range m).map (fun i => x.norms.getD (lo + i) 0#32)) } else t
      (p.addTile k t1).assignTiles k j x v n fuel (lo + 256)

/-- An ingest vector passes the Derotator (R179, R186): its forms, then assignment. -/
def Pipe.derotIngest (p : Pipe) (j : Nat) : Pipe :=
  match p.jobAt j .records with
  | none => p
  | some jb =>
    let k := jb.home
    match p.recOf k j, p.idxOf jb with
    | some r, some x =>
      let (v0, nan) := dropNans (fitDim x.desc.dim r.vec)
      let ys := rotate x.drp x.desc.dim (v0.map finite32)
      let code := if x.drp.sfmt = 8 then pqCode x.book x.drp.pqs ys else quantRow x.drp.sfmt ys
      let p0 := if x.drp.sfmt = 8 then p.charge j k 1 (pqCycles ys.length x.drp.pqs) else p
      let p1 := (p0.modRec k j (fun r =>
        { r with step := .assign, nan := nan, code := code, ctRow := quantRow x.drp.tfmt ys })).stageOf j 3
      if x.desc.graph then p1.chooseFringe j
      else if x.desc.nclust = 0 then p1.failRec j stABORTED 3 none
      else
        let (p2, n) := p1.openSel k j .assign 1 (negMetric x.desc.metric) 3 false none
        p2.assignTiles k j x (quantQuery x.drp.qfmtC ys) n (x.desc.nclust / 256 + 1) 0
    | _, _ => p

/-- CLOSE of an assignment request (R276): the nearest cluster and its owner. -/
def Pipe.closeAssign (p : Pipe) (k n j : Nat) (r : SelReq) : Pipe :=
  match (p.jobs.get? j).bind p.idxOf with
  | none => p
  | some x =>
    match r.close.result with
    | [] => p
    | e :: _ =>
      match p.need j 3 (pagesOf p.variant64 (x.clAddr e.id) 32) with
      | some p1 => p1
      | none =>
        match p.readUnits (p.iasUnits (x.clAddr e.id) 32) with
        | (p1, some f) => p1.failRec j stABORTED 3 (some f)
        | (p1, none) => (p1.dropSel k n).assigned j e.id (p1.cluster x e.id).owner

/-! ## Where appends go (R286, R289, R322, R342) -/

/-- Address of the entry that names the pieces. -/
def IdxCopy.entryAddr (x : IdxCopy) (cluster owner : Nat) : Nat :=
  if x.desc.graph then x.grAddr owner else x.clAddr cluster

/-- Rewrite the entry as one 32-byte write (R286, R289, R311, R322, R342). -/
def Pipe.putEntry (p : Pipe) (x : IdxCopy) (cluster owner ptab npiece active : Nat) (switch : Bool) : Pipe :=
  if x.desc.graph then
    let g := p.subgraph x owner
    p.iasPut owner (x.grAddr owner) (overlay (overlay (overlay g.raw 0 (leBytes 8 ptab)) 8 (leBytes 2 npiece)) 12 (leBytes 2 active))
  else
    let c := p.cluster x cluster
    p.iasPut owner (x.clAddr cluster)
      { c with ptab := ptab, npiece := npiece, active := active, switch := (c.switch + b2n switch) % 2 ^ 32 }.bytes

/-- Bytes of a piece table. -/
def tabBytes (refs : List (Nat × Nat)) : List Byte := refs.flatMap (fun r => packBytes 8 [(6, r.1), (26, 0), (32, r.2)])

/-- Frames for the ZERO pages that firmware is about to write (R375, R382): false while a frame must first be freed. -/
def Pipe.framesFor (p : Pipe) (k : Nat) (pages : List PageId) : Pipe × Bool :=
  pages.foldl (fun (acc : Pipe × Bool) pg =>
    if !acc.2 || (acc.1.tier pg).st != TierSt.zero || acc.1.fenced (acc.1.tier pg).home then acc
    else match acc.1.pageWrite k pg 0 [0#8] with
      | (p1, .done) => (p1, true)
      | (p1, .wait) => (p1, false)
      | (_, .noFrame) => (acc.1, false)) (p, true)

/-- Firmware's own GENERAL pages of partition k, in which it keeps the piece tables that it makes (R366): their address, and the key
under which their regions in use stand beside those of the pseudo-channels. DESIGN CHOICE, log 157. -/
def fwBase (k : Nat) : Nat := 2 ^ 48 - (k + 1) * 2 ^ 28
def fwKey : Nat := 64

/-- Does a list of regions leave `n` bytes from `a` free? -/
def gapAt (used : List (Nat × Nat)) (a n : Nat) : Bool := used.all (fun r => decide (r.1 + r.2 ≤ a) || decide (a + n ≤ r.1))

/-- Room for `n` bytes in firmware's own pages of partition k, whose frames are there (R366, R369, R375): none while a frame must
first be freed. DESIGN CHOICE, log 157. -/
def Pipe.fwRoom (p : Pipe) (k n : Nat) : Pipe × Option Nat :=
  let used := (p.part k).regions.getD fwKey []
  match (0 :: used.map (fun r => (r.1 + r.2 + 63) / 64 * 64)).filter (fun a => gapAt used a n && decide (a + n ≤ 2 ^ 28)) with
  | [] => (p, none)
  | a :: as =>
    let a := as.foldl min a
    match p.needTable (fwBase k / 2 ^ 32) k 16 with
    | (p1, .done) =>
      let pages := pagesOf p.variant64 (fwBase k + a) n
      let p2 := pages.foldl (fun (p : Pipe) pg =>
        let e := p.tier pg
        if e.st = .unmapped then p.setTier pg { e with st := .zero, home := k } else p) p1
      let r := p2.framesFor k pages
      (r.1, if r.2 then some a else none)
    | (p1, _) => (p1, none)

/-- Write a new piece table in room that firmware has found, and set the old one aside until the jobs dispatched so far are over
(R289, R342). DESIGN CHOICE, log 157. -/
def Pipe.newTable (p : Pipe) (k room old oldN : Nat) (refs : List (Nat × Nat)) : Pipe × Nat :=
  let mine := (old - fwBase k, 8 * oldN)
  let had := decide (fwBase k ≤ old) && ((p.part k).regions.getD fwKey []).contains mine
  let p1 := p.modPart k (fun q =>
    let rs := q.regions.getD fwKey []
    { q with
      regions := q.regions.set fwKey ((room, 8 * refs.length) :: (if had && p.jobs.isEmpty then rs.filter (· != mine) else rs)),
      oldTabs := if had && !p.jobs.isEmpty then q.oldTabs ++ [(fwKey, mine.1, mine.2, p.jobs.keys)] else q.oldTabs })
  (p1.iasPut k (fwBase k + room) (tabBytes refs), fwBase k + room)

/-- What a growth of a cluster or subgraph gave: the new piece, a wait for a frame, or no room. -/
inductive Grown where
  | piece (pc a : Nat)
  | wait
  | noRoom
  deriving DecidableEq, Repr

/-- The pieces of a cluster or subgraph grow by one (R289, R342). -/
def Pipe.growPiece (p : Pipe) (load : Nat) (x : IdxCopy) (cluster owner : Nat) : Pipe × Grown :=
  let t := p.appendTo x cluster owner
  let refs := p.pieceTab t.ptab t.npiece
  if t.npiece ≥ (if x.desc.graph then 65535 else 255) then (p, .noRoom)
  else
    let dr := rotLen x.drp.blklog x.desc.dim
    let model := match t.active with | some i => refs[i]? | none => refs.getLast?
    let (codeb, sfmt) := match model with
      | some r => let h := p.hdrAt owner r.1 r.2; (h.codeb, h.sfmt)
      | none => ((match x.drp.sfmt with | 1 => ceilDiv dr 2 | 7 => ceilDiv dr 8 | 8 => x.drp.pqs | _ => dr), x.drp.sfmt)
    let pc := p.roomiest owner
    match p.fwRoom owner (8 * (t.npiece + 1)) with
    | (p1, none) => (p1, .wait)
    | (p1, some room) =>
      match p1.newPiece load owner pc codeb sfmt x.desc.growCap with
      | none => (p, .noRoom)
      | some (p2, a) =>
        let (p3, ptab) := p2.newTable owner room t.ptab t.npiece (refs ++ [(pc, a)])
        (p3.putEntry x cluster owner ptab (t.npiece + 1) t.npiece false, .piece pc a)

/-! ## Locks, update epochs and injections (R301 to R303) -/

/-- The class entry of a record (R281, R295): its pages, its units, and its eight bytes, no filter enabled where the index has no
class table. -/
def IdxCopy.hasClasses (x : IdxCopy) : Bool := x.desc.classAddr != 0xFFFFFFFFFFFFFFFF
def Pipe.classPages (p : Pipe) (x : IdxCopy) (c : Nat) : List PageId :=
  if x.hasClasses then pagesOf p.variant64 (x.desc.classAddr + 8 * c) 8 else []
def Pipe.classUnits (p : Pipe) (x : IdxCopy) (c : Nat) : List Nat :=
  if x.hasClasses then p.iasUnits (x.desc.classAddr + 8 * c) 8 else []
def Pipe.classEntry (p : Pipe) (x : IdxCopy) (c : Nat) : List Byte :=
  if x.hasClasses then p.iasRead (x.desc.classAddr + 8 * c) 8 else List.replicate 8 0#8

/-- Issue the APPEND of a record to a piece (R302, R225). -/
def Pipe.injectAppend (p : Pipe) (k j : Nat) (x : IdxCopy) (r : IngRec) (ref : Nat × Nat) : Pipe :=
  let h := p.hdrAt r.owner ref.1 ref.2
  let op := padTo h.codeb r.code.codes ++ leBytes 2 r.code.scale ++ leBytes 2 r.code.offset
    ++ recBytes r.ext r.u 0xFFFFFFFFFFFF r.extent r.offset r.fclass r.nan false
    ++ p.classEntry x r.fclass
  (p.inject r.owner ref.1 { NbuReq.zero with
    kernel := 2, cls := 2, piece := ref.2, repoch := r.u, job := j, home := k, selreq := r.n, arg0 := 1, operand := op }).modRec
      k j (fun r => { r with apOut := true, full := false, piece := (r.owner, ref.1, ref.2) })

/-- Issue a STAMP; one for a fenced partition goes on the retry list of engine k (R307). -/
def Pipe.injectStamp (p : Pipe) (k j n : Nat) (t : StampRetry) : Pipe :=
  if p.fenced t.part then
    (p.modPart k (fun q => { q with stampRetry := q.stampRetry ++ [t] })).modRec k j (fun r => { r with stOut := false })
  else
    p.inject t.part t.pc { NbuReq.zero with
      kernel := 3, cls := 2, piece := t.piece, repoch := t.u, job := j, home := k, selreq := n, arg0 := t.entry }

/-- The old record of an id as its directory entry names it (R288, R301): place and DEATH. -/
def Pipe.oldRecord (p : Pipe) (hit : DirHit) : Option (Nat × Nat × Nat × Nat × Nat × Nat) :=
  match hit.found with
  | none => none
  | some (_, ord, part) =>
    (p.resolve part ord).map (fun x =>
      (part, ord, x.1, x.2.1, x.2.2.2, recDeath (p.bankRead part x.1 (x.2.2.1.records + 32 * x.2.2.2) 32)))

/-- Steps 3 and 4 of R302 for the record of batch j, whose id lies in slice k: none when its lock is held by another.
DEDUCED, log 156. DESIGN CHOICE, log 162. -/
def Pipe.tryLock (p : Pipe) (k j : Nat) : Option Pipe :=
  match p.jobAt j .records with
  | none => some (p.modPart k (fun q => { q with lockQueue := q.lockQueue.filter (fun x => x.1 != j) }))
  | some jb =>
    let home := jb.home
    match p.recOf home j, p.idxOf jb with
    | some r, some x =>
      let dirs := x.dirRanges r.ext
      let pages := dirs.flatMap (fun a => pagesOf p.variant64 a.1 a.2)
        ++ (if r.del then [] else p.classPages x r.fclass ++ pagesOf p.variant64 (x.entryAddr r.cluster r.owner) 32)
      match p.need j 4 pages with
      | some p1 => some p1
      | none =>
        match p.readUnits (dirs.flatMap (fun a => p.iasUnits a.1 a.2)) with
        | (p1, some f) => some (p1.failRec j stABORTED 4 (some f))
        | (p, none) =>
          let hit := p.dirSearch x r.ext
          if hit.held then none
          else
            let t := p.appendTo x r.cluster r.owner
            match if r.del then none else p.need j 4 (pagesOf p.variant64 t.ptab (8 * t.npiece)) with
            | some p1 => some p1
            | none =>
              let old := p.oldRecord hit
              let ref := if r.del then none else (r.fringe.orElse (fun _ => t.active)).bind (fun i => (p.pieceTab t.ptab t.npiece)[i]?)
              if !r.del && hit.found.isNone && hit.free.isNone then some (p.failRec j stABORTED 4 none)
              else if !r.del && p.fenced r.owner then some (p.failRec j stFENCED 4 (some r.owner))
              else if !r.del && ref.isNone then some (p.modRec home j (fun r => { r with full := true }))
              else
                let spans := (match ref with | some a => p.pieceSpan r.owner a.1 a.2 | none => [])
                  ++ (match old with | some o => if p.fenced o.1 then [] else p.pieceSpan o.1 o.2.2.1 o.2.2.2.1 | none => [])
                match p.need j 4 spans with
                | some p1 => some p1
                | none =>
                  match p.readUnits ((if r.del then [] else p.classUnits x r.fclass ++ p.iasUnits (x.entryAddr r.cluster r.owner) 32
                      ++ p.iasUnits t.ptab (8 * t.npiece)) ++ (match old with | some o => p.recUnits o.1 o.2.1 | none => [])) with
                  | (p1, some f) => some (p1.failRec j stABORTED 4 (some f))
                  | (p, none) =>
                  let u := (p.part home).pend
                  if u = 0xFFFFFFFFFFFF then some (p.failRec j stABORTED 4 none)
                  else
                    let slot := match hit.found with | some f => some f.1 | none => if r.del then none else hit.free
                    let p1 := p.modPart k (fun q => { q with lockQueue := q.lockQueue.filter (fun y => y.1 != j) })
                    let p2 := match slot with
                      | none => p1
                      | some s =>
                        let a := x.dirAddr k s
                        let e := match hit.found with
                          | some f => dirBytes r.ext f.2.1 f.2.2 true true
                          | none => dirBytes r.ext 0 0 false true
                        (p1.modPart k (fun (q : Part) => { q with locks := q.locks ++ [(⟨a, r.ext, j, r.n⟩ : DirLock)] })).iasPut k a e
                    let p3 := (Pipe.modFlash p2 home (fun (f : FlashPart) => { f with log := f.log.map (fun (e : LogEnt) =>
                      if e.seq = r.logSeq then { e with note := some u } else e) })).modJob j (fun y => { y with maxU := max y.maxU u, stage := 5 })
                    let p4 := p3.modRec home j (fun r =>
                      { r with step := .issued, u := u, dirSlot := slot.getD 0,
                               old := old.map (fun (o : Nat × Nat × Nat × Nat × Nat × Nat) => (o.1, o.2.1)), stOut := old.isSome })
                    let p5 := match ref, p4.recOf home j with
                      | some a, some r4 => p4.injectAppend home j x r4 a
                      | _, _ => p4
                    match old with
                    | some o =>
                      let p6 := p5.modJob j (fun y => { y with skipped := y.skipped + b2n (r.del && o.2.2.2.2.2 != 0xFFFFFFFFFFFF) })
                      let p7 := p6.injectStamp home j r.n { part := o.1, pc := o.2.2.1, piece := o.2.2.2.1, entry := o.2.2.2.2.1, u := u }
                      some (match p7.recOf home j with
                        | some r7 => if r7.del && !r7.stOut then p7.applied home j false else p7
                        | none => p7)
                    | none => some (if r.del then p5.applied home j true else p5)
    | _, _ => some (p.modPart k (fun q => { q with lockQueue := q.lockQueue.filter (fun x => x.1 != j) }))

/-- DIR_LOCK of slice k (R301): the first waiting request whose lock is free. DESIGN CHOICE, log 162. -/
def dirLock (k : Nat) (p : Pipe) : Pipe :=
  if p.fenced k then p
  else match (p.part k).lockQueue.findSome? (fun y => p.tryLock k y.1) with
    | some p1 => p1
    | none => p

/-! ## Ends of APPEND and STAMP (R302 step 5, R307, R387) -/

/-- A record whose requests have all ended is applied. DEDUCED, log 156. -/
def Pipe.settleRec (p : Pipe) (k j : Nat) : Pipe :=
  match p.recOf k j with
  | none => p
  | some r =>
    if r.step = .issued && !r.apOut && !r.stOut && (r.del || r.newOrd.isSome) && !r.full then p.applied k j false else p

/-- What became of the write of a cache-tier row. -/
inductive RowRes where
  | done
  | skipped
  | noFrame
  | wait
  deriving DecidableEq, Repr

/-- HBM use of a cache-tier row access, in the home partition of each page (R385, R459): against a job, or an activity.
DEDUCED, log 114. -/
def Pipe.chargeRow (p : Pipe) (who : Nat ⊕ Nat) (a n : Nat) : Pipe :=
  (cutPages (n / 65536 + 2) a (List.replicate n 0#8)).foldl (fun (p : Pipe) c =>
    let k := (p.tier (pageAt p.variant64 c.1).1).home
    match who with
    | .inl j => p.charge j k 2 c.2.length
    | .inr act => p.count k act 2 c.2.length) p

/-- Write a cache-tier row (R375, R382, R387); nothing is written to an unmapped page or to a fenced home.
DEDUCED, log 114. -/
def Pipe.putRow (p : Pipe) (who : Nat) (use : Nat ⊕ Nat) (a : Nat) (bs : List Byte) : Pipe × RowRes :=
  let pages := pagesOf p.variant64 a bs.length
  if pages.any (fun pg => (p.tier pg).st == TierSt.unmapped || p.fenced (p.tier pg).home) then (p, .skipped)
  else
    match p.iasWrite who a bs with
    | (p1, .done, _) => (p1.chargeRow use a bs.length, .done)
    | (p1, .noFrame, _) => (p1, .noFrame)
    | (p1, .wait, _) => (p1, .wait)

/-- Set CACHED in the record of an entry (R387). -/
def Pipe.setCached (p : Pipe) (k pc : Nat) (h : PieceHdr) (n : Nat) : Pipe :=
  let a := h.records + 32 * n + 28
  p.bankPut k pc a [(p.hbm.read (p.loc k pc a)) ||| 2#8]

/-- The new entry is known (R302 step 5, R387): its cache row and CACHED, and its directory entry. False while the
cache-tier page must first come in or have a frame. A row that finds no frame ends the batch (R382). -/
def Pipe.putDone (p : Pipe) (k j : Nat) (jb : Job) (x : IdxCopy) (r : IngRec) (tail : Nat) (noRow : Bool) : Pipe × Bool :=
  let (_, pc, a) := r.piece
  let h := p.hdrAt r.owner pc a
  let ord := (h.ordbase + tail) % 2 ^ 32
  let row := r.ctRow.codes ++ leBytes 2 r.ctRow.scale ++ leBytes 2 r.ctRow.offset
  let res := match p.cacheRow jb.b.index r.owner ord with
    | none => (p, RowRes.skipped)
    | some ca => if noRow then (p, RowRes.noFrame) else p.putRow k (.inl j) ca row
  match res with
  | (p1, .wait) => (p1, false)
  | (p1, .noFrame) => (p1.failRec j stABORTED 5 none, true)
  | (p1, ok) =>
    let p2 := if ok = .done then p1.setCached r.owner pc h tail else p1
    let p3 := p2.iasPut r.dirSlice (x.dirAddr r.dirSlice r.dirSlot) (dirBytes r.ext ord r.owner true false)
    let p4 : Pipe := { p3 with parts := p3.parts.map (fun q => { q with locks := q.locks.filter (·.job != j) }) }
    ((p4.modRec k j (fun r => { r with apOut := false, newOrd := some ord })).settleRec k j, true)

/-- An APPEND that ended with FULL goes to the next piece, or waits for a new one (R289, R342). None while pages must
first come in. -/
def Pipe.retryAppend (p : Pipe) (k j : Nat) (x : IdxCopy) (r : IngRec) : Option Pipe :=
  let t := p.appendTo x r.cluster r.owner
  let refs := p.pieceTab t.ptab t.npiece
  let here := refs.findIdx? (fun a => a == (r.piece.2.1, r.piece.2.2))
  let next := match t.active, here with
    | some a, some i => if a > i then some a else if i + 1 < t.npiece then some (i + 1) else none
    | some a, none => some a
    | none, _ => none
  match next with
  | none => some (p.modRec k j (fun r => { r with apOut := false, full := true }))
  | some i =>
    match refs[i]? with
    | none => some (p.modRec k j (fun r => { r with apOut := false, full := true }))
    | some a =>
      if !p.pagesHere (p.pieceSpan r.owner a.1 a.2) then none
      else
        let p1 := if t.active = some i then p else p.putEntry x r.cluster r.owner t.ptab t.npiece i false
        some (p1.injectAppend k j x r a)

/-- Pages that the end of an APPEND waits for. -/
def Pipe.endPages (p : Pipe) (jb : Job) (x : IdxCopy) (r : IngRec) (m : EndMsg) : List PageId :=
  if m.status = .done then
    let h := p.hdrAt r.owner r.piece.2.1 r.piece.2.2
    match p.cacheRow jb.b.index r.owner ((h.ordbase + m.tailRead) % 2 ^ 32) with
    | some a => pagesOf p.variant64 a x.rowBytes
    | none => []
  else if !p.iasReady (x.entryAddr r.cluster r.owner) 32 then pagesOf p.variant64 (x.entryAddr r.cluster r.owner) 32
  else
    let t := p.appendTo x r.cluster r.owner
    if !p.iasReady t.ptab (8 * t.npiece) then pagesOf p.variant64 t.ptab (8 * t.npiece) else
    pagesOf p.variant64 t.ptab (8 * t.npiece)
      ++ ((p.pieceTab t.ptab t.npiece).drop (t.active.getD 0)).flatMap (fun a => p.pieceSpan r.owner a.1 a.2)

/-- The end message of an APPEND (R302 step 5, R307): false while a page must first come in. -/
def Pipe.appendEnd (p : Pipe) (k : Nat) (m : EndMsg) : Pipe × Bool :=
  let j := m.req.job
  match p.jobAt j .records with
  | none => (p, true)
  | some jb =>
    match p.recOf k j, p.idxOf jb with
    | some r, some x =>
      if r.n ≠ m.req.selreq || r.step ≠ .issued then (p, true)
      else if m.status ≠ .done && m.status ≠ .full then (p.failRec j stABORTED 5 (some m.part), true)
      else
        let pages := p.endPages jb x r m
        let (p1, fail) := p.wantPages pages
        if !p.pagesHere pages && !fail then (p1, false)
        else if m.status = .done then
          p1.putDone k j jb x r m.tailRead fail
        else if fail then (p1.failRec j stABORTED 5 none, true)
        else
          match p.retryAppend k j x r with
          | some p2 => (p2, true)
          | none => (p1, false)
    | _, _ => (p, true)

/-- The end message of a STAMP (R307). -/
def Pipe.stampEnd (p : Pipe) (k : Nat) (m : EndMsg) : Pipe :=
  let p1 := if m.status = .done then p else
    p.modPart k (fun q => { q with stampRetry := q.stampRetry ++
      [{ part := m.part, pc := m.pc, piece := m.req.piece, entry := m.req.arg0, u := m.req.repoch }] })
  match p1.recOf k m.req.job with
  | some r =>
    if r.n = m.req.selreq && r.step = .issued then
      (p1.modRec k m.req.job (fun r => { r with stOut := false })).settleRec k m.req.job
    else p1
  | none => p1

/-- PIECE_GROW for the record of batch j (R289, R342): then its APPEND goes to the new piece. -/
def pieceGrow (j : Nat) (p : Pipe) : Pipe :=
  match p.jobAt j .records with
  | none => p
  | some jb =>
    match p.recOf jb.home j, p.idxOf jb, jb.idx with
    | some r, some x, some load =>
      if !r.full then p
      else if p.fenced r.owner then p.failRec j stFENCED jb.stage (some r.owner)
      else
        let t := p.appendTo x r.cluster r.owner
        match p.need j jb.stage (pagesOf p.variant64 (x.entryAddr r.cluster r.owner) 32 ++ pagesOf p.variant64 t.ptab (8 * t.npiece)) with
        | some p1 => p1
        | none =>
          match p.growPiece load x r.cluster r.owner with
          | (p1, .noRoom) => p1.failRec j stABORTED jb.stage none
          | (p1, .wait) => p1
          | (p1, .piece pc a) =>
            if r.step ≠ .issued then p1.modRec jb.home j (fun r => { r with full := false })
            else p1.injectAppend jb.home j x r (pc, a)
    | _, _, _ => p

/-- STAMP_RETRY of partition k (R307): the first listed STAMP whose partition is not fenced and whose unit reads well is
issued again. -/
def stampRetry (k : Nat) (p : Pipe) : Pipe :=
  let ok := fun (t : StampRetry) =>
    let h := p.hdrAt t.part t.pc t.piece
    !p.fenced t.part && !p.poison.contains (p.loc t.part t.pc (h.records + 32 * t.entry) / 32)
      && p.pagesHere (p.pieceSpan t.part t.pc t.piece)
  if p.fenced k then p
  else match (p.part k).stampRetry.find? ok with
    | none => p
    | some t =>
      (p.modPart k (fun q => { q with stampRetry := q.stampRetry.erase t })).inject t.part t.pc { NbuReq.zero with
        kernel := 3, cls := 2, piece := t.piece, repoch := t.u, home := k, arg0 := t.entry }

/-! ## Piece compaction (R309 to R314) -/

/-- Records of a piece up to TAIL. -/
def Pipe.recordsOf (p : Pipe) (k pc : Nat) (h : PieceHdr) : List (Nat × List Byte) :=
  (List.range (min h.tail h.cap)).map (fun n => (n, p.bankRead k pc (h.records + 32 * n) 32))

/-- The slices of the new piece: a zeroed one for each SLICE of the old, FULL where the old is FULL. -/
def Pipe.copySlices (p : Pipe) (k pc : Nat) (h h' : PieceHdr) : Option Pipe :=
  let dirs := (List.range 4096).filterMap (fun f =>
    let d := leNat (p.bankRead k pc (h.fdir + 4 * f) 4)
    let kind := bitsOf d 30 2
    if kind = 1 || kind = 2 then some (f, kind) else none)
  dirs.foldl (fun (acc : Option Pipe) d =>
    match acc with
    | none => none
    | some p =>
      if d.2 = 2 then some (p.bankPut k pc (h'.fdir + 4 * d.1) (leBytes 4 (2 * 2 ^ 30)))
      else
        let len := 32 * ceilDiv h'.cap 256
        match p.takeRegions k pc [len] with
        | none => none
        | some (p1, as) =>
          let a := as.headD 0
          some ((p1.bankPut k pc a (List.replicate len 0#8)).bankPut k pc (h'.fdir + 4 * d.1) (leBytes 4 (a / 64 + 2 ^ 30)))) (some p)

/-- PIECE_COMPACT (R310, R311): step 1, and the COMPACT of step 2. A due ACTIVE piece first hands ACTIVE on (R289).
DESIGN CHOICE, log 157. DESIGN CHOICE, log 161. -/
def pieceCompact (k handle cluster piece now : Nat) (p : Pipe) : Pipe :=
  match p.handles.get? handle, p.index handle with
  | some load, some x =>
    if !p.maintMay k 2 now then p
    else if !x.desc.graph && (decide (cluster ≥ x.desc.nclust) || (p.cluster x cluster).owner != k) then p
    else
      let t := p.appendTo x cluster k
      let refs := p.pieceTab t.ptab t.npiece
      match refs[piece]? with
      | none => p
      | some (pc, a) =>
        let h := p.hdrAt k pc a
        let o := p.oldestNow
        let rs := p.recordsOf k pc h
        let dead := (rs.filter (fun r => deadAt (recBirth r.2) (recDeath r.2) o)).length
        let mine := fun (c : Nat × Nat × Nat × Nat) => c.1 == handle && c.2.2.1 == pc && c.2.2.2 == a
        let asked := (p.part k).compQueue.any mine
        let due := x.desc.cmppct != 0 && decide (100 * dead ≥ x.desc.cmppct * h.cap) && decide (dead > 0)
        if (!due && !asked) || (x.desc.graph && decide (piece < (p.subgraph x k).fringe))
            || decide ((p.nbu k pc).links.length + ((p.part k).comps.filter (fun c => c.pc == pc && c.step == 2)).length ≥ 64)
            || ((p.nbu k pc).queue ++ (p.nbu k pc).running).any (fun u => u.piece == a && (u.kernel == 2 || u.kernel == 6))
            || p.parts.any (fun q => q.recs.any (fun r => r.step == .lock && r.owner == k && r.fringe == some piece))
            || (p.part k).comps.any (fun c => c.pc == pc && (c.old == a || c.new == a))
            || !p.pagesHere (p.pieceSpan k pc a) then
          (p.wantPages (if due || asked then p.pieceSpan k pc a else [])).1
        else if t.active = some piece then
          if piece + 1 < t.npiece then p.putEntry x cluster k t.ptab t.npiece (piece + 1) false
          else (p.growPiece load x cluster k).1
        else
          let live := rs.length - dead
          match p.newPiece load k pc h.codeb h.sfmt (ceilDiv live 256 * 256) with
          | none => p
          | some (p1, a') =>
            let h' := p1.hdrAt k pc a'
            match p1.copySlices k pc h h' with
            | none => p1.unmapPiece (k, pc, a')
            | some p2 =>
              let p3 := p2.modPart k (fun q =>
                { q with
                  compQueue := q.compQueue.filter (fun c => !mine c),
                  comps := q.comps ++ [{ idx := load, cluster := cluster, graph := x.desc.graph, part := k, pc := pc, old := a,
                                         new := a', step := 2, readers := [] }] })
              p3.inject k pc { NbuReq.zero with kernel := 5, cls := 3, piece := a, home := k, arg0 := a', arg1 := o }
  | _, _ => p

/-- The moved entries of a compaction: (old entry, new entry, id, old record). Live entries were copied in order. -/
def Pipe.moved (p : Pipe) (k pc : Nat) (h h' : PieceHdr) : List (Nat × Nat × List Byte) :=
  let news := p.recordsOf k pc h'
  (news.foldl (fun (acc : List (Nat × Nat × List Byte) × List (Nat × List Byte)) n =>
    let rest := acc.2.dropWhile (fun o => !(recExt o.2 == recExt n.2 && recBirth o.2 == recBirth n.2))
    match rest with
    | [] => acc
    | o :: os => (acc.1 ++ [(o.1, n.1, o.2)], os)) ([], p.recordsOf k pc h)).1

/-- Step 5 of R311 for one moved entry: its directory entry and its cache-tier row (R387). -/
def Pipe.moveEntry (p : Pipe) (handle : Nat) (x : IdxCopy) (k pc : Nat) (h h' : PieceHdr) (m : Nat × Nat × List Byte) : Pipe :=
  let ext := recExt m.2.2
  let ord := (h.ordbase + m.1) % 2 ^ 32
  let ord' := (h'.ordbase + m.2.1) % 2 ^ 32
  let hit := p.dirSearch x ext
  let p1 := match hit.found with
    | some (s, o, part) =>
      if o = ord && part = k then p.iasPut (dirSliceOf ext) (x.dirAddr (dirSliceOf ext) s) (dirBytes ext ord' k true false) else p
    | none => p
  if !recCached m.2.2 then p1
  else match p1.cacheRow handle k ord, p1.cacheRow handle k ord' with
    | some a, some a' =>
      let p2 := p1.chargeRow (.inr 2) a x.rowBytes
      (match p2.putRow k (.inr 2) a' (p2.iasRead a x.rowBytes) with
       | (p3, .done) => p3.setCached k pc h' m.2.1
       | (p3, _) => p3)
    | _, _ => p1

/-- The directory entry of a dropped record is freed (R301), and its flash units are no longer live. -/
def Pipe.dropEntry (p : Pipe) (x : IdxCopy) (k : Nat) (h : PieceHdr) (d : Nat × List Byte) : Pipe :=
  let ext := recExt d.2
  let ord := (h.ordbase + d.1) % 2 ^ 32
  let hit := p.dirSearch x ext
  let p1 := match hit.found with
    | some (s, o, part) =>
      if o = ord && part = k then p.iasPut (dirSliceOf ext) (x.dirAddr (dirSliceOf ext) s) (List.replicate 16 0#8) else p
    | none => p
  if recExtent d.2 = 0xFFFFFF then p1 else p1.liveDrop k (recExtent d.2) (unitsOf (fmtBytes x.drp.fvfmt x.desc.dim))

/-- The end message of a COMPACT (R311 steps 4 to 6, R314): false while a directory slot is locked or a page must
first come in. -/
def Pipe.compactEnd (p : Pipe) (k : Nat) (m : EndMsg) : Pipe × Bool :=
  match (p.part k).comps.find? (fun c => c.pc == m.pc && c.old == m.req.piece && c.new == m.req.arg0) with
  | none => (p, true)
  | some c =>
    let forget := fun (p : Pipe) => (p.modPart k (fun q => { q with comps := q.comps.filter (· != c) })).runCommits k
    if m.status ≠ .done then (forget (p.unmapPiece (k, c.pc, c.new)), true)
    else match p.idx.get? c.idx with
      | none => (forget (p.unmapPiece (k, c.pc, c.new)), true)
      | some x =>
        let h := p.hdrAt k c.pc c.old
        let h' := p.hdrAt k c.pc c.new
        let mv := p.moved k c.pc h h'
        let gone := (p.recordsOf k c.pc h).filter (fun r => !mv.any (fun v => v.1 == r.1))
        let ids := mv.map (fun v => recExt v.2.2) ++ gone.map (fun r => recExt r.2)
        let rows := mv.flatMap (fun v => if recCached v.2.2 then
            ((p.cacheRow x.handle k (h.ordbase + v.1)).toList ++ (p.cacheRow x.handle k (h'.ordbase + v.2.1)).toList).flatMap
              (fun a => pagesOf p.variant64 a x.rowBytes) else [])
        let news := mv.flatMap (fun v => if recCached v.2.2 then
            (p.cacheRow x.handle k (h'.ordbase + v.2.1)).toList.flatMap (fun a => pagesOf p.variant64 a x.rowBytes) else [])
        let t := p.appendTo x c.cluster k
        let pages := (ids.flatMap (fun i => (x.dirRanges i).flatMap (fun a => pagesOf p.variant64 a.1 a.2)))
          ++ rows ++ pagesOf p.variant64 (x.entryAddr c.cluster k) 32 ++ pagesOf p.variant64 t.ptab (8 * t.npiece)
        if ids.any (fun i => !p.fenced (dirSliceOf i) && (p.dirSearch x i).held) then (p, false)
        else if !p.pagesHere (pages.filter (fun pg => !p.fenced (p.tier pg).home)) then
          ((p.wantPages (pages.filter (fun pg => !p.fenced (p.tier pg).home))).1, false)
        else if !(p.framesFor k news).2 then ((p.framesFor k news).1, false)
        else
          let p := (p.framesFor k news).1
          let refs := (p.pieceTab t.ptab t.npiece).map (fun r => if r = (c.pc, c.old) then (c.pc, c.new) else r)
          match p.fwRoom k (8 * t.npiece) with
          | (p1, none) => (p1, false)
          | (p1, some room) =>
            let (p1, ptab) := p1.newTable k room t.ptab t.npiece refs
            let p2 := p1.putEntry x c.cluster k ptab t.npiece (t.active.getD 0) true
            let p3 := mv.foldl (fun p v => p.moveEntry x.handle x k c.pc h h' v) p2
            let p4 := gone.foldl (fun p r => p.dropEntry x k h r) p3
            (p4.modPart k (fun q => { q with comps := q.comps.map (fun y =>
              if y = c then { y with step := 6, readers := p4.jobs.keys } else y) }), true)

/-- PIECE_RETIRE (R311 step 6): the first switched compaction whose readers are over. -/
def pieceRetire (k : Nat) (p : Pipe) : Pipe :=
  if p.fenced k then p
  else match (p.part k).comps.find? (fun c => c.step == 6 && c.readers.isEmpty) with
    | none => p
    | some c =>
      let p1 := (p.unmapPiece (k, c.pc, c.old)).modPart k (fun q => { q with comps := q.comps.filter (· != c) })
      ((p1.modNbu k c.pc (fun n => { n with links := n.links.filter (fun l => l != (c.old, c.new)) })).runCommits k).sweep

end Sys2Proof.Machine
end

