-- ==== Sys2Proof/Machine/Walk.lean ====
section
/-!
DEFINITION. Sys2Proof/Machine/Walk.lean: graph walkers (chapter 10).
-/
namespace Sys2Proof.Machine

/-! ## Parameters of a walk -/

/-- Decoded BEAM and HOPS in the mode of the job (R95 tables, R111). -/
def Job.beamOf (jb : Job) (x : IdxCopy) : Nat :=
  let b := if jb.d.beam = 0 then x.desc.beam else jb.d.beam
  if jb.mode = 2 then max 1 (b / 2) else b
def Job.hopsOf (jb : Job) (x : IdxCopy) : Nat :=
  let h := if jb.d.hops = 0 then x.desc.hops else 16 * jb.d.hops
  if jb.mode = 2 then max 1 (h / 2) else h

/-- The three bits of the visited set that a node probes (R330). -/
def bloomBits (part ord : Nat) : List Nat :=
  let h := (part * 2 ^ 32 + ord) * 0x9E3779B97F4A7C15 % 2 ^ 64
  [bitsOf h 0 19, bitsOf h 19 19, bitsOf h 38 19]

/-- Insert a number in a rising list without repeats. -/
def riseInsert (n : Nat) : List Nat → List Nat
  | [] => [n]
  | x :: xs => if n < x then n :: x :: xs else if n = x then x :: xs else x :: riseInsert n xs

def Walk.seen (w : Walk) (part ord : Nat) : Bool := (bloomBits part ord).all w.visited.contains
def Walk.mark (w : Walk) (part ord : Nat) : Walk := { w with visited := (bloomBits part ord).foldl (fun v b => riseInsert b v) w.visited }

/-- Does beam entry `a` precede `b` (R260, R332)? -/
def beamBefore (a b : BeamEnt) : Bool :=
  entBefore4 ⟨a.score, a.part, a.ord, 0⟩ ⟨b.score, b.part, b.ord, 0⟩

def beamInsert (x : BeamEnt) : List BeamEnt → List BeamEnt
  | [] => [x]
  | y :: ys => if beamBefore x y then x :: y :: ys else y :: beamInsert x ys

/-- Change a walk. -/
def Pipe.modWalk (p : Pipe) (w : Nat) (f : Walk → Walk) : Pipe := { p with walks := p.walks.adj w f }

/-! ## Walk pages (R328, R329) -/

/-- Plate address of a walk page slot. -/
def walkSlot (s : Nat) : Nat := 0x740000 + 0x11800 * s

/-- The bytes of the visited set that are not zero, by offset. -/
def Walk.seenBytes (w : Walk) : Tbl Nat := w.visited.foldl (fun t b => t.set (b / 8) (t.getD (b / 8) 0 + 2 ^ (b % 8))) []

/-- A beam entry, 16 bytes. DESIGN CHOICE, log 187. -/
def BeamEnt.bytes (b : BeamEnt) : List Byte := packBytes 16 [(32, b.score.toNat), (32, b.ord), (4, b.part), (1, b2n b.expanded)]

/-- The page of a walk as it stands in its slot of plate memory. -/
def Pipe.showWalk (p : Pipe) (w : Nat) : Pipe :=
  match p.walks.get? w with
  | none => p
  | some wk =>
    match wk.slot with
    | none => p
    | some s =>
      let a := walkSlot s
      let p1 := { p with plate := p.plate.clear (wk.core * 2 ^ 25 + a) 0x11800 }
      let p2 := wk.seenBytes.foldl (fun (p : Pipe) b => p.plateWrite wk.core (a + b.1) [BitVec.ofNat 8 b.2]) p1
      (p2.plateWrite wk.core (a + 0x10000) (wk.beam.flatMap BeamEnt.bytes)).plateWrite wk.core (a + 0x11000)
        (wk.amap.flatMap (fun n => packBytes 8 [(32, n.2), (4, n.1)]))

/-- A walk uses its page. -/
def Pipe.useWalk (p : Pipe) (w : Nat) : Pipe := ({ p with pageUse := p.pageUse + 1 }).modWalk w (fun v => { v with used := p.pageUse })

/-! ## Beginning (R326, R331, R339) -/

/-- The bank pages of a neighbour block (R324). -/
def Pipe.blockPages (p : Pipe) (k pc a blk : Nat) : List PageId :=
  let h := p.hdrAt k pc a
  if h.adj = 0xFFFFFFFF then [] else p.bankPages k pc (h.adj + 32 * h.cap + 128 * blk) 128

/-- Requests that a walk of subgraph k would issue at its start: entry blocks as (pc, header, block), and fringe pieces. -/
def Pipe.starts (p : Pipe) (x : IdxCopy) (k : Nat) : List (Nat × Nat × Nat) × List (Nat × Nat) :=
  let g := p.subgraph x k
  if g.npiece = 0 then ([], [])
  else
    let tab := p.pieceTab g.ptab g.npiece
    let blocks := g.ents.filterMap (fun e =>
      if e.2 < g.fringe then (tab[e.2]?).map (fun r => (r.1, r.2, e.1)) else none)
    (blocks, tab.drop g.fringe)

/-- STAGE 0x5 of a graph query: its walks wait to start (R326), and the MERGE request opens (R276). In Zenith the starts of the
subgraphs of fenced cores are left to a walk that only counts them (R339). DEDUCED, log 152. -/
def Pipe.enterWalk (p : Pipe) (j : Nat) : Pipe :=
  match (p.stageTo j 5 .walking).jobAt j .walking with
  | none => p.stageTo j 5 .walking
  | some jb =>
    let p1 := p.stageTo j 5 .walking
    match p1.idxOf jb with
    | none => p1
    | some x =>
      let (p2, n) := p1.openSel jb.home j .merge (jb.ncand x) (negMetric jb.metric) (jb.cls 1) (jb.mode != 1) none
      let p3 := p2.modJob j (fun y => { y with selMerge := some n })
      let cores := if jb.mode = 1 then (List.range 16).filter (fun c => !p.fenced c) else [jb.home]
      let lost := if jb.mode = 1 then (List.range 16).filter p.fenced else []
      let walk := fun (c : Nat) (parts lost : List Nat) => ({
        job := j, core := c, parts := parts, lost := lost, hop := 0, started := false, beam := [], visited := [], link := none,
        amap := [], replies := [], blocksOut := 0, fringeOut := 0, nextRef := 0, req := n, slot := none, used := 0,
        ended := false } : Walk)
      let add := fun (p : Pipe) (w : Walk) =>
        let id := p.walks.freshFrom 0
        ({ p with walks := p.walks.set id w }).modPart w.core (fun q => { q with walkWait := q.walkWait ++ [id] })
      let p4 := cores.foldl (fun (p : Pipe) c => add p (walk c (if jb.mode = 1 then [c] else List.range 16) [])) p3
      if lost.isEmpty then p4 else add p4 (walk jb.home [] lost)

/-- Page slots of a core that walkers hold (R328). -/
def Pipe.heldSlots (p : Pipe) (c : Nat) : List Nat := p.walks.vals.filterMap (fun w => if w.core = c then w.slot else none)

/-- A page slot on core c (R329): a free one, or that of the walker waiting on a neighbour reply whose page was least
recently used, its page written back. -/
def Pipe.takeSlot (p : Pipe) (c : Nat) : Option (Pipe × Nat) :=
  let held := p.heldSlots c
  match (List.range 128).find? (fun s => !held.contains s) with
  | some s => some (p, s)
  | none =>
    let vs := p.walks.filter (fun w => w.2.core == c && w.2.slot.isSome && decide (w.2.blocksOut > 0))
    match vs with
    | [] => none
    | v :: rest =>
      let lru := rest.foldl (fun (b : Nat × Walk) y => if y.2.used < b.2.used then y else b) v
      match lru.2.slot with
      | none => none
      | some s => some ((p.modWalk lru.1 (fun w => { w with slot := none })).count c 0 2 71680, s)

/-- A BLOCK of a walk, numbered by its reference order in the field that a BLOCK ignores (R336). -/
def Pipe.issueBlock (p : Pipe) (w : Nat) (x : IdxCopy) (k pc a blk : Nat) (bnd : W32) : Pipe :=
  match p.walks.get? w with
  | none => p
  | some wk =>
    match p.jobs.get? wk.job with
    | none => p
    | some jb =>
      if p.fenced k then p.modJob wk.job (fun y => { y with skipped := y.skipped + 1, fenceSkip := true })
      else
        let r := { p.scanReq wk.job jb x 1 k pc a bnd 1 wk.nextRef with home := wk.core, arg0 := blk }
        ((p.keepTabs k pc r).issue k pc r).modWalk w (fun v => { v with blocksOut := v.blocksOut + 1, nextRef := v.nextRef + 1 })

/-- A fringe SCAN of a walk (R331, R339). -/
def Pipe.issueFringe (p : Pipe) (w : Nat) (x : IdxCopy) (k pc a : Nat) : Pipe :=
  match p.walks.get? w with
  | none => p
  | some wk =>
    match p.jobs.get? wk.job with
    | none => p
    | some jb =>
      if p.fenced k then p.modJob wk.job (fun y => { y with skipped := y.skipped + 1, fenceSkip := true })
      else
        let r := { p.scanReq wk.job jb x 0 k pc a jb.thresh (jb.ncand x) wk.req with home := wk.core }
        ((p.keepTabs k pc r).issue k pc r).modWalk w (fun v => { v with fringeOut := v.fringeOut + 1 })

/-- May this walk start now (R326): Zenith walks first, then in order of arrival, while one of the core's 4,096 contexts
is free? -/
def Pipe.mayStart (p : Pipe) (w : Nat) (wk : Walk) : Bool :=
  let q := p.part wk.core
  let zen := fun (i : Nat) => match p.walks.get? i with
    | some v => (match p.jobs.get? v.job with | some jb => jb.mode == 1 | none => false)
    | none => false
  let first := match q.walkWait.find? zen with | some i => some i | none => q.walkWait.head?
  first == some w
    && decide ((p.walks.filter (fun v => v.2.core == wk.core && v.2.started)).length + q.core.ctxs.length < 4096)

/-! ## Ends (R335) -/

/-- All walks of a job are over and their runs are on the way: MERGE begins. -/
def Pipe.walksOver (p : Pipe) (j : Nat) : Pipe :=
  match p.jobAt j .walking with
  | none => p
  | some _ =>
    if p.walks.any (fun w => w.2.job == j)
      || p.parts.any (fun q => q.core.sel.any (fun r => r.2.job == j && r.2.use == .enter)) then p
    else p.stageTo j 6 .merging

/-- WALK_END (R335): the loop is over and every fringe SCAN has ended. -/
def Pipe.walkEnd (p : Pipe) (w : Nat) : Pipe :=
  match p.walks.get? w with
  | none => p
  | some wk =>
    if wk.ended && wk.fringeOut = 0 then ({ p with walks := p.walks.erase w }).walksOver wk.job else p

/-- Pages of the graph headers and piece tables of subgraphs, as far as the headers are there. -/
def Pipe.headPages (p : Pipe) (x : IdxCopy) (ks : List Nat) : List PageId :=
  ks.flatMap (fun k => pagesOf p.variant64 (x.grAddr k) 32)
  ++ ks.flatMap (fun k => let g := p.subgraph x k; pagesOf p.variant64 g.ptab (8 * g.npiece))
def Pipe.headUnits (p : Pipe) (x : IdxCopy) (ks : List Nat) : List Nat :=
  if p.poison.isEmpty && p.weak.isEmpty then []
  else ks.flatMap (fun k => p.iasUnits (x.grAddr k) 32 ++ (let g := p.subgraph x k; p.iasUnits g.ptab (8 * g.npiece)))

/-- Pages of the pieces that the walk of subgraph k touches at its start. -/
def Pipe.startPages (p : Pipe) (k : Nat) (s : List (Nat × Nat × Nat) × List (Nat × Nat)) : List PageId :=
  if p.fenced k then []
  else s.1.flatMap (fun b => p.pieceSpan k b.1 b.2.1 ++ p.blockPages k b.1 b.2.1 b.2.2) ++ s.2.flatMap (fun f => p.pieceSpan k f.1 f.2)

/-- The starts of subgraphs of fenced cores are counted (R339), and the walk that stands for them is over. -/
def Pipe.countLost (p : Pipe) (w : Nat) (wk : Walk) (x : IdxCopy) : Pipe :=
  let n := (wk.lost.map (fun k => (p.starts x k).1.length + (p.starts x k).2.length)).foldl (· + ·) 0
  let p1 := if n = 0 then p else p.modJob wk.job (fun y => { y with skipped := y.skipped + n, fenceSkip := true })
  let off := fun (q : Part) => { q with walkWait := q.walkWait.erase w }
  ({ p1 with walks := p1.walks.erase w, parts := p1.parts.map off } : Pipe).walksOver wk.job

/-- WALK_START (R329, R331): unchanged until its objects and their bank pages are there and a page slot can be had. -/
def walkStart (w : Nat) (p : Pipe) : Pipe :=
  match p.walks.get? w with
  | none => p
  | some wk =>
    match p.jobAt wk.job .walking with
    | none => p
    | some jb =>
      match p.idxOf jb with
      | none => p
      | some x =>
        if wk.started || p.fenced wk.core || (!wk.parts.isEmpty && !p.mayStart w wk) then p
        else match p.needFor wk.job (p.headPages x (wk.parts ++ wk.lost)) with
        | some p1 => p1
        | none =>
          let (p, ok) := p.readFor wk.job (p.headUnits x (wk.parts ++ wk.lost))
          if !ok then p
          else if wk.parts.isEmpty then p.countLost w wk x
          else
            let ss := wk.parts.map (fun k => (k, p.starts x k))
            match p.needFor wk.job (ss.flatMap (fun s => p.startPages s.1 s.2)) with
            | some p1 => p1
            | none =>
              match p.takeSlot wk.core with
              | none => p
              | some (p1, s) =>
                let p2 := (p1.modPart wk.core (fun q => { q with walkWait := q.walkWait.erase w }))
                let (p3, req) :=
                  if jb.mode = 1 then
                    p2.openSel wk.core wk.job .enter (jb.ncand x) (negMetric jb.metric) 0 true (some (jb.home, wk.req))
                  else (p2, wk.req)
                let p4 := ((p3.modWalk w (fun v => { v with started := true, slot := some s, req := req })).useWalk w).showWalk w
                let p5 := ss.foldl (fun (p : Pipe) s =>
                  s.2.1.foldl (fun (p : Pipe) b => p.issueBlock w x s.1 b.1 b.2.1 b.2.2 f32PosInf) p) p4
                ss.foldl (fun (p : Pipe) s =>
                  s.2.2.foldl (fun (p : Pipe) f => p.issueFringe w x s.1 f.1 f.2) p) p5

/-! ## Hops (R332 to R334) -/

/-- One reply entry (R332): the walk, and whether the node is admitted. -/
def Walk.takeReply (wk : Walk) (neg : Bool) (beam part : Nat) (r : Reply) : Walk × Bool :=
  if r.beyond || wk.seen part r.ord then (wk, false)
  else
    let w1 := wk.mark part r.ord
    let e : BeamEnt := { score := canonical neg r.score, ord := r.ord, part := part, expanded := false }
    let b1 := (beamInsert e w1.beam).take beam
    ({ w1 with beam := b1 }, r.enter)

/-- All replies of a hop in reference order, then list order: the walk and the nodes admitted. -/
def Walk.takeReplies (wk : Walk) (neg : Bool) (beam : Nat) : Walk × List (W32 × Nat × Nat) :=
  let flat := wk.replies.flatMap (fun r => r.2.2.map (fun e => (r.2.1, e)))
  flat.foldl (fun (acc : Walk × List (W32 × Nat × Nat)) x =>
    let (w1, ok) := acc.1.takeReply neg beam x.1 x.2
    (w1, if ok then acc.2 ++ [(x.2.score, x.1, x.2.ord)] else acc.2)) ({ wk with replies := [] }, [])

/-- Where the link record of a node lies: pseudo-channel and local address; none for a node without links (R324). -/
def Pipe.linkOf (p : Pipe) (part ord : Nat) : Option (Nat × Nat) :=
  match p.resolve part ord with
  | none => none
  | some (pc, _, h, n) => if h.adj = 0xFFFFFFFF then none else some (pc, h.adj + 32 * n)

/-- The pages of a node's link record, its units, and its references as (block, piece). -/
def Pipe.linkPages (p : Pipe) (part ord : Nat) : List PageId :=
  match p.linkOf part ord with | some l => p.bankPages part l.1 l.2 32 | none => []
def Pipe.linkUnits (p : Pipe) (part ord : Nat) : List Nat :=
  match p.linkOf part ord with | some l => p.bankUnits part l.1 l.2 32 | none => []
def Pipe.linkRefs (p : Pipe) (part ord : Nat) : List (Nat × Nat) :=
  match p.linkOf part ord with | some l => p.linkAt part l.1 l.2 | none => []

/-- The prefetched link record of a beam node, if the walk has it (R326). -/
def Walk.fetched (w : Walk) (b : BeamEnt) : Option (List (Nat × Nat)) :=
  match w.link with
  | some (part, ord, rs) => if part = b.part && ord = b.ord then some rs else none
  | none => none

/-- The blocks that references of a subgraph name, (pc, header, block): a reference to a fringe piece is skipped (R325). -/
def Pipe.blocksOf (p : Pipe) (x : IdxCopy) (part : Nat) (rs : List (Nat × Nat)) : List (Nat × Nat × Nat) :=
  let g := p.subgraph x part
  let tab := p.pieceTab g.ptab g.npiece
  rs.filterMap (fun r => if r.2 < g.fringe then (tab[r.2]?).map (fun t => (t.1, t.2, r.1)) else none)

/-- Pages that the expansion of a node touches, as far as they are known: graph header, piece table and link record, then the
pieces and blocks that the record names. A fenced partition is not read. -/
def Pipe.expandPages (p : Pipe) (x : IdxCopy) (w : Walk) (b : BeamEnt) : List PageId :=
  if p.fenced b.part then []
  else
    let head := p.headPages x [b.part] ++ (if (w.fetched b).isSome then [] else p.linkPages b.part b.ord)
    if !p.pagesHere head then head
    else head ++ (p.blocksOf x b.part ((w.fetched b).getD (p.linkRefs b.part b.ord))).flatMap (fun r =>
      p.pieceSpan b.part r.1 r.2.1 ++ p.blockPages b.part r.1 r.2.1 r.2.2)

/-- Read the link record of the beam node that is likely to be expanded next (R332), or ask for its page. -/
def Pipe.prefetchLink (p : Pipe) (w : Nat) : Pipe :=
  match p.walks.get? w with
  | none => p
  | some wk =>
    match wk.beam.find? (fun b => !b.expanded) with
    | none => p
    | some b =>
      if p.fenced b.part then p
      else match p.needFor wk.job (p.linkPages b.part b.ord) with
        | some p1 => p1
        | none =>
          let (p1, ok) := p.readFor wk.job (p.linkUnits b.part b.ord)
          if ok then p1.modWalk w (fun v => { v with link := some (b.part, b.ord, p.linkRefs b.part b.ord) }) else p1

/-- Choose the next node, issue its BLOCKs and prefetch, or end the loop (R332). A node of a fenced partition whose link record is
not prefetched counts as one skipped request. DEDUCED, log 152. -/
def Pipe.expand (p : Pipe) (w : Nat) (wk : Walk) (jb : Job) (x : IdxCopy) : Pipe :=
  match wk.beam.findIdx? (fun b => !b.expanded) with
  | none => (p.modWalk w (fun v => { v with ended := true })).walkEnd w
  | some i =>
    if wk.hop ≥ jb.hopsOf x then (p.modWalk w (fun v => { v with ended := true })).walkEnd w
    else
      match wk.beam[i]? with
      | none => p
      | some b =>
        let p1 := (p.modWalk w (fun v => { v with
          beam := modNth v.beam i (fun y => { y with expanded := true }), hop := v.hop + 1, nextRef := 0, link := none })).showWalk w
        let p2 := (p1.modCore wk.core (fun c => { c with sel := c.sel.adj wk.req SelReq.makeBound })).showSel wk.core wk.req
        let bnd := match (p2.core wk.core).sel.get? wk.req with | some r => r.boundReg | none => f32PosInf
        let fetched := wk.fetched b
        if fetched.isNone && p2.fenced b.part then
          (p2.modJob wk.job (fun y => { y with skipped := y.skipped + 1, fenceSkip := true })).prefetchLink w
        else
          let (p3, ok) := if fetched.isSome then (p2, true) else p2.readFor wk.job (p2.linkUnits b.part b.ord)
          if !ok then p3
          else
            ((p3.blocksOf x b.part (fetched.getD (p3.linkRefs b.part b.ord))).foldl (fun (p : Pipe) r =>
              p.issueBlock w x b.part r.1 r.2.1 r.2.2 bnd) p3).prefetchLink w

/-- The walker hands its admitted nodes over in groups of up to 256 (R334): the map, the store to IDMAP, the scores by VSEL. -/
def Pipe.admitNodes (p : Pipe) (w : Nat) (adm : List (W32 × Nat × Nat)) : Pipe :=
  (chunks 256 (adm.length + 1) adm).foldl (fun (p : Pipe) g =>
    match p.walks.get? w with
    | none => p
    | some wk =>
      let p1 := (p.modWalk w (fun v => { v with amap := g.map (fun n => (n.2.1, n.2.2)) })).showWalk w
      let p2 := (p1.modCore wk.core (fun c => { c with sel := c.sel.adj wk.req (fun r =>
        { r with idmap := walkSlot (wk.slot.getD 0) + 0x11000 }) })).showSel wk.core wk.req
      match (p2.core wk.core).sel.get? wk.req with
      | none => p2
      | some r => p2.putBlocks wk.core wk.req .vsel wk.job true (g.mapIdx (fun i n => p2.mapId wk.core r (n.1, 0, i)))) p

/-- WALK_HOP (R332, R340): with all replies of a hop in, its page resident, and the pages of the next node there (R327). -/
def walkHop (w : Nat) (p : Pipe) : Pipe :=
  match p.walks.get? w with
  | none => p
  | some wk =>
    match p.jobAt wk.job .walking with
    | none => p
    | some jb =>
      match p.idxOf jb with
      | none => p
      | some x =>
        if !wk.started || wk.ended || wk.blocksOut > 0 || wk.slot.isNone || p.fenced wk.core then p
        else
          let (next, adm) := wk.takeReplies (negMetric jb.metric) (jb.beamOf x)
          let pages := match next.beam.find? (fun b => !b.expanded) with
            | some b => if next.hop ≥ jb.hopsOf x then [] else p.expandPages x next b
            | none => []
          match p.needFor wk.job pages with
          | some p1 => p1
          | none =>
            let p1 := (((p.modWalk w (fun _ => next)).useWalk w).showWalk w).admitNodes w adm
            if jb.abort then p1.endJob wk.job stABORTED none else p1.expand w next jb x

/-- WALK_PAGE_LOAD (R329): the page of a walker whose last reply of the hop is in comes into a slot. -/
def walkPageLoad (w : Nat) (p : Pipe) : Pipe :=
  match p.walks.get? w with
  | none => p
  | some wk =>
    if !wk.started || wk.blocksOut > 0 || wk.slot.isSome || p.fenced wk.core then p
    else match p.takeSlot wk.core with
      | none => p
      | some (p1, s) => (((p1.modWalk w (fun v => { v with slot := some s })).useWalk w).showWalk w).count wk.core 0 2 71680

end Sys2Proof.Machine
end

