-- ==== Sys2Proof/Machine/Pool.lean ====
section
/-!
DEFINITION. Sys2Proof/Machine/Pool.lean: bag queries and pooling (chapter 11), and the end messages of the near-bank units
(R223).
-/
namespace Sys2Proof.Machine

/-! ## Preparing a bag (R347 to R351, R355, R359, R360) -/

/-- The multiplicity field of a pool entry (R352). -/
def poolMultOf (v : Nat) : Nat := if v = 0 then 1 else min v 1024

/-- The bag of a job: (row id, multiplicity) in order. -/
def Job.bag (jb : Job) : List (Nat × Nat) :=
  if jb.peer.isSome then
    (List.range (jb.data.length / 8)).map (fun i => (le32 jb.data (8 * i), poolMultOf (field jb.data (64 * i + 32) 11)))
  else (List.range jb.d.nrows).map (fun i => (le32 jb.data (4 * i), 1))

/-- Merge equal ids of a sorted list. -/
def mergeIds : List (Nat × Nat) → List (Nat × Nat)
  | [] => []
  | x :: xs => match mergeIds xs with
    | [] => [x]
    | y :: ys => if x.1 = y.1 then (x.1, x.2 + y.2) :: ys else x :: y :: ys

/-- The pool entries of a bag (R351): in order in OWNER, sorted and merged in ORDERED. -/
def poolEntries (ordered : Bool) (bag : List (Nat × Nat)) : List (Nat × Nat) :=
  if ordered then mergeIds (sortBy (fun a b => decide (a.1 < b.1)) bag) else bag

/-- The bytes of a pool entry (R352). -/
def poolEntry (id m : Nat) : List Byte := packBytes 8 [(32, id), (11, m)]

/-- Pages of a local row and its scale entry (R346, R347). -/
def Pipe.rowPages (p : Pipe) (t : ETab) (k pc i : Nat) : List PageId :=
  p.bankPages k pc (t.cbase + i * t.rowb) t.rowb ++ p.bankPages k pc (t.sbase + 4 * i) 4

/-- A job waits for the Derotator (R180). -/
def Pipe.derotWait (p : Pipe) (j : Nat) : Pipe :=
  match p.jobAt j .derot with
  | none => p
  | some jb => p.modCore jb.home (fun c =>
      { c with derot := c.derot ++ [{ group := if jb.mode = 1 then 0 else 1, job := j, queue := jb.queue }] })

/-- The bytes of a POOLREPLY (R521 table). -/
def poolReplyBytes (cookie status count : Nat) (sum : List W32) : List Byte :=
  packBytes 16 [(64, cookie), (8, status), (24, 0), (32, count)] ++ sum.flatMap (fun w => leBytes 4 w.toNat)

/-- The pooled vector is whole (R354): it is finished and goes to the Derotator, or back to the peer (R355).
DESIGN CHOICE, log 129. -/
def Pipe.poolFinish (p : Pipe) (j : Nat) : Pipe :=
  match p.jobAt j .pooling with
  | none => p
  | some jb =>
    match jb.peer with
    | some (conn, cookie) =>
      { p.retire j with out := p.out ++ [.send conn false false 7 0 0 (poolReplyBytes cookie 0 jb.poolCount jb.pooled) 0 jb.home none] }
    | none =>
      let v := if jb.d.mean && jb.poolCount ≠ 0 then jb.pooled.map (fun x => satDivF x (f32OfInt jb.poolCount)) else jb.pooled
      ((p.modJob j (fun y => { y with pooled := v })).stageTo j 2 .derot).derotWait j

/-- POOL_ISSUE (R351, R355, R356, R359, R360): `dead` says that a connection is in ERROR or FREE. DESIGN CHOICE, log 129. -/
def poolIssue (dead : Nat → Bool) (j : Nat) (p : Pipe) : Pipe :=
  match p.jobAt j .bag with
  | none => p
  | some jb =>
    if p.fenced jb.home then p
    else match jb.etab.bind p.etabs.get? with
    | none => (p.modJob j (fun y => { y with phase := .pooling })).poolFinish j
    | some t =>
      let es := poolEntries jb.ordered jb.bag
      let locs := es.filterMap (fun e => match t.place e.1 with | .local_ k pc i => some (k, pc, i, e.2) | _ => none)
      let rem := es.filterMap (fun e => match t.place e.1 with | .remote r c => some (r, c, e.1, e.2) | _ => none)
      match locs.find? (fun l => p.fenced l.1) with
      | some l => p.endJobAt j stFENCED 9 (some l.1)
      | none =>
        let pages := (locs.flatMap (fun l => p.rowPages t l.1 l.2.1 l.2.2.1)).eraseDups
        match p.needFor j pages with
        | some p1 => p1
        | none =>
          let ranges := sortBy (fun a b => decide (a.1 < b.1)) ((rem.map (fun r => (r.1, r.2.1))).eraseDups)
          let conns := ranges.foldl (fun (acc : List (Nat × Nat)) r => if acc.any (fun x => x.2 == r.2) then acc else acc ++ [r]) []
          if conns.any (fun c => dead c.2) then p.endJobAt j stABORTED 9 none
          else
            let keys := sortBy (fun a b => decide (a.1 * 64 + a.2 < b.1 * 64 + b.2)) ((locs.map (fun l => (l.1, l.2.1))).eraseDups)
            let h := jb.d.etab
            let p1 := keys.foldl (fun (p : Pipe) key =>
              let mine := locs.filter (fun l => l.1 == key.1 && l.2.1 == key.2)
              p.issue key.1 key.2 { NbuReq.zero with
                kernel := 4, cls := 1, job := j, home := jb.home, arg0 := h, arg1 := mine.length,
                operand := mine.flatMap (fun l => poolEntry l.2.2.1 (min l.2.2.2 1024)) }) p
            let msgs := conns.map (fun c =>
              let mine := rem.filter (fun r => r.2.1 == c.2)
              PipeOut.send c.2 false false 6 0 0
                (packBytes 16 [(16, h), (8, b2n jb.ordered), (8, 0), (32, mine.length), (64, j)]
                  ++ mine.flatMap (fun r => poolEntry r.2.2.1 (min r.2.2.2 1024))) jb.act jb.home none)
            let p2 := ({ p1 with out := p1.out ++ msgs } : Pipe).modJob j (fun y =>
              { y with
                phase := .pooling, poolWait := keys.length + conns.length, poolConns := conns, poolParts := [],
                poolCount := (locs.map (fun l => l.2.2.2)).foldl (· + ·) 0, pooled := List.replicate t.dim 0#32 })
            if keys.isEmpty && conns.isEmpty then p2.poolFinish j else p2

/-- The partial that the home core adds next (R353): the first to arrive in OWNER; in ORDERED, once all are in, by
partition and pseudo-channel, then by remote range. -/
def Job.nextPartial (jb : Job) : Option (Nat × Nat × Nat × List W32 × Nat) :=
  if jb.ordered then
    if jb.poolParts.length < jb.poolWait then none
    else (sortBy (fun (a b : Nat × Nat × Nat × List W32 × Nat) =>
      decide (a.1 * 2 ^ 40 + a.2.1 * 2 ^ 8 + a.2.2.1 < b.1 * 2 ^ 40 + b.2.1 * 2 ^ 8 + b.2.2.1)) jb.poolParts).head?
  else jb.poolParts.head?

/-- POOL_PARTIAL (R353, R354). -/
def poolPartial (j : Nat) (p : Pipe) : Pipe :=
  match p.jobAt j .pooling with
  | none => p
  | some jb =>
    match jb.nextPartial with
    | none => p
    | some x =>
      let p1 := p.modJob j (fun y =>
        { y with
          poolParts := y.poolParts.erase x, poolWait := y.poolWait - 1,
          pooled := addVec y.pooled.length y.pooled x.2.2.2.1 })
      if jb.poolWait = 1 then p1.poolFinish j else p1

/-- POOLREPLY on a connection (R355, R356, R523). DEDUCED, log 160. -/
def poolReply (conn : Nat) (b : List Byte) (p : Pipe) : Pipe :=
  let j := le64 b 0
  match p.jobAt j .pooling with
  | none => p
  | some jb =>
    match jb.poolConns.find? (fun c => c.2 == conn) with
    | none => p
    | some c =>
      if field b 64 8 ≠ stOK then p.endJobAt j stFENCED 9 none
      else
        let sum := (List.range ((b.length - 16) / 4)).map (fun i => BitVec.ofNat 32 (le32 b (16 + 4 * i)))
        p.modJob j (fun y =>
          { y with
            poolConns := y.poolConns.erase c, poolCount := y.poolCount + le32 b 12,
            poolParts := y.poolParts ++ [(1, c.1, 0, sum, le32 b 12)] })

/-- POOL of a peer (R355): a job of the connection's home partition without a queue, in the sender's mode.
DEDUCED, log 160. -/
def poolMessage (conn home : Nat) (b : List Byte) (p : Pipe) : Pipe :=
  let j := p.nextJob
  let n := min (le32 b 4) 1024
  let jb : Job := { Job.zero with
    home := home, phase := .bag, stage := 9, d := { decodeQ [] with etab := le16 b 0 }, etab := p.etabHandles.get? (le16 b 0),
    data := (b.drop 16).take (8 * n), ordered := field b 16 8 != 0, peer := some (conn, le64 b 8), order := p.order }
  { p with jobs := p.jobs.set j jb, nextJob := j + 1, order := p.order + 1 }

/-- Jobs that await a partial of a connection that is lost end (R356). -/
def Pipe.poolLost (p : Pipe) (dead : Nat → Bool) : Pipe :=
  (p.jobs.filter (fun j => j.2.phase == .pooling && j.2.ending.isNone && j.2.poolConns.any (fun c => dead c.2))).foldl
    (fun p j => p.endJobAt j.1 stABORTED 9 none) p

/-! ## End messages (R222, R223, R287, R307, R311, R332, R353) -/

/-- A status other than DONE ends the job (R223, R129): survivors are discarded with the job. -/
def Pipe.endFault (p : Pipe) (m : EndMsg) : Pipe := p.endJob m.req.job stABORTED (some m.part)

/-- SCAN, or a loaded program run in its place: the last one brings MERGE (R105), or ends a walk's fringe (R335).
DEDUCED, log 155. -/
def Pipe.scanEnd (p : Pipe) (k : Nat) (m : EndMsg) : Pipe :=
  let j := m.req.job
  match p.jobs.get? j with
  | none => p
  | some jb =>
    let p1 := p.modJob j (fun y => { y with scanned := y.scanned + m.scanned })
    if jb.ending.isSome then p
    else if m.status ≠ .done then p1.endFault m
    else
      match jb.phase with
      | .scanning =>
        let p2 := p1.modJob j (fun y => { y with scanOut := y.scanOut - 1 })
        (match p2.jobs.get? j with
         | some y => if y.scanOut = 0 && y.toScan.isEmpty then p2.stageTo j 6 .merging else p2
         | none => p2)
      | .walking =>
        (match p1.walks.find? (fun w => w.2.job == j && w.2.core == k && decide (w.2.fringeOut > 0)) with
         | some w => (p1.modWalk w.1 (fun v => { v with fringeOut := v.fringeOut - 1 })).walkEnd w.1
         | none => p1)
      | _ => p1

/-- BLOCK: the walk keeps the reply by its reference order (R332, R337). -/
def Pipe.blockEnd (p : Pipe) (k : Nat) (m : EndMsg) : Pipe :=
  let j := m.req.job
  match p.jobAt j .walking with
  | none => p
  | some _ =>
    let p1 := p.modJob j (fun y => { y with scanned := y.scanned + m.scanned })
    if m.status ≠ .done then p1.endFault m
    else match p.walks.find? (fun w => w.2.job == j && w.2.core == k && decide (w.2.blocksOut > 0)) with
      | none => p
      | some w =>
        p1.modWalk w.1 (fun v =>
          { v with blocksOut := v.blocksOut - 1, replies := v.replies.set m.req.selreq (m.part, m.replies) })

/-- POOL: its partial sum arrives (R352, R353). -/
def Pipe.poolEnd (p : Pipe) (m : EndMsg) : Pipe :=
  match p.jobAt m.req.job .pooling with
  | none => p
  | some _ =>
    if m.status ≠ .done then p.endFault m
    else p.modJob m.req.job (fun y => { y with poolParts := y.poolParts ++ [(0, m.part, m.pc, m.partial_, 0)] })

/-- BITMAP of a running FLT_EDIT (R296). -/
def Pipe.bitmapEnd (p : Pipe) (m : EndMsg) : Pipe :=
  if m.req.job ≥ 2 ^ 32 then
    { p with edits := p.edits ++ [(m.req.job - 2 ^ 32, m.req.selreq, m.status == .done && !m.noRoom)] }
  else p

/-- END_MESSAGE: core k takes the oldest end message; one that must wait for a page or a lock goes to the back. -/
def endMessage (k : Nat) (p : Pipe) : Pipe :=
  match (p.core k).ends with
  | [] => p
  | m :: rest =>
    if p.fenced k then p
    else
      let p0 := p.modCore k (fun c => { c with ends := rest })
      let later := fun (r : Pipe × Bool) => if r.2 then r.1 else r.1.modCore k (fun c => { c with ends := c.ends ++ [m] })
      if m.req.handOff then p0
      else match m.req.kernel with
      | 1 => p0.blockEnd k m
      | 2 => later (p0.appendEnd k m)
      | 3 => p0.stampEnd k m
      | 4 => p0.poolEnd m
      | 5 => later (p0.compactEnd k m)
      | 6 => p0.bitmapEnd m
      | 7 => p0
      | _ => p0.scanEnd k m

/-! ## Demands (R375, R383, R388, R409) -/

/-- The piece spans that are still to be scanned for a job. -/
def Pipe.scanPages (p : Pipe) (jb : Job) : List PageId := jb.toScan.flatMap (fun r => p.pieceSpan r.1 r.2.1 r.2.2)

/-- Pages that a walk waits for. -/
def Pipe.walkPages (p : Pipe) (x : IdxCopy) (jb : Job) (w : Walk) : List PageId :=
  if !w.started then
    p.headPages x (w.parts ++ w.lost) ++ w.parts.flatMap (fun k => p.startPages k (p.starts x k))
  else if w.blocksOut > 0 then
    (match w.beam.find? (fun b => !b.expanded) with
     | some b => if w.link.isNone && !p.fenced b.part then p.linkPages b.part b.ord else []
     | none => [])
  else
    let v := (w.takeReplies (negMetric jb.metric) (jb.beamOf x)).1
    match v.beam.find? (fun b => !b.expanded) with
    | some b => p.expandPages x v b
    | none => []

/-- Pages that a job's next step waits for. -/
def Pipe.wanted (p : Pipe) (j : Nat) (jb : Job) : List PageId :=
  if jb.ending.isSome then []
  else match p.idxOf jb, jb.phase with
    | some x, .choosing =>
      (match jb.probes with
       | [] => []
       | c :: _ => let e := p.cluster x c; pagesOf p.variant64 (x.clAddr c) 32 ++ pagesOf p.variant64 e.ptab (8 * e.npiece))
      ++ p.scanPages jb
    | some _, .scanning => p.scanPages jb
    | some x, .walking => (p.walks.vals.filter (fun w => w.job == j)).flatMap (p.walkPages x jb)
    | some x, .records =>
      (match p.recOf jb.home j with
       | some r =>
         let t := p.appendTo x r.cluster r.owner
         (x.dirRanges r.ext).flatMap (fun a => pagesOf p.variant64 a.1 a.2)
           ++ p.classPages x r.fclass ++ pagesOf p.variant64 (x.entryAddr r.cluster r.owner) 32
           ++ pagesOf p.variant64 t.ptab (8 * t.npiece)
           ++ (p.pieceTab t.ptab t.npiece).flatMap (fun a => p.pieceSpan r.owner a.1 a.2)
       | none => [])
    | _, .bag =>
      (match jb.etab.bind p.etabs.get? with
       | some t => jb.bag.flatMap (fun e => match t.place e.1 with | .local_ k pc i => p.rowPages t k pc i | _ => [])
       | none => [])
    | _, _ => []

/-- The dispatched jobs that wait for a page. -/
def Pipe.demands (p : Pipe) (pg : PageId) : List Nat := (p.jobs.filter (fun j => (p.wanted j.1 j.2).contains pg)).map Prod.fst

end Sys2Proof.Machine
end

