-- ==== Sys2Proof/Machine/State.lean ====
section
/-!
DEFINITION. Sys2Proof/Machine/State.lean: the whole state of the package, what stops a step, and the state after reset.
-/
namespace Sys2Proof.Machine

/-- A register read that a row performed: the offset in BAR0 and the value returned. -/
structure RegRead where
  off : Nat
  value : W32
  deriving DecidableEq, Repr

/-- The package (file 00 to 22). `pending` is the queue of commands that wait, first in, first out. -/
structure State where
  /-- the build: BD1616-64L (true) or BD1616-48L (false), R2; nothing changes it. -/
  variant64 : Bool
  mer : Meridian
  pipe : Pipe
  boot : Boot
  nor : Nor
  fcu : Fcu
  pwr : Power
  d2d : List D2dLink
  sb : Sideband
  dbg : Debug
  pcie : Pcie
  /-- mailbox 0 is MBG, k + 1 is MBk. -/
  mbx : List Mailbox
  coel : Coel
  fab : Fabric
  flush : Flush
  /-- values that register reads returned, oldest first. -/
  reads : List RegRead
  /-- the model's own counter of free values drawn (Config.freeBytes, Config.freeNat). -/
  free : Nat
  /-- what the package has sent, oldest first. -/
  out : List Out
  pending : List Instr
  deriving DecidableEq, Repr

/-- What would stop a step with a fault. No row of the table stops the package so: every error that the spec gives is an
effect on the state. -/
inductive Fault where
  /-- Nothing raises it. Safe. -/
  | none
  deriving DecidableEq, Repr

/-- What refuses a step. -/
inductive Refusal where
  /-- An arm of Dispatch whose row has no meaning yet. Safe. -/
  | notModelled (mnemonic : String)
  deriving DecidableEq, Repr

/-- The BD1616-64L with blank flash, held by PERST_N once PWR_GOOD is high (R610, R663, R668). DESIGN CHOICE, log 7. -/
def State.reset : State :=
  { variant64 := true, mer := Meridian.reset, pipe := Pipe.reset true Nand.blank [], boot := Boot.reset, nor := Nor.blank,
    fcu := Fcu.reset, pwr := Power.reset, d2d := d2dReset, sb := Sideband.reset, dbg := Debug.reset, pcie := Pcie.reset,
    mbx := List.replicate 17 Mailbox.reset, coel := Coel.reset, fab := Fabric.reset, flush := Flush.reset, reads := [],
    free := 0, out := [], pending := [] }

end Sys2Proof.Machine
end

