-- ==== Sys2Proof/Machine/SystemOps.lean ====
section
/-!
DEFINITION. Sys2Proof/Machine/SystemOps.lean: the fault collector, limits, die-to-die links, sideband pins, the boot ROM
and the mailbox indices as operations on their own state (chapters 17, 19 to 22).
-/
namespace Sys2Proof.Machine

/-! ## Fault sources and reactions (R589 to R595) -/

/-- Sources whose reaction is fixed (R589 tables). -/
def fixedReaction (s : Nat) : Option Reaction :=
  if s < 256 && (s % 16 = 9 || s % 16 = 10) then some .fence
  else if (398 ≤ s && s ≤ 404) || s = 511 then some .safe
  else none

/-- The default reaction of a source (R589 tables). -/
def defaultReaction (s : Nat) : Reaction :=
  if s < 256 then
    (if s % 16 ≤ 7 then .interrupt else if s % 16 ≤ 10 then .fence else .record)
  else if s ≤ 262 then .interrupt
  else if s = 263 then .record
  else if s ≤ 319 then .interrupt
  else if s ≤ 351 then .record
  else if s ≤ 377 then .interrupt
  else if s ≤ 387 then .safe
  else if s ≤ 393 then .interrupt
  else if s ≤ 397 then .record
  else if s ≤ 404 then .safe
  else if s = 511 then .safe
  else .record

/-- The reaction in force (R592); on a package source, fence decodes as interrupt (R593). -/
def Fcu.reaction (f : Fcu) (s : Nat) : Reaction :=
  match fixedReaction s with
  | some r => r
  | none =>
    let r := f.react.getD s (defaultReaction s)
    if r = .fence && s ≥ 256 then .interrupt else r

/-- Is a source's bit set? -/
def Fcu.has (f : Fcu) (s : Nat) : Bool := f.bits.getLsbD s

/-- Set one bit. -/
def Fcu.set1 (f : Fcu) (s : Nat) : Fcu := { f with bits := f.bits ||| (1#512 <<< s) }

/-- The sources of a list whose bits are 0 now, each once. -/
def Fcu.fresh (f : Fcu) (ss : List Nat) : List Nat :=
  (ss.filter (fun s => decide (s < 512) && !f.has s)).eraseDups

/-- The set sources. -/
def Fcu.sources (f : Fcu) : List Nat := (List.range 512).filter f.has

/-- ALERT_N is asserted (R593). -/
def Fcu.alert (f : Fcu) : Bool := f.sources.any (fun s => f.reaction s != .record)

/-- FCU_STATw (R595 table). -/
def Fcu.word (f : Fcu) (w : Nat) : BitVec 32 := f.bits.extractLsb' (32 * w) 32

/-- FCU_SUMMARY. -/
def Fcu.summary (f : Fcu) : Nat :=
  ((List.range 16).map (fun w => b2n (f.word w != 0) * 2 ^ w)).foldl (· + ·) 0

/-- A W1C write of FCU_STATw (R25, R590). -/
def Fcu.w1c (f : Fcu) (w : Nat) (v : BitVec 32) : Fcu :=
  { f with bits := f.bits &&& ~~~((v.setWidth 512) <<< (32 * w)) }

/-- FCU_REACT on a range of sources (R592): fixed ones stay as they are. -/
def Fcu.setReactions (f : Fcu) (first count : Nat) (r : Reaction) : Fcu :=
  { f with react := ((List.range count).map (· + first)).foldl (fun t s =>
      if s < 512 && (fixedReaction s).isNone then t.set s r else t) f.react }

/-- The collector after a reset other than a power-on reset (R592, R609). -/
def Fcu.packageReset (f : Fcu) : Fcu := { Fcu.reset with bits := f.bits }

/-! ## Limits and clocks (R604 to R608) -/

/-- Highest CD_CORE in MHz for the measured rail (R605). -/
def coreCap (mv : Nat) : Nat :=
  if mv ≥ 740 then 2000 else if mv ≥ 720 then 1800 else if mv ≥ 700 then 1600 else if mv ≥ 680 then 1200 else 500

/-- Sixteenths of nominal by which a domain is lowered (R606): the cores by temperature or current, the on-die networks and
CD_COEL, on die 4, by temperature. -/
def Power.lowered (p : Power) : ClockDomain → Nat
  | .core d => max (p.lower.getD (d % 4) 0) (p.ilower.getD (d % 4) 0)
  | .noc d => p.lower.getD (d % 4) 0
  | .coel => p.lower.getD 4 0
  | _ => 0

/-- Issue rate of the BFT engines in sixteenths of nominal (R606): IOD-B is die 5. -/
def Power.bftRate (p : Power) : Nat := 16 - p.lower.getD 5 0

/-- The highest frequency of a domain now, in kHz (R605, R606): its ceiling, lowered by throttling, and for the cores of a
search die also what its rail allows. -/
def Power.cap (p : Power) (c : ClockDomain) : Nat :=
  let top := clockNominal.getD c.idx 0 * (16 - p.lowered c) / 16
  match c with
  | .core d => min top (1000 * coreCap (p.vcore.getD (d % 4) 750))
  | _ => top

/-- The setting of a domain. -/
def Power.clock (p : Power) (c : ClockDomain) : ClockSet := p.clocks.getD c.idx { run := false, khz := 0 }

/-- A domain's frequency in kHz (R40): what firmware asked for, or its ceiling where that is lower; 0 while it is gated. -/
def Power.khz (p : Power) (c : ClockDomain) : Nat :=
  if (p.clock c).run then min (p.clock c).khz (p.cap c) else 0

/-- Firmware asks for a frequency (R40): the request stands as it was made, and `Power.khz` clamps it. -/
def Power.setClock (p : Power) (c : ClockDomain) (khz : Nat) : Power :=
  { p with clocks := modNth p.clocks c.idx (fun x => { x with khz := khz }) }

/-- Firmware raises CD_COEL to nominal and ungates the gated domains (R39). -/
def Power.ungate (p : Power) : Power :=
  ({ p with clocks := p.clocks.map (fun x => { x with run := true }) } : Power).setClock .coel 1200000

/-- Every domain but CD_AON, CD_HOLD and CD_MER is gated (R596). -/
def Power.gateSafe (p : Power) : Power :=
  { p with clocks := p.clocks.mapIdx (fun i x => { x with run := x.run && (i == 15 || i == 16 || i == 19) }) }

/-- Does CD_COREd of core k's search die run (R34, R38)? -/
def Power.coreRuns (p : Power) (k : Nat) : Bool := (p.clock (.core (k / 4))).run

/-- Does CD_NBU run (R38)? -/
def Power.nbuRuns (p : Power) : Bool := (p.clock .nbu).run

/-- A die reaches 105 C (R606). -/
def Power.throttle (p : Power) (d t : Nat) : Power :=
  if t ≥ 105 then { p with thr := setNth p.thr d true, tj := setNth p.tj d t } else { p with tj := setNth p.tj d t }

/-- One 100 us step of a level (R606): down to 1/4 of nominal, or up again. -/
def stepLevel (raise : Bool) (l : Nat) : Nat := if raise then l - 1 else min (l + 1) 12

/-- The 100 us step of die d at a measured temperature and, on a search die, current (R606). -/
def Power.throttleStep (p : Power) (d t amps : Nat) : Power :=
  let l := if p.thr.getD d false then stepLevel (decide (t < 103)) (p.lower.getD d 0) else p.lower.getD d 0
  let il := if p.ilim.getD d false then stepLevel (decide (amps < 300)) (p.ilower.getD d 0) else p.ilower.getD d 0
  { p with
    tj := setNth p.tj d t,
    lower := setNth p.lower d l, ilower := setNth p.ilower d il,
    thr := if l = 0 && t < 103 then setNth p.thr d false else p.thr,
    ilim := if il = 0 && amps < 300 then setNth p.ilim d false else p.ilim }

/-- LIM_STAT (R608 table). -/
def Power.limStat (p : Power) : Nat :=
  let bits := fun (l : List Bool) => (l.mapIdx (fun i b => b2n b * 2 ^ i)).foldl (· + ·) 0
  bits (p.thr.take 6) + 2 ^ 6 * bits (p.ilim.take 4) + 2 ^ 16 * (min 255 (p.tj.foldl max 0))

/-- The set point of a margin (R603 table), and its fault source. -/
def marginInfo (kind idx : Nat) : Option (Option Int × Option Nat) :=
  match kind with
  | 0 => if idx < 32 then some (some 150, some (288 + idx)) else if idx < 48 then some (none, none) else none
  | 1 => if idx < 1024 then some (some 8, some (16 * (idx / 64) + 6)) else none
  | 2 => if idx < 10 then some (some 15, some (368 + idx)) else none
  | 3 => if idx < 64 then some (some 0, some (352 + idx / 8)) else none
  | _ => none

/-- KIND of MARGIN_READ decodes other values as 0. -/
def marginKind (k : Nat) : Nat := if k ≤ 3 then k else 0

/-! ## Die-to-die links (R599 to R602) -/

/-- How a module carries its traffic (R600). -/
inductive ModuleState where
  | full | half | down
  deriving DecidableEq, Repr

/-- A module with these failed lanes (R600): the spares that have not failed cover the failures of one half.
DEDUCED, log 77. -/
def moduleState (failed : List Nat) : ModuleState :=
  if failed.length ≤ 2 then .full
  else
    let spares := 2 - (failed.filter (fun l => decide (l ≥ 64))).length
    let lo := (failed.filter (fun l => decide (l < 32))).length
    let hi := (failed.filter (fun l => decide (32 ≤ l) && decide (l < 64))).length
    if min lo hi ≤ spares then .half else .down

/-- Is the link up (R601)? DEDUCED, log 77. -/
def D2dLink.up (l : D2dLink) : Bool := l.trained && !l.dead && l.failed.any (fun m => moduleState m != .down)

/-- D2D_LINKi (R602 table). -/
def D2dLink.reg (l : D2dLink) : Nat :=
  if !l.trained then 0x100
  else
    let ms := l.failed.map moduleState
    let upb := (ms.mapIdx (fun i m => b2n (m != .down && !l.dead) * 2 ^ i)).foldl (· + ·) 0
    let hb := (ms.mapIdx (fun i m => b2n (m == .half && !l.dead) * 2 ^ i)).foldl (· + ·) 0
    upb + 2 ^ 4 * hb + 2 ^ 8 * b2n (!l.up) + 2 ^ 16 * min 255 ((l.failed.map List.length).foldl (· + ·) 0)

/-- The link between search die d and its row neighbour, and its column neighbour (R589 list). -/
def rowLink (d : Nat) : Nat := d / 2
def colLink (d : Nat) : Nat := 2 + d % 2

/-- The routes between two search dies, in the order of R601, each a list of links. DESIGN CHOICE, log 78. -/
def sdRoutes (a b : Nat) : List (List Nat) :=
  let ios := [[8 + a, 8 + b], [4 + a, 4 + b]]
  if b = a ^^^ 1 then [[rowLink a], [colLink a, rowLink (a ^^^ 2), colLink b]] ++ ios
  else if b = a ^^^ 2 then [[colLink a], [rowLink a, colLink (a ^^^ 1), rowLink b]] ++ ios
  else if b = a ^^^ 3 then
    [[rowLink a, colLink (a ^^^ 1)], [colLink a, rowLink (a ^^^ 2)]] ++ ios
  else [[]]

/-- The routes between search die d and an I/O die (0 IOD-A, 1 IOD-B), in the order of R601. DESIGN CHOICE, log 78. -/
def ioRoutes (d io : Nat) : List (List Nat) :=
  let l := fun x => 4 + 4 * io + x
  [[l d], [rowLink d, l (d ^^^ 1)], [colLink d, l (d ^^^ 2)],
   [rowLink d, colLink (d ^^^ 1), l (d ^^^ 3)], [colLink d, rowLink (d ^^^ 2), l (d ^^^ 3)]]

/-- Is link i up? -/
def linkUp (ls : List D2dLink) (i : Nat) : Bool := ((ls[i]?).map D2dLink.up).getD false

/-- The route that a transfer takes: the first whose links are all up (R601). -/
def routeOf (ls : List D2dLink) (rs : List (List Nat)) : Option (List Nat) :=
  rs.find? (fun r => r.all (linkUp ls))

/-- Is a search die cut off from an I/O die (R602)? -/
def dieUnreach (ls : List D2dLink) (d : Nat) : Bool :=
  (routeOf ls (ioRoutes d 0)).isNone || (routeOf ls (ioRoutes d 1)).isNone

/-- The search die of a partition (R33). -/
def dieOf (k : Nat) : Nat := k / 4

/-- The UNREACH sources whose cause holds (R602); none before the links are trained. DESIGN CHOICE, log 78. -/
def unreachSources (ls : List D2dLink) : List Nat :=
  if ls.all (·.trained) then
    ((List.range 16).filter (fun k => dieUnreach ls (dieOf k))).map (fun k => 16 * k + 10)
  else []

/-- A lane fails (R599, R600). -/
def D2dLink.failLane (l : D2dLink) (m lane : Nat) : D2dLink :=
  { l with failed := modNth l.failed m (fun fs => if fs.contains lane then fs else fs ++ [lane]) }

/-! ## Sideband pins (R650, R651) -/

/-- FUNCn of a register value. -/
def sbFuncOf (v : BitVec 32) (n : Nat) : Nat := bitsOf v.toNat (2 * n) 2

/-- Does pin n hold the role it selects: the lowest-numbered of those selecting it (R650)? -/
def sbHolds (v : BitVec 32) (n : Nat) : Bool :=
  sbFuncOf v n != 0 &&
    (List.range n).all (fun m => !(sbFuncOf v m == sbFuncOf v n && m % 2 == n % 2))

/-- A write of SB_FUNC (R651): the pins whose function changed, and those that a role moves to, become inert. -/
def Sideband.writeFunc (s : Sideband) (v : BitVec 32) : Sideband :=
  let changed := (List.range 16).filter (fun n =>
    sbFuncOf v n != sbFuncOf s.func n || (sbHolds v n && !sbHolds s.func n))
  { s with func := v, inert := (s.inert ++ changed).eraseDups }

/-- The inert interval of a pin ends (R651): its new function drives it. -/
def Sideband.endInert (s : Sideband) (n : Nat) : Sideband :=
  if s.inert.contains n then
    { s with inert := s.inert.filter (· ≠ n),
             eff := (s.eff &&& ~~~(3#32 <<< (2 * n))) ||| (s.func &&& (3#32 <<< (2 * n))) }
  else s

/-- Is pin n inert (R650, R651)? -/
def Sideband.isInert (s : Sideband) (n : Nat) : Bool :=
  s.inert.contains n || (sbFuncOf s.eff n != 0 && !sbHolds s.eff n)

/-- The level of a pin (SB_GPIO_IN): the package's output, or what the board drives. -/
def Sideband.level (s : Sideband) (n : Nat) : Bool :=
  if !s.isInert n && sbFuncOf s.eff n == 0 && s.oe.getLsbD n then s.out.getLsbD n else s.ext.getLsbD n

/-- SB_GPIO_IN. -/
def Sideband.gpioIn (s : Sideband) : Nat :=
  ((List.range 16).map (fun n => b2n (s.level n) * 2 ^ n + b2n (s.isInert n) * 2 ^ (16 + n))).foldl (· + ·) 0

/-! ## The boot ROM (R616, R617, R626) -/

/-- Bytes of a NOR slot. -/
def Nor.bytes (n : Nor) (slot : Bool) (off len : Nat) : List Byte :=
  (n.slots.readN (b2n slot * 2 ^ 25 + off) len).map (fun b => ~~~b)

/-- Program bytes of a NOR slot. -/
def Nor.program (n : Nor) (slot : Bool) (off : Nat) (bs : List Byte) : Nor :=
  { n with slots := n.slots.writeN (b2n slot * 2 ^ 25 + off) (bs.map (fun b => ~~~b)) }

/-- LENGTH and VERSION of the image in a slot. -/
def Nor.imageLen (n : Nor) (slot : Bool) : Nat := leNat (n.bytes slot 4 4)
def Nor.imageVersion (n : Nor) (slot : Bool) : Nat := leNat (n.bytes slot 8 4)
def Nor.imageSetver (n : Nor) (slot : Bool) : Nat := leNat (n.bytes slot 12 2)

/-- The image digest (R616 step 4). -/
def Nor.imageDigest (n : Nor) (slot : Bool) : List Byte :=
  padTo 48 (Config.sha384 (n.bytes slot 0 416 ++ n.bytes slot 512 (n.imageLen slot - 512)))

/-- The OTP hash is blank (R616 step 3). -/
def otpBlank : Bool := Config.otpKeyHash.all (· == 0#8)

/-- Verification of an image (R616), each step in order. -/
def Nor.imageOk (n : Nor) (slot : Bool) : Bool :=
  leNat (n.bytes slot 0 4) == 0xB1C10F17 && decide (512 ≤ n.imageLen slot) && decide (n.imageLen slot ≤ 33554432)
  && (leNat (n.bytes slot 14 2) == 0 || leNat (n.bytes slot 14 2) == 0x1616)
  && !otpBlank && (Config.sha384 (n.bytes slot 32 97) == Config.otpKeyHash)
  && Config.ecdsaVerify (n.bytes slot 32 97) (n.imageDigest slot) (n.bytes slot 416 96)

/-- Is sequence `a` newer than `b`, compared modulo 2^32 (R626)? -/
def seqNewer (a b : Nat) : Bool := decide ((a + 2 ^ 32 - b % 2 ^ 32) % 2 ^ 32 < 2 ^ 31) && a % 2 ^ 32 != b % 2 ^ 32

/-- The newest valid control block copy, and whether it is copy 1 (R626). -/
def Nor.newest (n : Nor) : Option (Cb × Bool) :=
  match n.cb0, n.cb1 with
  | none, none => none
  | some a, none => some (a, false)
  | none, some b => some (b, true)
  | some a, some b => if seqNewer b.seq a.seq then some (b, true) else some (a, false)

/-- The control block that the ROM and firmware act on; with no valid copy, the one of R617. -/
def Nor.cb (n : Nor) : Cb :=
  match n.newest with
  | some (c, _) => c
  | none => { seq := 0, active := false, prev := none, trial := false, sa := .empty, sb := .empty, unconf := 0 }

/-- Write a control block into the older copy, CSEQ one greater, UNCONF as 0xF (R626). -/
def Nor.writeCb (n : Nor) (c : Cb) : Nor :=
  match n.newest with
  | some (o, true) => { n with cb0 := some { c with seq := (o.seq + 1) % 2 ^ 32, unconf := 0 } }
  | some (o, false) => { n with cb1 := some { c with seq := (o.seq + 1) % 2 ^ 32, unconf := 0 } }
  | none => { n with cb0 := some { c with seq := 1, unconf := 0 } }

/-- Program the next UNCONF bit of the newest copy (R626). -/
def Nor.bumpUnconf (n : Nor) : Nor :=
  match n.newest with
  | some (c, false) => { n with cb0 := some { c with unconf := min 4 (c.unconf + 1) } }
  | some (c, true) => { n with cb1 := some { c with unconf := min 4 (c.unconf + 1) } }
  | none => n

/-- Erase the older copy before an activation or a confirmation (R636, R638). -/
def Nor.eraseOlder (n : Nor) : Nor :=
  match n.newest with
  | some (_, true) => { n with cb0 := none }
  | some (_, false) => { n with cb1 := none }
  | none => n

/-- State of a slot in a control block. -/
def Cb.state (c : Cb) (slot : Bool) : SlotState := if slot then c.sb else c.sa
def Cb.setState (c : Cb) (slot : Bool) (st : SlotState) : Cb :=
  if slot then { c with sb := st } else { c with sa := st }

/-- UNCONF as the ROM takes it (R626). -/
def Cb.count (c : Cb) : Nat := min 3 c.unconf

/-- What the ROM ends with: the flash, the slot to start, and the ERR it recorded last. -/
structure RomEnd where
  nor : Nor
  start : Option Bool
  err : Nat

/-- Verify and start the active slot, or fall to the other one (R617, second half). -/
def romVerify (n : Nor) (c : Cb) (err : Nat) : RomEnd :=
  if n.imageOk c.active then { nor := n, start := some c.active, err := err }
  else
    let other := !c.active
    let good := c.state other = .verified || c.state other = .confirmed
    if c.prev.isSome || good then
      let c' := { (c.setState c.active .failed) with active := other, trial := false }
      let n' := n.writeCb c'
      let err := if otpBlank then 7 else 3
      if n'.imageOk other then { nor := n', start := some other, err := err }
      else { nor := n', start := none, err := err }
    else { nor := n, start := none, err := if otpBlank then 7 else 4 }

/-- The choice of an image by the ROM (R617). A failed or expired trial whose PREV is none enters recovery (R639).
DEDUCED, log 55. -/
def romChoose (n : Nor) (expired : Bool) : RomEnd :=
  if !n.present then { nor := n, start := none, err := 1 }
  else
    let err := if n.newest.isNone then 2 else 0
    let c := n.cb
    if c.trial then
      if c.count = 3 || expired then
        let err := if expired then 6 else 5
        match c.prev with
        | some p =>
          let c' := { (c.setState c.active .failed) with active := p, prev := none, trial := false }
          romVerify (n.writeCb c') c' err
        | none =>
          let c' := { (c.setState c.active .failed) with trial := false }
          { nor := n.writeCb c', start := none, err := err }
      else
        let n' := n.bumpUnconf
        romVerify n' n'.cb err
    else romVerify n c err

/-- SLOT state codes (R626 table). -/
def SlotState.code : SlotState → Nat
  | .empty => 0 | .partial_ => 1 | .complete => 2 | .verified => 3 | .trial => 4 | .confirmed => 5 | .failed => 6

/-- STAGE codes (BOOT_STAT table). -/
def Stage.code : Stage → Nat
  | .reset => 0 | .rom => 1 | .norRead => 2 | .verify => 3 | .fwStart => 4 | .clocks => 5 | .hbm => 6 | .flash => 7
  | .restore => 8 | .ready => 9 | .serving => 10 | .flush => 11 | .safe => 12 | .recovery => 13

def LastRst.code : LastRst → Nat
  | .powerOn => 0 | .perst => 1 | .rstCtl => 2

/-- BOOT_STAT (R642). -/
def Boot.stat (b : Boot) : Nat :=
  b.stage.code + 2 ^ 4 * b.err + 2 ^ 8 * b2n b.slot + 2 ^ 9 * b2n b.trial + 2 ^ 10 * (min 3 b.unconf)
  + 2 ^ 12 * b.lastRst.code

/-- COEL_STAT.STATE codes. -/
def CoelState.code : CoelState → Nat
  | .rom => 0 | .training => 1 | .ready => 2 | .restarting => 3 | .activating => 4

/-! ## Mailbox indices (R545 to R550) -/

/-- S of a mailbox (R545): SZLOG above 4 decodes as 4. -/
def Mailbox.size (m : Mailbox) : Nat := 64 * 2 ^ min m.szlog 4

/-- U, unconsumed responses (R547). -/
def Mailbox.unread (m : Mailbox) : Nat := (m.rsPidx + 65536 - m.rsCidx) % 65536

/-- Unread requests. -/
def Mailbox.requests (m : Mailbox) : Nat := (m.rqPidx + 65536 - m.rqCidx) % 65536

/-- May the front end take the next request (R547, R549)? -/
def Mailbox.mayTake (m : Mailbox) : Bool :=
  m.en && !m.stuck && decide (m.requests > 0) && decide (m.outst < 64) && decide (m.outst + m.unread + 8 ≤ m.size)

/-- Response base address; bits [11:0] of the low half as 0. -/
def Mailbox.rsBase (m : Mailbox) : Nat := (m.rsLo.toNat / 4096 * 4096) + 2 ^ 32 * m.rsHi.toNat
def Mailbox.rqBase (m : Mailbox) : Nat := (m.rqLo.toNat / 4096 * 4096) + 2 ^ 32 * m.rqHi.toNat

/-- PHASE of the slot written at index i (R546). -/
def Mailbox.phase (m : Mailbox) : Bool := m.rsPidx / m.size % 2 = 0

/-- MBX_DOORBELL (R549). -/
def Mailbox.doorbell (m : Mailbox) (v : Nat) : Mailbox :=
  let p := bitsOf v 0 16
  let c := bitsOf v 16 16
  let unread := (p + 65536 - m.rqCidx) % 65536
  let newU := (m.rsPidx + 65536 - c) % 65536
  if unread > m.size || newU > m.unread then { m with ringErr := true }
  else { m with rqPidx := p, rsCidx := c }

/-- MBX_CFG (R550). DEDUCED, log 86. -/
def Mailbox.writeCfg (m : Mailbox) (v : Nat) : Mailbox :=
  let en := bitOf v 0
  let sz := bitsOf v 1 3
  if m.en then { m with en := en }
  else if en then
    (if m.outst = 0 then
      { m with en := true, szlog := sz, rqCidx := 0, rsPidx := 0, rqPidx := 0, rsCidx := 0, ringErr := false,
               stuck := false }
     else m)
  else { m with szlog := sz }

/-- MBX_STAT (R549 table). -/
def Mailbox.stat (m : Mailbox) (coel : Nat) : Nat :=
  coel + 2 ^ 3 * m.outst + 2 ^ 10 * b2n m.ringErr + 2 ^ 11 * b2n m.evLost + 2 ^ 16 * m.rqCidx

/-- MBX_CFG as it reads. -/
def Mailbox.cfg (m : Mailbox) : Nat := b2n m.en + 2 * m.szlog

/-- A result table entry written (R571): a deferred command's entry takes its final status in its place; the table keeps the
64 latest. -/
def Mailbox.addResult (m : Mailbox) (e : ResEntry) : Mailbox :=
  { m with results :=
      if m.results.any (fun x => x.seq == e.seq) then m.results.map (fun x => if x.seq = e.seq then e else x)
      else (e :: m.results).take 64 }

/-- A mailbox after a function level reset (R543, R569, R571): its result table and the count of its events are kept, and
the final status of a deferred command reads ABORTED. DEDUCED, log 51. -/
def Mailbox.blockReset (m : Mailbox) : Mailbox :=
  { Mailbox.reset with
    evSeq := m.evSeq,
    results := m.results.map (fun e => if e.state = .done then e else { e with state := .done, status := 0x04 }) }

end Sys2Proof.Machine
end

