-- ==== Sys2Proof/Machine/Ops.lean ====
section
/-!
DEFINITION. Sys2Proof/Machine/Ops.lean: the operations on the whole package that rows share: what leaves the package,
mailbox slots, fault sources and their reactions, fences, the safe state and the start of a flush.
-/
namespace Sys2Proof.Machine

/-! ## Conditions -/

/-- The package is out of reset, not in the safe state, and no flush runs or has left it inert (R133, R422, R596). -/
def State.works (s : State) : Bool :=
  s.boot.stage ≠ .reset && !s.fcu.safe && s.flush.state = .idle && !s.flush.inertDone

/-- Every fabric transmitter is squelched (R534 to R536). -/
def State.quiet (s : State) : Bool :=
  !s.coel.dpen || s.fcu.safe || s.flush.state = .done || s.flush.inertDone || s.boot.stage = .reset

/-- May a function issue memory requests (R538, R539)? -/
def State.canMaster (s : State) (func : Nat) : Bool :=
  s.pcie.trained && s.pcie.bme.getD func false && !(s.pcie.d3.getD func true) && (func == 0 || s.pcie.vfEnable)

/-- Partitions that are fenced (R580). -/
def State.fencedList (s : State) : List Nat := (List.range 16).filter s.pipe.fenced

/-- Unfenced partitions. -/
def State.unfencedList (s : State) : List Nat := (List.range 16).filter (fun k => !s.pipe.fenced k)

/-- The Coelostat store can be read and written (R587). -/
def State.storeUp (s : State) : Bool := !s.pipe.fenced 0 || !s.pipe.fenced 8

/-! ## What leaves the package (R539, R541, R542, R612) -/

/-- A posted write into a function's memory; it waits while the function cannot master. While PERST_N is asserted the
PCIe link is down, and the write is not made (R612). `relaxed` is the relaxed-ordering attribute where the spec gives it
(R537). DESIGN CHOICE, log 17. -/
def State.hostWrite (s : State) (func addr : Nat) (bytes : List Byte) (relaxed : Option Bool := none) : State :=
  if s.pwr.perst then s
  else if s.canMaster func then { s with out := s.out ++ [.write func addr bytes relaxed] }
  else { s with pcie := { s.pcie with held := s.pcie.held ++ [.write func addr bytes relaxed] } }

/-- An MSI-X message, its vector modulo the function's table; pending while it is masked or cannot be sent.
DESIGN CHOICE, log 17. -/
def State.msix (s : State) (func vec : Nat) : State :=
  let v := vec % (if func = 0 then 256 else 112)
  if s.pwr.perst then s
  else if s.pcie.unmasked.contains (func, v) && s.canMaster func then { s with out := s.out ++ [.msix func v] }
  else if s.pcie.pend.contains (func, v) then s
  else { s with pcie := { s.pcie with pend := s.pcie.pend ++ [(func, v)] } }

/-- The held writes and pending messages of functions that can now master go out in order (R539). -/
def State.releaseOut (s : State) : State :=
  let can := fun (o : Out) => match o with | .write f _ _ _ => s.canMaster f | _ => true
  let msg := fun (x : Nat × Nat) => s.pcie.unmasked.contains x && s.canMaster x.1
  { s with
    out := s.out ++ s.pcie.held.filter can ++ (s.pcie.pend.filter msg).map (fun x => Out.msix x.1 x.2),
    pcie := { s.pcie with held := s.pcie.held.filter (fun o => !can o), pend := s.pcie.pend.filter (fun x => !msg x) } }

/-! ## Mailbox slots (R546 to R548, R560) -/

/-- A mailbox by number. -/
def State.mailbox (s : State) (m : Nat) : Mailbox := (s.mbx[m]?).getD Mailbox.reset

/-- Change a mailbox. -/
def State.modMbx (s : State) (m : Nat) (f : Mailbox → Mailbox) : State := { s with mbx := modNth s.mbx m f }

/-- The header of a response or event slot, PHASE left 0 (R560 table). -/
def slotHdr (op st : Nat) (ev : Bool) (token gen hint rlen : Nat) : List Byte :=
  packBytes 32 [(16, op), (8, st), (1, 0), (1, b2n ev), (6, 0), (32, token), (16, gen), (16, 0), (32, hint),
    (32, rlen), (96, 0)]

/-- A slot with PHASE in its place (R546, R560). -/
def withPhase (ph : Bool) (bytes : List Byte) : List Byte :=
  modNth (padTo 256 bytes) 3 (fun b => if ph then b ||| 1#8 else b)

/-- Write a 256-byte slot at the response producer index, advance it and signal vector 0 (R542, R546); a response ends its
command's being outstanding (R547). -/
def State.slotWrite (s : State) (m : Nat) (resp : Bool) (bytes : List Byte) : State :=
  let b := s.mailbox m
  ((s.hostWrite m (b.rsBase + 256 * (b.rsPidx % b.size)) (withPhase b.phase bytes)).msix m 0).modMbx m (fun b =>
    { b with rsPidx := (b.rsPidx + 1) % 65536, outst := if resp then b.outst - 1 else b.outst })

/-- A slot goes out, or waits while the function of mailbox m cannot master (R539, R548). -/
def State.slotOut (s : State) (m : Nat) (resp : Bool) (bytes : List Byte) : State :=
  if s.canMaster m then s.slotWrite m resp bytes
  else s.modMbx m (fun b => { b with held := b.held ++ [(resp, bytes)] })

/-- What waited for bus mastering goes out: writes, messages and slots (R539). -/
def State.release (s : State) : State :=
  let go := fun (s : State) (m : Nat) =>
    if s.canMaster m then
      let hs := (s.mailbox m).held
      hs.foldl (fun s h => s.slotWrite m h.1 h.2) (s.modMbx m (fun b => { b with held := [] }))
    else s
  (List.range 17).foldl go s.releaseOut

/-- Raise an event for a mailbox (R548). DEDUCED, log 85. -/
def State.event (s : State) (m code part : Nat) (cmdf : Bool) (source : Nat) : State :=
  let s1 := s.modMbx m (fun b => { b with evSeq := (b.evSeq + 1) % 2 ^ 32 })
  let b := s1.mailbox m
  let waits := (b.held.filter (fun h => !h.1)).length
  if b.en && b.outst + b.unread + waits < b.size then
    let ver := if code = 3 || code = 4 then s.boot.version else 0
    let dig := if code = 4 then s.boot.digest else List.replicate 48 0#8
    let body := packBytes 16 [(8, code), (4, part), (1, b2n cmdf), (19, 0), (9, source), (23, 0), (32, b.evSeq), (32, ver)]
      ++ dig
    s1.slotOut m false (slotHdr 0 0 true 0 0 0 0 ++ body)
  else s1.modMbx m (fun b => { b with evLost := true })

/-- Raise an event for every mailbox with EN 1 (R548 table). -/
def State.eventAll (s : State) (code : Nat) : State :=
  (List.range 17).foldl (fun s m => if (s.mailbox m).en then s.event m code 0 false 0 else s) s

/-- OPCODE and TOKEN of a request slot. -/
def Request.opcode (r : Request) : Nat := le16 r.slot 0
def Request.token (r : Request) : Nat := le32 r.slot 4

/-- What a command answers. -/
structure Answer where
  status : Nat
  gen : Nat := 0
  hint : Nat := 0
  rlen : Nat := 0
  payload : List Byte := []
  deriving DecidableEq, Repr

/-- A plain answer. -/
def Answer.of (status : Nat) : Answer := { status := status }
def Answer.busy (hint : Nat) : Answer := { status := stBUSY, hint := hint }
def Answer.ok (payload : List Byte) : Answer := { status := stOK, payload := payload }

/-- Enter a final status in the result table (R571): not BUSY, and not CMD_RESULT. -/
def State.result (s : State) (r : Request) (st : ResState) (status gen : Nat) : State :=
  if status = stBUSY || r.opcode = 0x0004 then s
  else s.modMbx r.mb (fun b => b.addResult
    { token := r.token, opcode := r.opcode, state := st, status := status, gen := gen, seq := r.seq, stored := s.storeUp })

/-- Write the response of an outstanding command (R547, R560, R571). -/
def State.answer (s : State) (r : Request) (a : Answer) : State :=
  (s.slotOut r.mb true (slotHdr r.opcode a.status false r.token a.gen a.hint a.rlen ++ a.payload)).result r .done a.status a.gen

/-! ## The fabric's effects -/

/-- Perform what an operation of the fabric asks of the rest of the package. -/
def State.fabEff (s : State) : FabEff → State
  | .out (.write f a bs r) => s.hostWrite f a bs r
  | .out (.msix f v) => s.msix f v
  | .out o => { s with out := s.out ++ [o] }
  | .gen a bs => { s with pipe := s.pipe.iasPut 0 a bs }
  | .charge k act n => { s with pipe := s.pipe.count k act 4 n }
  | .posted k seq =>
    { s with pipe := s.pipe.modPart k (fun q =>
        { q with recs := q.recs.map (fun r => if r.logSeq = seq then { r with replWait := false } else r) }) }

/-- Is a connection in ERROR or FREE (R356, R525)? -/
def State.connDead (s : State) (n : Nat) : Bool :=
  match s.fab.conns.get? n with | some c => c.error.isSome | none => true

/-- The fabric after an operation, and its effects in order; jobs that await a partial of a lost connection end (R356). -/
def State.withFab (s : State) (r : Fabric × List FabEff) : State :=
  let s1 := r.2.foldl State.fabEff { s with fab := r.1 }
  { s1 with pipe := s1.pipe.poolLost s1.connDead }

/-- Every ACTIVE connection homed on partition k enters ERROR with cause FENCED (R533). -/
def State.fabFence (s : State) (k : Nat) : State :=
  (s.fab.conns.keys.filter (fun n => connHome n == k)).foldl (fun s n => s.withFab (s.fab.failSend n .fenced 0 0 0 s.quiet)) s

/-! ## Fences (R582 to R586) -/

/-- The requests that the NBUs of partition k hold. -/
def Pipe.held (p : Pipe) (k : Nat) : List (Nat × NbuReq) :=
  (p.part k).nbus.flatMap (fun n => (n.2.queue ++ n.2.running).map (fun r => (n.1, r)))

/-- Jobs that have work in partition k (R129, R130, R299, R307): NBU requests that a job waits for, tiles, selection
requests, flash reads and moves of pages, walks, and directory locks asked for or held there. DEDUCED, log 72. -/
def Pipe.workIn (p : Pipe) (k : Nat) : List Nat :=
  let q := p.part k
  let nbu := ((p.held k).filter (fun r => r.2.kernel != 3)).map (fun r => r.2.job)
  let wait := (p.unissued.filter (fun u => u.1 == k)).map (fun u => u.2.2.job)
  let tiles := q.core.tiles.flatMap (·.jobs)
  let sel := (q.core.sel.vals.filter (fun r => r.use != .user)).map (·.job)
  let reads := q.flash.reads.filterMap (fun r => match r with | .vector j _ _ _ _ => some j | .page _ _ => none)
  let walks := (p.walks.vals.filter (fun w => w.core == k && w.started)).map (·.job)
  let locks := q.lockQueue.map Prod.fst ++ q.locks.map (·.job)
  let moves := (q.flash.reads.filterMap (fun r => match r with | .page pg _ => some pg | _ => none)).flatMap p.demands
  (nbu ++ wait ++ tiles ++ sel ++ reads ++ walks ++ locks ++ moves).eraseDups.filter (· ≠ 0)

/-- A walk of another partition's query that has not started on core k leaves its starts to be counted at the query's home
(R339). -/
def Pipe.leaveWalks (p : Pipe) (k : Nat) : Pipe :=
  { p with walks := p.walks.mapv (fun w =>
      match p.jobs.get? w.job with
      | some jb => if w.core = k && !w.started && jb.home ≠ k then { w with core := jb.home, lost := w.parts ++ w.lost, parts := [] } else w
      | none => w) }

/-- The STAMPs that a fence of partition k loses go on the retry lists of their engines, and their records go on (R307). -/
def Pipe.saveStamps (p : Pipe) (k : Nat) : Pipe :=
  ((p.held k).filter (fun r => r.2.kernel == 3)).foldl (fun (p : Pipe) r =>
    let e := r.2.home
    let p1 := p.modPart e (fun q => { q with stampRetry := q.stampRetry ++
      [{ part := k, pc := r.1, piece := r.2.piece, entry := r.2.arg0, u := r.2.repoch }] })
    if p1.fenced e then p1 else (p1.modRec e r.2.job (fun y => { y with stOut := false })).settleRec e r.2.job) p

/-- A fence of partition k as the pipeline meets it (R584, R168, R229, R381, R455): core, NBUs, Almanac cache and
scheduler stop; jobs with work there end with FENCED; moves IN leave their pages on flash, moves OUT in HBM, dirty.
DEDUCED, log 72. -/
def Pipe.fence (p : Pipe) (k : Nat) (cause : Option Nat) : Pipe :=
  let js := (p.workIn k) ++ (p.jobs.filter (fun j => j.2.home == k)).map Prod.fst
  let p0 := js.foldl (fun p j => p.endJob j stFENCED (some k)) ((p.saveStamps k).leaveWalks k)
  let p1 := ((p0.part k).comps.filter (fun c => c.step == 2)).foldl (fun (p : Pipe) c => p.unmapPiece (k, c.pc, c.new)) p0
  let fixPage := fun (e : TierEnt) => if e.home = k then
      (if e.st = .in_ then { e with st := .flash } else if e.st = .out then { e with st := .hbm, dirty := true } else e) else e
  let p2 := ({ p1 with
    general := p1.general.mapv fixPage, bank := p1.bank.mapv fixPage,
    plate := p1.plate.clear (k * 2 ^ 25) (2 ^ 25) } : Pipe).showTiers
  p2.modPart k (fun q =>
    { q with
      st := .fencing, cause := cause, flashIdle := false, completionsOwed := true,
      core := { CoreSt.reset with stray := q.core.stray, kernelTraps := q.core.kernelTraps, corrected := q.core.corrected }, nbus := [],
      recs := [], locks := [], lockQueue := [], comps := q.comps.filter (fun c => c.step != 2),
      walkWait := [], ueBits := 0, ce := 0, trapCnt := 0, trapCause := 0,
      alm := { q.alm with cache := [], bells := [], dbdrop := 0, orphan := 0, miss := 0 },
      sched := { q.sched with finder := 0, forgive := 0 },
      flash := { q.flash with
        reads := [], ue := 0,
        progs := q.flash.progs.filter (fun g => match g with | .page _ => false | _ => true) },
      tailHeld := q.flash.log.any (fun e => !e.programmed) })

/-- A fence starts (R582): a cause that falls on a FENCING or FENCED partition adds nothing; one during UNFENCING
abandons the unfence, whose PART_UNFENCE commands answer BAD_STATE (R588). -/
def State.fence (s : State) (k : Nat) (cause : Option Nat) : State :=
  match (s.pipe.part k).st with
  | .fencing | .fenced => s
  | _ =>
    let ws := s.coel.waiters.filter (fun w => w.unfence && w.part == k)
    let s1 := ws.foldl (fun s w => s.answer w.req (Answer.of stBADSTATE))
      { s with coel := { s.coel with waiters := s.coel.waiters.filter (fun w => !(w.unfence && w.part == k)) } }
    ({ s1 with pipe := s1.pipe.fence k cause }).fabFence k

/-! ## Reactions and the safe state (R591 to R597) -/

/-- Entry to the safe state (R596, R597): the package withdraws from the host, the fabric and the flash. -/
def State.enterSafe (s : State) : State :=
  { s with
    fcu := { s.fcu with safe := true, safeIdle := false }, pcie := { s.pcie with detect := true, trained := false },
    boot := { s.boot with stage := .safe },
    flush := { s.flush with state := if s.flush.state = .flushing then .idle else s.flush.state, parts := [] } }

/-- Alarms of FLS_HOLDSTAT that a fault source latches during a flush (R425 table). -/
def alarmOf (src : Nat) : BitVec 8 :=
  if 388 ≤ src && src ≤ 393 then 0x01#8
  else if (368 ≤ src && src ≤ 387) then 0x02#8
  else if src < 256 && src % 16 = 4 then 0x08#8
  else if 256 ≤ src && src ≤ 258 then 0x10#8
  else if src = 259 || (320 ≤ src && src ≤ 351) then 0x20#8
  else 0#8

/-- Causes of fault sources occur in one cycle (R590 to R595, R671, R673): bits set, and each 0-to-1 change is reacted
to. During the flush only THERMTRIP and UNDERVOLT react, and FCU_PARITY waits for its end (R594, R595).
DEDUCED, log 50. DEDUCED, log 69. -/
def State.raise (s : State) (srcs : List Nat) : State :=
  let fresh := s.fcu.fresh srcs
  let s1 := { s with fcu := fresh.foldl Fcu.set1 s.fcu }
  if fresh.isEmpty then s1
  else if s.flush.state = .flushing then
    let s2 := { s1 with flush := { s1.flush with alarms := fresh.foldl (fun a x => a ||| alarmOf x) s1.flush.alarms } }
    let s3 := if fresh.contains 511 then { s2 with fcu := { s2.fcu with parityWaits := true } } else s2
    if fresh.any (fun x => decide (398 ≤ x) && decide (x ≤ 404)) then s3.enterSafe else s3
  else
    let strong := fun (r : Reaction) => fresh.filter (fun x => s1.fcu.reaction x == r)
    let s2 := if fresh.any (fun x => s1.fcu.reaction x != .record) then s1.msix 0 1 else s1
    if !(strong .safe).isEmpty then s2.enterSafe
    else (strong .fence).foldl (fun s x => s.fence (x / 16) (some x)) s2

/-- Causes that hold now (R590): their bits set again after a clear. DEDUCED, log 70. -/
def State.holding (s : State) : List Nat :=
  unreachSources s.d2d
  ++ ((List.range 6).filter (fun d => s.pwr.thr.getD d false)).map (· + 388)
  ++ ((List.range 4).filter (fun d => s.pwr.ilim.getD d false)).map (· + 394)
  ++ ((List.range 16).filter (fun k => s.pwr.hot.getD k false)).map (fun k => 16 * k + 7)
  ++ ((List.range 6).filter (fun d => decide (s.pwr.tj.getD d 0 ≥ 115))).map (· + 398)
  ++ s.pwr.margins.filterMap (fun m =>
      match marginInfo (m.1 / 65536) (m.1 % 65536) with
      | some (some sp, some src) => if m.2 < sp then some src else none
      | _ => none)

/-! ## The pipeline's effects -/

/-- A package message or result write joins its connection's queue (R521, R518, R525). -/
def Fabric.queueMsg (f : Fabric) (n : Nat) (m : PkgMsg) : Fabric :=
  f.modConn n (fun c => { c with pkg := c.pkg ++ [m] })

/-- Perform one effect of the pipeline on the rest of the package. -/
def State.pipeOut (s : State) : PipeOut → State
  | .write f a bs r => s.hostWrite f a bs r
  | .msix f v => s.msix f v
  | .fault src => s.raise [src]
  | .send n w fin kind rk ro pl act part log =>
    let m : PkgMsg :=
      { write := w, final := fin, mkind := kind, rkey := rk, roff := ro, payload := pl, act := act, part := part,
        purpose := match log with | some (k, q) => .log k q | none => .message }
    { s with fab := s.fab.queueMsg n m }

/-- Perform the effects that the pipeline has listed. DESIGN CHOICE, log 17. -/
def State.drain (s : State) : State := s.pipe.out.foldl State.pipeOut { s with pipe := { s.pipe with out := [] } }

/-- Effects of effects included: a fault may fence, and a fence may signal. -/
def State.settle (s : State) : State := s.drain.drain.drain

/-- A pipeline row: its effect on the pipeline while the package works, and what it tells the rest. DESIGN CHOICE, log 3. -/
def State.onPipe (s : State) (f : Pipe → Pipe) : State :=
  if s.works then ({ s with pipe := f s.pipe }).settle else s

/-- A row of core k: its clock runs (R38, R167). -/
def State.onCore (s : State) (k : Nat) (f : Pipe → Pipe) : State := if s.pwr.coreRuns k then s.onPipe f else s

/-- A row of a near-bank unit: CD_NBU runs (R38, R230). -/
def State.onNbu (s : State) (f : Pipe → Pipe) : State := if s.pwr.nbuRuns then s.onPipe f else s

/-- A row that needs the data path enabled (R133, R230, R320, R362). -/
def State.onData (s : State) (f : Pipe → Pipe) : State := if s.coel.dpen then s.onPipe f else s

/-- A row of a walk, on the core that it runs on. -/
def State.onWalk (s : State) (w : Nat) (f : Pipe → Pipe) : State :=
  match s.pipe.walks.get? w with
  | some wk => s.onCore wk.core f
  | none => s

/-! ## Completion (R118, R518 to R520, R131) -/

/-- Buffers that a job may take of a run of free ones (R121). -/
def rbTake (free rbMax : Nat) : Nat := min free (if rbMax = 0 then 65535 else rbMax)

/-- The placement of a job begins on a connection (R121, R441, R518): buffers reserved, and counted as held. -/
def Conn.reserve (c : Conn) (j rbCount rbMax : Nat) : Conn :=
  if c.resvJob = j then c
  else
    let n := rbTake (rbCount - c.rbHeld) rbMax
    { c with resv := n, resvJob := j, rbHeld := c.rbHeld + n }

/-- A placement takes up its reservation, made now if it had none: the buffers count as held no longer. -/
def Conn.unreserve (c : Conn) (j rbCount rbMax : Nat) : Conn :=
  let c := c.reserve j rbCount rbMax
  { c with resvJob := 0, rbHeld := c.rbHeld - c.resv }

/-- The completion of a job of an FRECV queue goes to the peer's region (R518, R520): while the peer's ring has no free
entry it waits, its buffers reserved (R119, R121). DEDUCED, log 134. -/
def State.completeFab (s : State) (j : Nat) (jb : Job) (trueup : Bool) : State :=
  let f := s.pipe.queue jb.queue
  let fin := fun (s : State) => { s with pipe := (if trueup then s.pipe.trueUp jb else s.pipe).retire j }
  match s.fab.conns.get? f.conn with
  | none => fin { s with fab := { s.fab with orphan := satAdd s.fab.orphan 1 } }
  | some c =>
    if c.error.isSome then fin { s with fab := { s.fab with orphan := satAdd s.fab.orphan 1 } }
    else
      let size := 32 * 2 ^ c.cfg.cqszlog
      let rbCount := 64 * 2 ^ min c.cfg.rbclog 10
      if !ringFree size c.cqP c.cqC then
        { s with fab := { s.fab with conns := s.fab.conns.set f.conn (c.reserve j rbCount jb.d.rbMax) } }
      else
        let c := c.unreserve j rbCount jb.d.rbMax
        let (st, stage, fault) := jb.endOf
        let vb := s.pipe.vectorBytes jb
        let len := resultLen jb.d.payload vb
        let rbSize := 4096 * 2 ^ min c.cfg.rbszlog 8
        let n := jb.results.length
        let (cnt, used) := if st = stOK then placement n len rbSize c.resv jb.d.rbMax else (0, 0)
        let st' := if st = stOK && cnt < n then stTRUNCATED else st
        let stream := (jb.results.take cnt).flatMap (resultBytes jb.d.payload vb (jb.mode == 2))
        let msg := fun (fin : Bool) (off : Nat) (bs : List Byte) =>
          ({ write := true, final := fin, mkind := 0, rkey := f.rkey, roff := f.raddr + off, payload := bs, act := 0,
             part := jb.home, purpose := .message } : PkgMsg)
        let parts := bufParts rbSize rbCount (used + 1) c.rbNext stream
        let entry := compBytes (s.pipe.compFields jb st' stage fault cnt (n - cnt)) c.cphase (c.rbNext % 65536) used
        let msgs := parts.map (fun x => msg false (64 * size + rbSize * x.1) x.2) ++ [msg true (64 * c.cqP) entry]
        let p' := (c.cqP + 1) % size
        let c' := { c with
          pkg := c.pkg ++ msgs, cqP := p', cphase := if p' = 0 then !c.cphase else c.cphase,
          rbNext := (c.rbNext + used) % rbCount, rbHeld := c.rbHeld + used, resv := 0, written := c.written.set c.cqP (c.rbNext, used) }
        fin { s with fab := { s.fab with conns := s.fab.conns.set f.conn c' } }

/-- Write a job's completion (R118, R518). A peer's POOL that ended early is answered with FENCED (R355, R521). -/
def State.completeJob (s : State) (j : Nat) (trueup : Bool) : State :=
  match s.pipe.jobs.get? j with
  | none => s
  | some jb =>
    if jb.void then { s with pipe := s.pipe.retire j }
    else if jb.peer.isSome then
      match jb.peer with
      | some (conn, cookie) =>
        ({ s with pipe := { s.pipe.retire j with out := s.pipe.out ++
            [PipeOut.send conn false false 7 0 0 (poolReplyBytes cookie stFENCED 0 []) 0 jb.home none] } }).settle
      | none => s
    else if jb.frecv then s.completeFab j jb trueup
    else ({ s with pipe := s.pipe.complete j trueup }).settle

/-! ## The hold-up flush (R423) -/

/-- Moves and write-backs stop, and their pages keep the states they held before the move began (R392); reads are
abandoned (R423 step 2). -/
def Pipe.holdMoves (p : Pipe) : Pipe :=
  let fix := fun (e : TierEnt) =>
    if e.st = .in_ then { e with st := .flash } else if e.st = .out then { e with st := .hbm, dirty := true } else e
  let halt := fun (f : FlashPart) =>
    { f with reads := [], progs := f.progs.filter (fun g => match g with | .page _ => false | _ => true) }
  ({ p with
    general := p.general.mapv fix, bank := p.bank.mapv fix, late := [],
    parts := p.parts.map (fun (q : Part) => { q with flash := halt q.flash }) } : Pipe).showTiers

/-- Steps 1 to 3 of R423: dispatch and publication stop, every dispatched job completes with ABORTED, and each
partition's flush begins. A fenced partition has nothing to flush (R585). When PERST_N has brought the PCIe link down,
LINK is latched at once (R425, R612). DEDUCED, log 50. A job whose completion ring has no free slot gets no entry and the flush goes
on. DESIGN CHOICE, log 169. -/
def State.startFlush (s : State) (after : AfterFlush) : State :=
  let js := s.pipe.jobs.keys
  let s1 := { s with pipe := js.foldl (fun p j => p.endJob j stABORTED none) s.pipe }
  let s2 := js.foldl (fun s j => s.completeJob j true) s1
  { s2 with
    pipe := s2.pipe.holdMoves, boot := { s2.boot with stage := .flush },
    flush := { s2.flush with
      state := .flushing, alarms := if after = .perst then 0x20#8 else 0, after := after,
      parts := (List.range 16).map (fun k => if s2.pipe.fenced k then 3 else 0) } }

end Sys2Proof.Machine
end

