-- ==== Sys2Proof/Machine/Bells.lean ====
section
/-!
DEFINITION. Sys2Proof/Machine/Bells.lean: BFT_DOORBELL as an operation of the fabric (R496, R506, R516, R532).
-/
namespace Sys2Proof.Machine

/-- A doorbell that the register does not take. -/
def Fabric.dropBell (f : Fabric) : Fabric := { f with dbDrop := satAdd f.dbDrop 1 }

/-- The doorbells of a function's window that a write covers: `some k` ALM_DOORBELLk, `none` BFT_DOORBELL (R540, R663). -/
def bellsAt (func off size : Nat) : List (Option Nat) :=
  let hit := fun (base : Nat) => decide (off < base + 8) && decide (base < off + size)
  if func = 0 then
    ((List.range 16).filter (fun k => hit (0x10000 + 0x1000 * k))).map some ++ (if hit 0x9000 then [none] else [])
  else (if hit 0x1000 then [some (func - 1)] else []) ++ (if hit 0x2000 then [none] else [])

/-- A write of fewer than 8 bytes to a doorbell is ignored and counted (R438, R532, R666). -/
def State.shortBell (s : State) : Option Nat → State
  | some k => s.onPipe (fun p => p.dropBell k)
  | none => { s with fab := s.fab.dropBell }

/-- The fields of a BFT_DOORBELL write: NUM and INDEX. -/
def bellNum (v : Nat) : Nat := bitsOf v 0 18
def bellIndex (v : Nat) : Nat := bitsOf v 32 16

/-- May the BAR of VF j take an object homed in partition `home` (R532)? BAR0 takes every one. -/
def vfTakes (vf : Option Nat) (home : Nat) : Bool := match vf with | none => true | some j => j == home

/-- Entries of a send ring that have not been started. DEDUCED, log 125. -/
def Conn.sendLeft (c : Conn) : Nat := (c.spidx + c.cfg.ssize - c.snext % c.cfg.ssize) % c.cfg.ssize

/-- A connection in ERROR discards every entry that it has not started: each is counted, and the consumer index passes
them (R496). DEDUCED, log 115. DEDUCED, log 122. -/
def Fabric.discardSends (f : Fabric) (n : Nat) : Fabric × List FabEff :=
  match f.conns.get? n with
  | none => (f, [])
  | some c =>
    if c.error.isNone || c.sendLeft = 0 then (f, [])
    else
      ({ f with
         conns := f.conns.set n { c with scidx := c.spidx, snext := c.spidx }, dbDrop := satAdd f.dbDrop c.sendLeft },
       [ringWrite c.cfg.sloc c.cfg.sfunc c.cfg.wbaddr (leBytes 4 c.spidx)])

/-- RING 0: a send ring's producer index (R497). In ERROR each later entry is discarded and counted, and the consumer index
passes it (R496). -/
def Fabric.sendBell (f : Fabric) (vf : Option Nat) (nbytes v : Nat) : Fabric × List FabEff :=
  let n := bellNum v
  match f.conns.get? n with
  | none => (f.dropBell, [])
  | some c =>
    if nbytes < 8 || !vfTakes vf (connHome n) then (f.dropBell, [])
    else
      ({ f with conns := f.conns.set n { c with spidx := bellIndex v % c.cfg.ssize } }).discardSends n

/-- Home partition of a receive ring (R492). -/
def ringHome (n : Nat) : Nat := n / 4096 % 16

/-- RING 1: a receive ring's producer index (R506). -/
def Fabric.recvBell (f : Fabric) (vf : Option Nat) (nbytes v : Nat) : Fabric :=
  let n := bellNum v % 65536
  match f.rings.get? n with
  | none => f.dropBell
  | some r =>
    if nbytes < 8 || !vfTakes vf (ringHome n) then f.dropBell
    else { f with rings := f.rings.set n { r with pidx := bellIndex v % r.size } }

/-- RING 2: an error ring's consumer index (R516). -/
def Fabric.errBell (f : Fabric) (vf : Option Nat) (nbytes v : Nat) : Fabric :=
  let n := bellNum v
  match f.conns.get? n with
  | none => f.dropBell
  | some c =>
    if nbytes < 8 || !vfTakes vf (connHome n) then f.dropBell
    else { f with conns := f.conns.set n { c with ec := bellIndex v % c.cfg.esize } }

/-- RING 3: a PD event ring's consumer index (R516); not taken in the BAR of a virtual function. -/
def Fabric.evBell (f : Fabric) (vf : Option Nat) (nbytes v : Nat) : Fabric :=
  let n := bellNum v % 65536
  match f.pds.get? n with
  | none => f.dropBell
  | some d =>
    if nbytes < 8 || vf.isSome then f.dropBell
    else { f with pds := f.pds.set n { d with c := bellIndex v % d.size } }

end Sys2Proof.Machine
end

