-- ==== Sys2Proof/Machine/Entry.lean ====
section
/-!
DEFINITION. Sys2Proof/Machine/Entry.lean: doorbells, the fetch of descriptors, and dispatch (chapters 03, 09, 14 and 15).
-/
namespace Sys2Proof.Machine

/-! ## ENTRY (R92 to R97, R298, R435) -/

/-- The bytes of `n` slots of a ring in the index address space, from a slot on. -/
def Pipe.ringSlots (p : Pipe) (e : AlmEntry) (slot n : Nat) : List Byte :=
  (List.range n).flatMap (fun i => p.iasRead (e.slotAddr (slot + i)) 128)

/-- Are these slots of such a ring in memory? -/
def Pipe.ringHere (p : Pipe) (e : AlmEntry) (slot n : Nat) : Bool :=
  (List.range n).all (fun i => p.iasReady (e.slotAddr (slot + i)) 128)

/-- Ask for the pages of these slots. -/
def Pipe.ringWant (p : Pipe) (e : AlmEntry) (slot n : Nat) : Pipe :=
  (List.range n).foldl (fun (p : Pipe) i => (p.want (e.slotAddr (slot + i)) 128).1) p

/-- Slots of the job at the head of a ring, and for a batch the slot of each record (R94, R298). -/
def Pipe.jobSlots (p : Pipe) (e : AlmEntry) (desc data : List Byte) : Nat × List Nat :=
  if e.kind = .isub then
    let b := decodeB desc
    let dim := p.dimOf b.dim b.index
    batchSlots dim (vfmtSize b.vfmt) data b.nrec 1 []
  else
    let d := decodeQ desc
    ((querySlots d (p.dimOf d.dim d.index)).1, [])

/-- The dimension that ENTRY fixes for a descriptor (R94, R298). -/
def Pipe.jobDim (p : Pipe) (e : AlmEntry) (desc : List Byte) : Nat :=
  if e.kind = .isub then (let b := decodeB desc; p.dimOf b.dim b.index)
  else (let d := decodeQ desc; p.dimOf d.dim d.index)

/-- The tag of a descriptor. -/
def AlmEntry.tagOf (e : AlmEntry) (desc : List Byte) : Nat := if e.kind = .isub then (decodeB desc).tag else (decodeQ desc).tag

/-- A job record for what stands at a slot of a queue (R99, R431). DEDUCED, log 134. -/
def Pipe.jobOf (p : Pipe) (q : Nat) (f : Fetched) : Job :=
  let e := p.queue q
  { Job.zero with
    batch := e.kind == .isub, home := queuePart q, queue := q, slot := f.slot, slots := f.slots, tag := e.tagOf f.desc,
    cq := if e.kind = .frecv then e.conn else queuePart q * 2 ^ 20 + e.cq, frecv := e.kind == .frecv, act := e.activity,
    d := decodeQ f.desc, b := decodeB f.desc, data := f.data, records := f.records, order := p.order }

/-- Give a job a context. -/
def Pipe.newJob (p : Pipe) (jb : Job) : Pipe × Nat :=
  ({ p with jobs := p.jobs.set p.nextJob jb, nextJob := p.nextJob + 1, order := p.order + 1 }, p.nextJob)

/-- A job that ends at ENTRY without dispatch (R125, R435). DEDUCED, log 132. -/
def Pipe.entryEnd (p : Pipe) (q : Nat) (f : Fetched) : Pipe :=
  let (p1, j) := p.newJob (p.jobOf q f)
  p1.endJobAt j stABORTED 0 none

/-- Aborted jobs at the head of a queue leave the ring (R125, R679). -/
def AlmEntry.dropAborted (e : AlmEntry) : Nat → AlmEntry
  | 0 => e
  | n + 1 => match e.fetched with
    | f :: rest => if f.aborted then { e with cidx := (e.cidx + f.slots) % e.size, fetched := rest }.dropAborted n else e
    | [] => e

/-- Pending aborts whose slots the consumer index of a queue has passed since it stood at `old` are dropped (R127). -/
def Pipe.passAborts (p : Pipe) (q old : Nat) : Pipe :=
  let e := p.queue q
  let n := (e.cidx + e.size - old % e.size) % e.size
  let keep := fun (a : Nat × Nat × Nat) => !(a.1 == q && decide ((a.2.1 + e.size - old % e.size) % e.size < n))
  p.modPart (queuePart q) (fun x => { x with alm := { x.alm with aborts := x.alm.aborts.filter keep } })

/-- The TAGs of the pending aborts that name a slot of a queue (R125, R127). -/
def Pipe.pendingTags (p : Pipe) (q slot : Nat) : List Nat :=
  ((p.part (queuePart q)).alm.aborts.filter (fun (a : Nat × Nat × Nat) => a.1 == q && a.2.1 == slot)).map (·.2.2)

/-- The pending aborts that name a slot are resolved at its fetch (R125). -/
def Pipe.dropPending (p : Pipe) (q slot : Nat) : Pipe :=
  p.modPart (queuePart q) (fun x =>
    { x with alm := { x.alm with aborts := x.alm.aborts.filter (fun (a : Nat × Nat × Nat) => !(a.1 == q && a.2.1 == slot)) } })

/-! ## Prefetch of later bags (R357, R381, R388, R389) -/

/-- A page is asked for when its partition's migration budget allows a prefetch; one that finds no frame is left. -/
def Pipe.prefetchPage (p : Pipe) (now : Nat) (pg : PageId) : Pipe :=
  let e := p.tier pg
  if e.st ≠ .flash || (p.part e.home).sched.short now 5 then p
  else match p.moveIn pg with
    | (_, .fail) => p
    | (p1, _) => p1.modPart e.home (fun q => { q with flash := { q.flash with
        reads := q.flash.reads.map (fun r => if r = .page pg false then .page pg true else r) } })

/-- The bag of a later descriptor: pages of its local rows and their scale entries. -/
def Pipe.prefetchBag (p : Pipe) (now : Nat) (d : QDesc) (data : List Byte) : Pipe :=
  match (p.etabHandles.get? d.etab).bind p.etabs.get? with
  | none => p
  | some t =>
    ((List.range d.nrows).flatMap (fun i =>
      match t.place (le32 data (4 * i)) with | .local_ k pc r => p.rowPages t k pc r | _ => [])).foldl
        (fun (p : Pipe) pg => p.prefetchPage now pg) p

/-- Up to `n` descriptors that follow in the ring's bytes, which reach to the producer index; the slots read in a ring of the index
address space count against migration in partition k, and nothing is read while its budget is short (R358, R459). -/
def Pipe.prefetch (p : Pipe) (now k : Nat) (e : AlmEntry) : Nat → List Byte → Pipe
  | 0, _ => p
  | n + 1, b =>
    if b.length < 128 || (p.part k).sched.short now 5 then p
    else
      let d := decodeQ (b.take 128)
      let slots := (p.jobSlots e (b.take 128) (b.drop 128)).1
      let bag := d.kind = 1 || d.kind = 2
      let p0 := if e.ias then p.count k 5 2 (128 * (if bag then 1 + ceilDiv (4 * d.nrows) 128 else 1)) else p
      let p1 := if bag then p0.prefetchBag now d (b.drop 128) else p0
      p1.prefetch now k e n (b.drop (128 * max slots 1))

/-- The prefetcher after the descriptor of a bag query has been read with `data` behind it. -/
def Pipe.prefetchLater (p : Pipe) (now q slots : Nat) (desc data : List Byte) : Pipe :=
  let e := p.queue q
  let kind := (decodeQ desc).kind
  if e.kind = .isub || !(kind = 1 || kind = 2) then p
  else p.prefetch now (queuePart q) e (min (p.part (queuePart q)).pfDepth 8) (data.drop (128 * (slots - 1)))

/-- The next job of a queue has been read whole: it is fetched, ends at ENTRY, waits for slots, or does not fit (R94,
R125, R298, R435). -/
def Pipe.entry (p : Pipe) (now q : Nat) (desc data : List Byte) : Pipe :=
  let k := queuePart q
  let e := p.queue q
  let slot := e.nextSlot
  let n := p.jobSlots e desc data
  let f : Fetched := { slot := slot, slots := n.1, dim := p.jobDim e desc, desc := padTo 128 desc,
                         data := padTo (128 * (n.1 - 1)) data, records := n.2, aborted := false }
  if n.1 > e.size - 1 then (p.entryEnd q f).queueError q
  else if n.1 > e.occupied - e.fetchedSlots then p
  else
    let pc := if e.ias || e.kind = .frecv then p.count k e.activity 2 (128 * n.1) else p
    let p0 := pc.prefetchLater now q n.1 desc (data.take (128 * (e.occupied - e.fetchedSlots - 1)))
    let p1 := p0.dropPending q slot
    if (p0.pendingTags q slot).contains (e.tagOf desc) then
      ((p1.entryEnd q f).modQueue q (fun e =>
        ({ e with fetched := e.fetched ++ [{ f with aborted := true }] }).dropAborted 65536)).passAborts q e.cidx
    else (p1.modQueue q (fun e => { e with fetched := e.fetched ++ [f] })).enlist q

/-- DESCRIPTOR_FETCH (R92 to R97, R298, R434, R435, R437): the next descriptor of queue q with its trailing data, from host
memory as given, or from the index address space, at counter value `now`. -/
def descriptorFetch (k q now : Nat) (desc data : Option (List Byte)) (p : Pipe) : Pipe :=
  if q / 2 ^ 20 ≠ k || k ≥ 16 || p.fenced k then p
  else
    let p1 := p.touchQueue q
    let e := p1.queue q
    if e.state ≠ .enabled || !e.isSub || e.occupied ≤ e.fetchedSlots then p
    else if e.ias || e.kind = .frecv then
      let left := e.occupied - e.fetchedSlots
      let slot := e.nextSlot
      if !p1.ringHere e slot left then p1.ringWant e slot left
      else match p1.readUnits ((List.range left).flatMap (fun i => p1.iasUnits (e.slotAddr (slot + i)) 128)) with
        | (p2, some _) => p2
        | (p2, none) =>
          let b := p2.ringSlots e slot left
          p2.entry now q (b.take 128) (b.drop 128)
    else match desc, data with
      | some d, some t => p1.entry now q d t
      | _, _ => p1.queueError q

/-- RING_ACCESS_ERROR (R437, R299): an access to a host ring of queue q ended in an error; `job` is the dispatched batch whose
record was being read, or 0. -/
def ringAccessError (k q job : Nat) (p : Pipe) : Pipe :=
  if q / 2 ^ 20 ≠ k || k ≥ 16 || p.fenced k || (p.queue q).ias || (p.queue q).kind = .frecv then p
  else
    let p1 := (p.touchQueue q).queueError q
    match p1.jobAt job .records with
    | some jb => if jb.queue = q && decide (jb.nextRec < jb.b.nrec) then p1.endJobAt job stABORTED 0 none else p1
    | none => p1

/-! ## Dispatch (R98, R102, R107, R108, R461, R464, R465) -/

/-- Zenith queries that run in the package (R107). -/
def Pipe.zeniths (p : Pipe) : Nat := (p.jobs.vals.filter (fun j => !j.batch && j.counted && j.mode == 1)).length

/-- Query contexts in use, and batches that the ingest engine holds, in partition k (R98, R464). -/
def Pipe.contexts (p : Pipe) (k : Nat) : Nat := (p.jobs.vals.filter (fun j => !j.batch && j.counted && j.home == k)).length
def Pipe.batches (p : Pipe) (k : Nat) : Nat :=
  (p.jobs.vals.filter (fun j => j.batch && j.counted && j.home == k && j.phase == .records)).length

/-- The mode of the query by R107, and whether rule 2 gave it. -/
def Pipe.modeOf (p : Pipe) (k now : Nat) (e : AlmEntry) (d : QDesc) : Nat × Bool :=
  let s := (p.part k).sched
  if d.mode = 2 then (2, false)
  else if e.activity = 0 && (s.shortIn now 0 2 || s.shortIn now 0 3) then (2, true)
  else if d.mode = 1 && p.zeniths < 8 then (1, false)
  else (0, false)

/-- The estimate of the next job of a queue (R461). -/
def Pipe.estOf (p : Pipe) (k now : Nat) (e : AlmEntry) : Nat :=
  match e.fetched with
  | [] => 1
  | f :: _ =>
    let s := (p.part k).sched
    if e.kind = .isub then
      let b := decodeB f.desc
      if p.handles.has b.index then (s.est b.index).record * b.nrec else 1
    else
      let d := decodeQ f.desc
      if !p.handles.has d.index then 1
      else match (p.modeOf k now e d).1 with
        | 1 => (s.est d.index).zenith
        | 2 => (s.est d.index).finder
        | _ => (s.est d.index).survey

/-- Is a ready queue held at its visit (R464, R477)? -/
def Pipe.heldQ (p : Pipe) (k now : Nat) (e : AlmEntry) : Bool :=
  let q := p.part k
  let s := q.sched
  let short := if e.activity = 1 then s.short now 1
    else s.shortIn now 0 0 || s.shortIn now 0 1 || (e.kind = .frecv && s.shortIn now 0 4)
  !s.gateOpen e.gate || short
    || (e.kind ≠ .isub && decide (p.contexts k ≥ 1024))
    || (e.kind = .isub && (decide (p.batches k ≥ 64) || q.ingestHold || p.ingestWaits k))

/-- The read epoch of a query (R97, R102), and whether it has expired. -/
def Pipe.epochOf (p : Pipe) (k : Nat) (d : QDesc) : Nat × Bool :=
  let pub := (p.part k).pub
  match d.epMode with
  | 1 => let e := min d.pinEpoch pub; (e, decide (e < p.oldestNow))
  | 2 => (p.oldestNow, false)
  | _ => (pub, false)

/-- A query begins (R97, R101, R102, R347); its vector is read with the dimension that ENTRY fixed. DEDUCED, log 133.
DEDUCED, log 168. -/
def Pipe.startQuery (p : Pipe) (k now : Nat) (q : Nat) (f : Fetched) (est : Nat) : Pipe :=
  let e := p.queue q
  let d := decodeQ f.desc
  let (mode, rule2) := p.modeOf k now e d
  let (epoch, expired) := p.epochOf k d
  let bag := d.kind ≠ 0
  let vec := (querySlots d f.dim).2
  let base := p.jobOf q f
  let jb := { base with
    counted := true, d := d, mode := mode, epoch := epoch, est := est, stage := 1, idx := p.loadOf d.index,
    etab := if bag then p.etabHandles.get? d.etab else none, ordered := (p.part k).ordered,
    metric := (match p.index d.index with | some x => metricOf d.metric x.desc.metric | none => 0), thresh := d.thresh,
    supplied := if d.kind = 1 then [] else supplied d.vfmt f.dim (f.data.drop vec),
    use := if e.ias || e.kind = .frecv then Use.zero.add 2 (128 * f.slots) else Use.zero, phase := .completing }
  let (p1, j) := p.newJob jb
  let p2 := if rule2 then p1.modPart k (fun x => { x with sched := { x.sched with finder := satAdd x.sched.finder 1 } }) else p1
  if expired then p2.endJobAt j stEXPIRED 1 none
  else if jb.idx.isNone then (p2.modJob j (fun y => { y with stage := 8 })).toCompletion j
  else if bag then p2.stageTo j 9 .bag
  else (p2.stageTo j 2 .derot).derotWait j

/-- A batch begins (R298, R299 table, R302), DIM as ENTRY fixed it. DEDUCED, log 133. -/
def Pipe.startBatch (p : Pipe) (q : Nat) (f : Fetched) (est : Nat) : Pipe :=
  let e := p.queue q
  let b := decodeB f.desc
  let jb := { p.jobOf q f with
    counted := true, b := { b with dim := f.dim }, est := est, stage := 1, idx := p.loadOf b.index,
    use := if e.ias then Use.zero.add 2 (128 * f.slots) else Use.zero, phase := .records }
  let (p1, j) := p.newJob jb
  if jb.idx.isNone then p1.endJobAt j stABORTED 1 none
  else if b.nrec = 0 then (p1.modJob j (fun y => { y with stage := 8 })).toCompletion j
  else p1

/-- Dispatch the next job of a queue (R434, R465): CIDX passes its slots, OUTST grows, and its estimate is paid. -/
def Pipe.dispatch (p : Pipe) (k now q : Nat) : Pipe :=
  let e := p.queue q
  match e.fetched with
  | [] => p
  | f :: rest =>
    let est := p.estOf k now e
    let p1 := if e.kind = .isub then p.startBatch q f est else p.startQuery k now q f est
    let p2 := (p1.modQueue q (fun e =>
      ({ e with
        cidx := (e.cidx + f.slots) % e.size, fetched := rest, outst := e.outst + 1,
        deficit := clampI 32 (e.deficit - est) }).dropAborted 65536)).passAborts q e.cidx
    if e.shaper = 0 then p2
    else p2.modPart k (fun x =>
      let s := x.sched.shaper e.shaper
      { x with sched := { x.sched with shapers := x.sched.shapers.set e.shaper { s with tokens := clampI 64 (s.tokens - 256 * est) } } })

/-- Has the queue's shaper tokens left (R465)? -/
def Pipe.hasTokens (p : Pipe) (k : Nat) (e : AlmEntry) : Bool :=
  e.shaper = 0 || decide (((p.part k).sched.shaper e.shaper).tokens > 0)

/-- The loop of R465; `fuel` bounds the jobs. -/
def Pipe.dispatchLoop (p : Pipe) (k now q : Nat) : Nat → Pipe
  | 0 => p
  | n + 1 =>
    let e := p.queue q
    if e.ready && !p.heldQ k now e && p.hasTokens k e && decide (e.deficit ≥ (p.estOf k now e : Int)) then
      (p.dispatch k now q).dispatchLoop k now q n
    else p

/-- The queue goes on the wheel (R469). -/
def Pipe.toWheel (p : Pipe) (k q t : Nat) : Pipe :=
  let e := p.queue q
  let elig := eligAt ((p.part k).sched.shaper e.shaper) t
  ((p.delist q).modQueue q (fun e => { e with onwheel := true, elig := elig })).modPart k (fun x =>
    { x with sched := x.sched.join q elig t })

/-- The queue moves to the tail of the active list. -/
def Pipe.toTail (p : Pipe) (k q : Nat) : Pipe :=
  p.modPart k (fun x => { x with sched := { x.sched with active := x.sched.active.erase q ++ [q] } })

/-- SCHED_VISIT (R465) at counter value `now`. -/
def schedVisit (k now : Nat) (p : Pipe) : Pipe :=
  if k ≥ 16 || p.fenced k then p
  else match (p.part k).sched.active with
    | [] => p
    | q :: _ =>
      let t := now / 1000
      let e := p.queue q
      let p1 := if e.shaper = 0 then p else p.modPart k (fun x =>
        { x with sched := { x.sched with shapers := x.sched.shapers.set e.shaper ((x.sched.shaper e.shaper).refill t) } })
      if p1.heldQ k now e then p1.toTail k q
      else if !p1.hasTokens k e then p1.toWheel k q t
      else
        let p2 := p1.modQueue q (fun e => { e with deficit := clampI 32 (e.deficit + e.quant) })
        let p3 := p2.dispatchLoop k now q (e.fetched.length + 1)
        let e3 := p3.queue q
        if !p3.hasTokens k e3 then p3.toWheel k q t
        else if !e3.ready then
          (p3.delist q).modQueue q (fun e =>
            if e.deficit > 0 && e.occupied = 0 then { e with deficit := 0 } else e)
        else p3.toTail k q

end Sys2Proof.Machine
end

