-- ==== Sys2Proof/Machine/QueueOps.lean ====
section
/-!
DEFINITION. Sys2Proof/Machine/QueueOps.lean: what changes an Almanac entry under its generation number: the queue commands
and the queue-control messages of peers, and the abort of a job (R124 to R127, R445 to R449, R522, R679).
-/
namespace Sys2Proof.Machine

/-! ## The entry as bytes (R429 tables) -/

def QKind.code : QKind → Nat
  | .qsub => 0 | .isub => 1 | .comp => 2 | .frecv => 3

def QState.code : QState → Nat
  | .free => 0 | .enabled => 1 | .paused => 2 | .draining => 3 | .error => 4

/-- KIND as it decodes. -/
def kindOf (v : Nat) : QKind :=
  match v with
  | 1 => .isub | 2 => .comp | 3 => .frecv | _ => .qsub

/-- The 64 bytes of an entry. -/
def AlmEntry.image (e : AlmEntry) : List Byte :=
  packBytes 48 [(3, e.kind.code), (3, e.state.code), (1, b2n e.ias), (1, b2n e.pf), (4, e.rszlog), (1, b2n e.ien), (3, 0),
    (11, e.msix), (5, 0), (16, e.gen), (16, 0), (64, e.base), (16, e.pidx), (16, e.cidx), (20, e.cq), (4, 0), (16, e.pd),
    (4, e.act), (4, e.gate), (16, e.maxout), (16, e.outst), (16, 0), (16, e.quantum), (32, twos 32 e.deficit), (16, e.shaper),
    (32, e.elig), (1, b2n e.onlist), (1, b2n e.onwheel), (30, 0)]
  ++ (match e.kind with
      | .comp => packBytes 16 [(64, e.rbbase), (4, e.rbszlog), (4, e.rbclog), (1, b2n e.cphase), (7, 0), (16, e.rbnext),
          (17, e.rbheld), (15, 0)]
      | .frecv => packBytes 16 [(18, e.conn), (14, 0), (32, e.rkey), (64, e.raddr)]
      | _ => List.replicate 16 0#8)

/-- The RO fields of an image that only QUE_CREATE writes (R448). -/
def AlmEntry.takeFixed (e : AlmEntry) (b : List Byte) : AlmEntry :=
  let k := kindOf (field b 0 3)
  let c := k = .comp
  { e with
    kind := k, ias := fbit b 6, pf := fbit b 7, rszlog := field b 8 4, base := le64 b 8,
    rbbase := if c then le64 b 48 else 0, rbszlog := if c then field b 448 4 else 0, rbclog := if c then field b 452 4 else 0 }

/-- The remaining RO fields of an image (R448). -/
def AlmEntry.takeRest (e : AlmEntry) (b : List Byte) : AlmEntry :=
  let f := e.kind = .frecv
  { e with
    ien := fbit b 12, msix := field b 16 11, cq := field b 160 20, pd := field b 184 16, act := field b 200 4,
    gate := field b 204 4, maxout := field b 208 16, quantum := field b 256 16, shaper := field b 304 16,
    conn := if f then field b 384 18 else e.conn, rkey := if f then field b 416 32 else e.rkey,
    raddr := if f then le64 b 56 else e.raddr }

/-! ## Changes under a generation number (R445 to R449) -/

/-- The queue's names on the active list and the wheel are taken away. -/
def Pipe.unlist (p : Pipe) (q : Nat) : Pipe :=
  let p1 := p.delist q
  (p1.modQueue q (fun e => { e with onwheel := false })).modPart (queuePart q) (fun k =>
    { k with sched := { k.sched with
      wheel := k.sched.wheel.mapv (fun l => l.filter (· ≠ q)), buckets := k.sched.buckets.mapv (fun l => l.filter (· ≠ q)) } })

/-- A change that carries a generation number (R445): status and the GEN that the response carries. `f` answers none when the
entry's state has no row for it; it must leave GEN alone. -/
def Pipe.almChange (p : Pipe) (q gen : Nat) (f : AlmEntry → Option AlmEntry) : Pipe × Nat × Nat :=
  let p1 := p.touchQueue q
  let e := p1.queue q
  if gen ≠ e.gen then (p1, stSTALE, e.gen)
  else match f e with
    | none => (p1, stBADSTATE, e.gen)
    | some e1 =>
      let g := (e.gen + 1) % 65536
      (p1.setQueue q { e1 with gen := g }, stOK, g)

/-- QUE_CREATE on the entry (R448). -/
def AlmEntry.create (e : AlmEntry) (paused : Bool) (b : List Byte) : Option AlmEntry :=
  if e.state ≠ .free then none
  else
    let e1 := (AlmEntry.zero.takeFixed b).takeRest b
    some { e1 with state := if paused then .paused else .enabled, gen := e.gen, cphase := true }

/-- QUE_MODIFY on the entry. DEDUCED, log 137. -/
def AlmEntry.modify (e : AlmEntry) (b : List Byte) : Option AlmEntry := if e.state = .free then none else some (e.takeRest b)

/-- QUE_PAUSE, QUE_RESUME, QUE_DESTROY and QUE_RESET on the entry. -/
def AlmEntry.pause (e : AlmEntry) : Option AlmEntry := if e.state = .enabled then some { e with state := .paused } else none
def AlmEntry.resume (e : AlmEntry) : Option AlmEntry := if e.state = .paused then some { e with state := .enabled } else none
def AlmEntry.destroy (e : AlmEntry) : Option AlmEntry :=
  if e.state = .enabled || e.state = .paused then
    some { e with state := if e.outst = 0 then .free else .draining, fetched := [] }
  else none
def AlmEntry.reset (e : AlmEntry) : Option AlmEntry :=
  if e.state = .free then none else some { e with state := .free, fetched := [] }

/-- QUE_CREATE. -/
def Pipe.queCreate (p : Pipe) (q gen : Nat) (paused : Bool) (b : List Byte) : Pipe × Nat × Nat :=
  let r := p.almChange q gen (fun e => e.create paused b)
  (if r.2.1 = stOK then (r.1.unlist q, r.2) else r)

/-- QUE_MODIFY. -/
def Pipe.queModify (p : Pipe) (q gen : Nat) (b : List Byte) : Pipe × Nat × Nat := p.almChange q gen (fun e => e.modify b)

/-- QUE_PAUSE: the queue is no longer ready. -/
def Pipe.quePause (p : Pipe) (q gen : Nat) : Pipe × Nat × Nat :=
  let r := p.almChange q gen AlmEntry.pause
  (if r.2.1 = stOK then (r.1.delist q, r.2) else r)

/-- QUE_RESUME: a queue that becomes ready joins the active list. -/
def Pipe.queResume (p : Pipe) (q gen : Nat) : Pipe × Nat × Nat :=
  let r := p.almChange q gen AlmEntry.resume
  (if r.2.1 = stOK then (r.1.enlist q, r.2) else r)

/-- QUE_DESTROY. -/
def Pipe.queDestroy (p : Pipe) (q gen : Nat) : Pipe × Nat × Nat :=
  let r := p.almChange q gen AlmEntry.destroy
  (if r.2.1 = stOK then (r.1.unlist q, r.2) else r)

/-- The completion entries that wait to be written to a COMP queue are discarded and counted (R449, R450). -/
def Pipe.dropComps (p : Pipe) (q : Nat) : Pipe :=
  let js := p.jobs.filter (fun j => j.2.phase == .completing && !j.2.frecv && j.2.peer.isNone && !j.2.void && j.2.cq == q)
  js.foldl (fun (p : Pipe) x =>
    ((p.modPart x.2.home (fun k => { k with alm := { k.alm with orphan := satAdd k.alm.orphan 1 } })).trueUp x.2).retire x.1) p

/-- QUE_RESET (R449): dispatched jobs of a submission queue are marked for abort; entries that wait for a COMP queue are
discarded. DEDUCED, log 138. -/
def Pipe.queReset (p : Pipe) (q gen : Nat) : Pipe × Nat × Nat :=
  let kind := (p.queue q).kind
  let r := p.almChange q gen AlmEntry.reset
  if r.2.1 ≠ stOK then r
  else
    let p1 := r.1.unlist q
    if kind = .qsub || kind = .isub then
      (((p1.jobs.filter (fun j => j.2.queue == q && j.2.peer.isNone)).map Prod.fst).foldl Pipe.markAbort p1, r.2)
    else if kind = .comp then (p1.dropComps q, r.2)
    else (p1, r.2)

/-! ## Aborts (R124 to R127, R679) -/

/-- QRY_ABORT and the ABORT message of a peer: the status, and a retry hint. A slot that a later descriptor holds again may
still have a job in flight: the job whose TAG matches is meant. DEDUCED, log 172. -/
def Pipe.abortJob (p : Pipe) (q slot tag : Nat) : Pipe × Nat × Nat :=
  let k := queuePart q
  let e := p.queue q
  match p.jobs.find? (fun j => j.2.queue == q && j.2.slot == slot && j.2.peer.isNone && j.2.tag == tag) with
  | some (n, j) =>
    if j.batch && j.counted then (p, stTOOLATE, 0)
    else (p.markAbort n, stOK, 0)
  | none =>
    if !e.isSub || e.state = .free then (p, stTOOLATE, 0)
    else match e.fetched.find? (fun f => f.slot == slot && !f.aborted) with
      | some f =>
        if e.tagOf f.desc ≠ tag then (p, stTOOLATE, 0)
        else
          (((p.entryEnd q f).modQueue q (fun e =>
            ({ e with fetched := e.fetched.map (fun (x : Fetched) => if x.slot = slot then { x with aborted := true } else x) }).dropAborted
              65536)).passAborts q e.cidx, stOK, 0)
      | none =>
        let d := (slot + e.size - e.cidx % e.size) % e.size
        if slot ≥ e.size || d ≥ e.occupied || d < e.fetchedSlots then (p, stTOOLATE, 0)
        else if (p.part k).alm.aborts.length ≥ 16 then (p, stBUSY, 10)
        else (p.modPart k (fun x => { x with alm := { x.alm with aborts := x.alm.aborts ++ [(q, slot, tag)] } }), stOK, 0)

/-! ## Queue control by peers (R521, R522) -/

/-- A MODIFY message changes four fields. -/
def AlmEntry.qctlModify (e : AlmEntry) (b : List Byte) : Option AlmEntry :=
  if e.state = .free then none
  else some { e with quantum := le16 b 8, shaper := le16 b 10, gate := field b 96 4, maxout := le16 b 14 }

/-- Apply a QCTL message (R445, R521, R522): the status and GEN of the reply. A change that the entry's state has no row for
changes nothing and is answered as a stale one. DEDUCED, log 137. -/
def Pipe.qctl (p : Pipe) (b : List Byte) : Pipe × Nat × Nat :=
  let q := field b 0 24
  let gen := le16 b 4
  let fix := fun (r : Pipe × Nat × Nat) => if r.2.1 = stBADSTATE then (r.1, stSTALE, r.2.2) else r
  match field b 48 8 with
  | 1 => fix (p.almChange q gen (fun e => e.qctlModify b))
  | 2 => fix (p.quePause q gen)
  | 3 => fix (p.queResume q gen)
  | _ => (p.touchQueue q, stOK, (p.queue q).gen)

end Sys2Proof.Machine
end

