-- ==== Sys2Proof/Machine/Registers.lean ====
section
/-!
DEFINITION. Sys2Proof/Machine/Registers.lean: the BAR0 register map (R663 to R675) and the rows that read or write a
register.
-/
namespace Sys2Proof.Machine

/-! ## The map -/

/-- Does BAR0 answer: the link trained, out of reset and not in the safe state (R670)? -/
def State.reach (s : State) : Bool := s.pcie.trained && s.boot.stage ≠ .reset && !s.fcu.safe

/-- A bit mask of a test on the partitions. -/
def partMask (f : Nat → Bool) : Nat := ((List.range 16).map (fun k => b2n (f k) * 2 ^ k)).foldl (· + ·) 0

/-- FCU_FENCED (R580). -/
def State.fencedReg (s : State) : Nat :=
  partMask s.pipe.fenced +
    2 ^ 16 * partMask (fun k => (s.pipe.part k).st = .fencing || (s.pipe.part k).st = .unfencing)

/-- INT_STAT (R671 table). -/
def State.intStat (s : State) : Nat :=
  b2n s.fcu.alert + 2 * b2n s.pwr.trip + 4 * b2n s.flush.holdup
    + 8 * ((List.range 17).map (fun m => b2n ((s.mailbox m).rsPidx != (s.mailbox m).rsCidx) * 2 ^ m)).foldl (· + ·) 0

/-- FLS_HOLDSTAT and FLS_LASTFLUSH (R425 tables). -/
def Flush.stat (f : Flush) : Nat :=
  (match f.state with | .idle => 0 | .flushing => 1 | .done => 2) + 4 * b2n f.holdup + 2 ^ 8 * f.alarms.toNat
def Flush.last (f : Flush) : Nat := f.lastOutcome + 2 ^ 8 * f.lastAlarms.toNat

/-- A register of partition k's power domain (R669), by block offset. -/
def State.partReg (s : State) (off : Nat) : Option (Nat × Nat) :=
  let q := fun k => s.pipe.part k
  let k4 := fun (base : Nat) => (off - base) / 4
  let inR := fun (base n : Nat) => decide (base ≤ off) && decide (off < base + n)
  if inR 0x5000 128 then
    let k := (off - 0x5000) / 8
    some (k, if (off - 0x5000) % 8 = 0 then (q k).ueBits.toNat % 2 ^ 32 else (q k).ueBits.toNat / 2 ^ 32)
  else if inR 0x5100 64 then some (k4 0x5100, (q (k4 0x5100)).ce.toNat)
  else if inR 0x5200 64 then some (k4 0x5200, (q (k4 0x5200)).trapCnt.toNat)
  else if inR 0x5240 64 then some (k4 0x5240, (q (k4 0x5240)).trapCause.toNat)
  else if inR 0x6100 64 then some (k4 0x6100, (q (k4 0x6100)).flash.ue.toNat)
  else if inR 0x7000 64 then some (k4 0x7000, (q (k4 0x7000)).alm.dbdrop.toNat)
  else if inR 0x7040 64 then some (k4 0x7040, (q (k4 0x7040)).alm.orphan.toNat)
  else if inR 0x7080 64 then some (k4 0x7080, (q (k4 0x7080)).alm.miss.toNat)
  else if inR 0x8000 64 then some (k4 0x8000, (q (k4 0x8000)).sched.shortReg s.mer.now)
  else if inR 0x8040 64 then some (k4 0x8040, (q (k4 0x8040)).sched.finder.toNat)
  else if inR 0x8080 64 then some (k4 0x8080, (q (k4 0x8080)).sched.forgive.toNat)
  else none

/-- A word of a mailbox block (R549 tables); write-only registers read 0. -/
def State.mbxReg (s : State) (m o : Nat) : Nat :=
  let b := s.mailbox m
  match o with
  | 0x00 => b.rqLo.toNat
  | 0x04 => b.rqHi.toNat
  | 0x08 => b.rsLo.toNat
  | 0x0C => b.rsHi.toNat
  | 0x10 => b.cfg
  | 0x18 => b.stat s.coel.state.code
  | 0x1C => b.rsPidx
  | _ => 0

/-- The number that a 32-bit register at an aligned offset of BAR0 reads (R663, R664, R669). -/
def State.regVal (s : State) (off : Nat) : Nat :=
  match s.partReg off with
  | some (k, v) => if s.pipe.fenced k then 0 else v
  | none =>
    if 0x0210 ≤ off && off < 0x0240 then le32 s.boot.digest (off - 0x0210)
    else if 0x4000 ≤ off && off < 0x4040 then (s.fcu.word ((off - 0x4000) / 4)).toNat
    else if 0x4100 ≤ off && off < 0x4130 then
      match s.d2d[(off - 0x4100) / 4]? with | some l => l.reg | none => 0
    else if 0x9100 ≤ off && off < 0x9180 then s.fab.linkReg ((off - 0x9100) / 4) s.quiet
    else if 0xA000 ≤ off && off < 0xA440 then s.mbxReg ((off - 0xA000) / 64) ((off - 0xA000) % 64)
    else if 0x20000 ≤ off && off < 0x20010 then (s.dbg.scratch.getD ((off - 0x20000) / 4) 0).toNat
    else match off with
      | 0x0000 => 0x0002B1C1
      | 0x0004 => if s.variant64 then 0x00201804 else 0x00200804
      | 0x0008 => 1
      | 0x000C => 0x1616
      | 0x0100 => s.intStat
      | 0x0200 => s.boot.stat
      | 0x0204 => s.boot.version
      | 0x3000 => s.mer.now % 2 ^ 32
      | 0x3004 => s.mer.nowHi.toNat
      | 0x3008 => s.mer.stat
      | 0x300C => s.mer.cfg
      | 0x3010 => s.mer.pub % 2 ^ 32
      | 0x3014 => s.mer.pubHi.toNat
      | 0x3018 => s.mer.armed
      | 0x301C => s.mer.lateCnt.toNat
      | 0x3020 => s.mer.skipCnt.toNat
      | 0x4040 => s.fcu.summary
      | 0x4044 => s.fencedReg
      | 0x4200 => s.pwr.limStat
      | 0x6000 => s.flush.stat
      | 0x6004 => s.flush.last
      | 0x9200 => s.fab.rnr.toNat
      | 0x9204 => s.fab.badPkt.toNat
      | 0x9208 => s.fab.authFail.toNat
      | 0x920C => s.fab.evDrop.toNat
      | 0x9210 => s.fab.orphan.toNat
      | 0x9214 => s.fab.dbDrop.toNat
      | 0xA800 => s.coel.state.code + 8 * b2n s.coel.dpen
      | 0xA804 => s.coel.wdcnt.toNat
      | 0xB000 => s.sb.func.toNat
      | 0xB004 => s.sb.out.toNat
      | 0xB008 => s.sb.oe.toNat
      | 0xB00C => s.sb.gpioIn
      | 0x20010 => b2n s.dbg.injEn
      | 0x20018 => s.dbg.ir.toNat + 2 ^ 8 * b2n (s.dbg.ext && s.pwr.perst)
      | _ => 0

/-- What a read of the register at an offset returns (R663, R670): all ones while BAR0 does not answer.
DEDUCED, log 18. DEDUCED, log 19. -/
def readReg (s : State) (off : Nat) : W32 :=
  if s.reach then BitVec.ofNat 32 (s.regVal off) else 0xFFFFFFFF#32

/-- A 4-byte read is performed: the value returned, then the read's side effect (R24).
DESIGN CHOICE, log 16. DEDUCED, log 18. DEDUCED, log 19. -/
def State.doRead (s : State) (off : Nat) (after : State → State) : State :=
  let s1 := { s with reads := s.reads ++ [⟨off, readReg s off⟩] }
  if s.reach then after s1 else s1

/-- A read of an RC register of partition k (R24, R669). DESIGN CHOICE, log 16. -/
def State.readPart (s : State) (base k : Nat) (clear : Part → Part) : State :=
  s.doRead (base + 4 * (k % 16)) (fun s =>
    if s.pipe.fenced (k % 16) then s else { s with pipe := s.pipe.modPart (k % 16) clear })

/-- A write that BAR0 takes. -/
def State.doWrite (s : State) (f : State → State) : State := if s.reach then f s else s

/-! ## Meridian registers (R89) -/

/-- MER_NOW_LO: the low half returned, the high half latched. -/
def execMerNowLo (s : State) : Host.Outcome State Fault Refusal :=
  .next (s.doRead 0x3000 (fun s => { s with mer := { s.mer with nowHi := BitVec.ofNat 32 (s.mer.now / 2 ^ 32) } }))

/-- MER_PUB_LO: the low half returned, the high half latched. -/
def execMerPubLo (s : State) : Host.Outcome State Fault Refusal :=
  .next (s.doRead 0x3010 (fun s => { s with mer := { s.mer with pubHi := BitVec.ofNat 32 (s.mer.pub / 2 ^ 32) } }))

/-- MER_STAT: W1C. -/
def execMerStat (v : W32) (s : State) : Host.Outcome State Fault Refusal :=
  .next (s.doWrite (fun s => { s with mer := s.mer.statW1c v.toNat }))

/-- MER_LATE_CNT: read and cleared. -/
def execMerLateCnt (s : State) : Host.Outcome State Fault Refusal :=
  .next (s.doRead 0x301C (fun s => { s with mer := { s.mer with lateCnt := 0 } }))

/-- MER_SKIP_CNT: read and cleared. -/
def execMerSkipCnt (s : State) : Host.Outcome State Fault Refusal :=
  .next (s.doRead 0x3020 (fun s => { s with mer := { s.mer with skipCnt := 0 } }))

/-! ## Fault and partition registers -/

/-- FCU_STATw: W1C; a bit whose cause holds sets again in the next CD_AON cycle, and its reaction is performed (R590,
R591). DEDUCED, log 70. -/
def execFcuStat (w : Nat) (v : W32) (s : State) : Host.Outcome State Fault Refusal :=
  .next (s.doWrite (fun s =>
    let s1 := { s with fcu := s.fcu.w1c (w % 16) v }
    (s1.raise (s1.holding.filter (fun x => x / 32 == w % 16))).settle))

/-- NBU_UEk_LO or NBU_UEk_HI: W1C (R213, R669). -/
def execNbuUe (k : Nat) (hi : Bool) (v : W32) (s : State) : Host.Outcome State Fault Refusal :=
  .next (s.doWrite (fun s =>
    if s.pipe.fenced (k % 16) then s
    else { s with pipe := s.pipe.modPart (k % 16) (fun q =>
      { q with ueBits := q.ueBits &&& ~~~(v.setWidth 64 <<< (if hi then 32 else 0)) }) }))

/-- NBU_CEk: read and cleared. -/
def execNbuCe (k : Nat) (s : State) : Host.Outcome State Fault Refusal :=
  .next (s.readPart 0x5100 k (fun q => { q with ce := 0 }))

/-- NBU_TRAPCNTk: read and cleared. -/
def execNbuTrapcnt (k : Nat) (s : State) : Host.Outcome State Fault Refusal :=
  .next (s.readPart 0x5200 k (fun q => { q with trapCnt := 0 }))

/-- NBU_TRAPCAUSEk: W1C. -/
def execNbuTrapcause (k : Nat) (v : W32) (s : State) : Host.Outcome State Fault Refusal :=
  .next (s.doWrite (fun s =>
    if s.pipe.fenced (k % 16) then s
    else { s with pipe := s.pipe.modPart (k % 16) (fun q => { q with trapCause := q.trapCause &&& ~~~v }) }))

/-- FLS_HOLDSTAT: W1C of ALARMS, bits 8 to 15 (R425). -/
def execFlsHoldstat (v : W32) (s : State) : Host.Outcome State Fault Refusal :=
  .next (s.doWrite (fun s =>
    { s with flush := { s.flush with alarms := s.flush.alarms &&& ~~~(v.extractLsb' 8 8) } }))

/-- FLS_UEk: read and cleared. -/
def execFlsUe (k : Nat) (s : State) : Host.Outcome State Fault Refusal :=
  .next (s.readPart 0x6100 k (fun q => { q with flash := { q.flash with ue := 0 } }))

/-- ALM_DBDROPk: read and cleared. -/
def execAlmDbdrop (k : Nat) (s : State) : Host.Outcome State Fault Refusal :=
  .next (s.readPart 0x7000 k (fun q => { q with alm := { q.alm with dbdrop := 0 } }))

/-- ALM_ORPHANk: read and cleared. -/
def execAlmOrphan (k : Nat) (s : State) : Host.Outcome State Fault Refusal :=
  .next (s.readPart 0x7040 k (fun q => { q with alm := { q.alm with orphan := 0 } }))

/-- ALM_MISSk: read and cleared. -/
def execAlmMiss (k : Nat) (s : State) : Host.Outcome State Fault Refusal :=
  .next (s.readPart 0x7080 k (fun q => { q with alm := { q.alm with miss := 0 } }))

/-- SCH_FINDERk: read and cleared. -/
def execSchFinder (k : Nat) (s : State) : Host.Outcome State Fault Refusal :=
  .next (s.readPart 0x8040 k (fun q => { q with sched := { q.sched with finder := 0 } }))

/-- SCH_FORGIVEk: read and cleared. -/
def execSchForgive (k : Nat) (s : State) : Host.Outcome State Fault Refusal :=
  .next (s.readPart 0x8080 k (fun q => { q with sched := { q.sched with forgive := 0 } }))

/-! ## Fabric and Coelostat registers -/

/-- FAB_LINKn: W1C of DOWNEV, bit 7 (R488). -/
def execFabLink (n : Nat) (v : W32) (s : State) : Host.Outcome State Fault Refusal :=
  .next (s.doWrite (fun s =>
    { s with fab := s.fab.modLink (n % 32) (fun l => { l with downEv := l.downEv && !v.getLsbD 7 }) }))

/-- BFT_RNR: read and cleared. -/
def execBftRnr (s : State) : Host.Outcome State Fault Refusal :=
  .next (s.doRead 0x9200 (fun s => { s with fab := { s.fab with rnr := 0 } }))

/-- BFT_BADPKT: read and cleared. -/
def execBftBadpkt (s : State) : Host.Outcome State Fault Refusal :=
  .next (s.doRead 0x9204 (fun s => { s with fab := { s.fab with badPkt := 0 } }))

/-- BFT_AUTHFAIL: read and cleared. -/
def execBftAuthfail (s : State) : Host.Outcome State Fault Refusal :=
  .next (s.doRead 0x9208 (fun s => { s with fab := { s.fab with authFail := 0 } }))

/-- BFT_EVDROP: read and cleared. -/
def execBftEvdrop (s : State) : Host.Outcome State Fault Refusal :=
  .next (s.doRead 0x920C (fun s => { s with fab := { s.fab with evDrop := 0 } }))

/-- BFT_ORPHAN: read and cleared. -/
def execBftOrphan (s : State) : Host.Outcome State Fault Refusal :=
  .next (s.doRead 0x9210 (fun s => { s with fab := { s.fab with orphan := 0 } }))

/-- BFT_DBDROP: read and cleared. -/
def execBftDbdrop (s : State) : Host.Outcome State Fault Refusal :=
  .next (s.doRead 0x9214 (fun s => { s with fab := { s.fab with dbDrop := 0 } }))

/-- COEL_WDCNT: read and cleared. -/
def execCoelWdcnt (s : State) : Host.Outcome State Fault Refusal :=
  .next (s.doRead 0xA804 (fun s => { s with coel := { s.coel with wdcnt := 0 } }))

/-! ## Mailbox registers (R549, R550) -/

/-- MBX_CFG of mailbox m: EN and SZLOG under R550. -/
def execMbxCfg (m : Nat) (v : W32) (s : State) : Host.Outcome State Fault Refusal :=
  .next (s.doWrite (fun s => s.modMbx m (fun b => b.writeCfg v.toNat)))

/-- MBX_DOORBELL of mailbox m (R549). -/
def execMbxDoorbell (m : Nat) (v : W32) (s : State) : Host.Outcome State Fault Refusal :=
  .next (s.doWrite (fun s => s.modMbx m (fun b => b.doorbell v.toNat)))

/-- MBX_STAT of mailbox m: W1C of RINGERR and EVLOST. -/
def execMbxStat (m : Nat) (v : W32) (s : State) : Host.Outcome State Fault Refusal :=
  .next (s.doWrite (fun s => s.modMbx m (fun b =>
    { b with ringErr := b.ringErr && !v.getLsbD 10, evLost := b.evLost && !v.getLsbD 11 })))

/-! ## Sideband, debug and the other writes -/

/-- SB_FUNC (R651). -/
def execSbFunc (v : W32) (s : State) : Host.Outcome State Fault Refusal :=
  .next (s.doWrite (fun s => { s with sb := s.sb.writeFunc v }))

/-- The inert interval of pin n ends (R651). -/
def execSbInertEnd (n : Nat) (s : State) : Host.Outcome State Fault Refusal :=
  .next { s with sb := s.sb.endInert n }

/-- DBG_INJECT (R673). DESIGN CHOICE, log 39. -/
def execDbgInject (v : W32) (s : State) : Host.Outcome State Fault Refusal :=
  .next (s.doWrite (fun s => if s.dbg.injEn then (s.raise [v.toNat % 512]).settle else s))

/-- A 4-byte write to an RW register without a row of its own (R550, R652, R663); no other offset takes one. -/
def State.writeRW (s : State) (off : Nat) (v : W32) : State :=
  if 0xA000 ≤ off && off < 0xA440 then
    let m := (off - 0xA000) / 64
    if (s.mailbox m).en then s
    else match (off - 0xA000) % 64 with
      | 0x00 => s.modMbx m (fun b => { b with rqLo := v })
      | 0x04 => s.modMbx m (fun b => { b with rqHi := v })
      | 0x08 => s.modMbx m (fun b => { b with rsLo := v })
      | 0x0C => s.modMbx m (fun b => { b with rsHi := v })
      | _ => s
  else if 0x20000 ≤ off && off < 0x20010 then
    { s with dbg := { s.dbg with scratch := setNth s.dbg.scratch ((off - 0x20000) / 4) v } }
  else match off with
    | 0xB004 => { s with sb := { s.sb with out := v.setWidth 16 } }
    | 0xB008 => { s with sb := { s.sb with oe := v.setWidth 16 } }
    | 0x20010 => { s with dbg := { s.dbg with injEn := v.getLsbD 0 } }
    | _ => s

/-- The offset in BAR0 of an offset of a function's window (R540): the PF's own, or the mailbox block of a VF. -/
def windowOff (func off : Nat) : Option Nat :=
  if func = 0 then some off
  else if 0xA000 ≤ off && off < 0xA020 then some (0xA000 + 64 * func + (off - 0xA000))
  else none

/-- REGISTER_WRITE (R663 to R666): aligned writes of 4 and 8 bytes, the lower register first; any other has no effect, but that
the doorbells it covers count it. -/
def execRegisterWrite (func off size : Nat) (v : W64) (s : State) : Host.Outcome State Fault Refusal :=
  .next (s.doWrite (fun s =>
    if func > 16 || func ≠ 0 && !s.pcie.vfEnable then s
    else if size ≠ 8 && !(bellsAt func off size).isEmpty || size = 8 && off % 8 ≠ 0 then
      (bellsAt func off size).foldl State.shortBell s
    else if size ≠ 4 && size ≠ 8 || off % size ≠ 0 then s
    else match windowOff func off with
      | none => s
      | some o =>
        let s1 := s.writeRW o (v.setWidth 32)
        if size = 8 then s1.writeRW (o + 4) ((v >>> 32).setWidth 32) else s1))

/-- TAP_INSTRUCTION (R654): an instruction is loaded; `ext` says that it is an EXTEST form. DESIGN CHOICE, log 80. -/
def execTapInstruction (ir : BitVec 8) (ext : Bool) (s : State) : Host.Outcome State Fault Refusal :=
  .next { s with dbg := { s.dbg with ir := ir, ext := ext } }

/-- TAP_RESET (R654): the instruction register returns to IDCODE. -/
def execTapReset (s : State) : Host.Outcome State Fault Refusal :=
  .next { s with dbg := { s.dbg with ir := 0x01#8, ext := false } }

end Sys2Proof.Machine
end

