-- ==== Sys2Proof/Machine/Time.lean ====
section
/-!
DEFINITION. Sys2Proof/Machine/Time.lean: the Meridian rows: the counter, its sources, PTP, and the events of one counter
value in the order of R87 (chapters 02 and 15).
-/
namespace Sys2Proof.Machine

/-! ## What is owed at the present counter value (R59, R87) -/

/-- The Meridian block is out of reset (R90, R91). -/
def State.merRuns (s : State) : Bool := s.boot.stage ≠ .reset

/-- Transit takeovers that are due in an unfenced partition (R63, R474). -/
def State.takeoverDue (s : State) : Bool :=
  s.mer.performs && (List.range 16).any (fun k => !s.pipe.fenced k && !((s.pipe.part k).sched.due s.mer.now).isEmpty)

/-- The current transit list of an unfenced partition has entered another window (R473). -/
def State.boundaryDue (s : State) : Bool :=
  (List.range 16).any (fun k =>
    let q := (s.pipe.part k).sched
    !s.pipe.fenced k && q.window != q.current.windowAt s.mer.now)

/-- An activation window is due (R636): at once, or at its instant while the Meridian state performs it. -/
def State.windowDue (s : State) : Bool :=
  s.coel.state = .ready &&
    (s.boot.openNow ||
      (match s.boot.window with
       | some (t, wrote) => s.mer.performs && decide (t ≤ s.mer.now) && decide (wrote < s.mer.now)
       | none => false))

/-- A queue of an unfenced partition has reached its eligibility time on the wheel, or its bucket the time to move into the
slots (R53, R470). -/
def State.wheelDue (s : State) : Bool :=
  (List.range 16).any (fun k =>
    let q := (s.pipe.part k).sched
    !s.pipe.fenced k &&
      (q.wheel.vals.flatten.any (fun n => decide ((s.pipe.queue n).elig ≤ s.mer.now / 1000)) ||
       q.buckets.vals.flatten.any (fun n => decide ((s.pipe.queue n).elig / 4096 ≤ s.mer.now / 1000 / 4096))))

/-- How far the events of the present counter value have come in the order of R87: 1 a change of state is owed, 2 the
watch end, 3 takeovers and window boundaries, 4 publications, 5 the activation window, 6 the calendar wheel (R53), 7 dispatch. While the package
does not work, nothing but a change of state is owed (R131, R423, R596). DEDUCED, log 5. DESIGN CHOICE, log 6. -/
def State.owed (s : State) : Nat :=
  if s.mer.limitDue || s.mer.syncLossOverdue then 1
  else if !s.works then 7
  else if s.mer.watchDue then 2
  else if s.takeoverDue || s.boundaryDue then 3
  else if s.mer.publishDue then 4
  else if s.windowDue then 5
  else if s.wheelDue then 6
  else 7

/-! ## The counter and its sources -/

/-- COUNTER_ADVANCE (R58, R61): one tick, once the events of the present value have been performed. DEDUCED, log 5. -/
def execCounterAdvance (s : State) : Host.Outcome State Fault Refusal :=
  .next (if s.merRuns && s.owed = 7 then { s with mer := s.mer.tick } else s)

/-- PULSE_EDGE (R55 to R62, R64). -/
def execPulseEdge (s : State) : Host.Outcome State Fault Refusal :=
  .next (if s.merRuns then { s with mer := s.mer.pulse } else s)

/-- MER_CLK_LOSS (R64, R65, R70): fault source 256. A block in reset only finds no clock when it leaves it. -/
def execMerClkLoss (s : State) : Host.Outcome State Fault Refusal :=
  .next (if !s.merRuns then { s with mer := { s.mer with clkOk := false } }
    else if s.mer.clkOk then ({ s with mer := s.mer.clkLoss }.raise [256]).settle else s)

/-- MER_SYNC_LOSS (R64, R65, R70): fault source 257. -/
def execMerSyncLoss (s : State) : Host.Outcome State Fault Refusal :=
  .next (if s.merRuns && s.mer.syncLossDue then ({ s with mer := s.mer.syncLoss }.raise [257]).settle else s)

/-- HOLD_LIMIT (R64, R68, R70): fault source 258. -/
def execHoldLimit (s : State) : Host.Outcome State Fault Refusal :=
  .next (if s.merRuns && s.mer.limitDue then ({ s with mer := s.mer.holdLimit }.raise [258]).settle else s)

/-- MER_CLK_RETURN (R64): also while the block is in reset, which the clock outlasts. -/
def execMerClkReturn (s : State) : Host.Outcome State Fault Refusal :=
  .next { s with mer := s.mer.clkReturn }

/-! ## PTP (R71 to R74) -/

/-- The first link of the port that PTP uses (R71). -/
def State.ptpLink (s : State) : Nat := 4 * s.mer.ptpPort

/-- A received PTP frame is counted on its link and handed to the slave; on any other link than the one that PTP uses it is
discarded and counted as no BFT packet (R71, R487). -/
def State.onPtp (s : State) (port domain : Nat) (unlisted : Bool) (f : Meridian → Meridian) : State :=
  if !s.merRuns then s
  else
    let s1 := { s with fab := s.fab.modLink (4 * port) (fun l => { l with rx := l.rx + 1 }) }
    if !s.mer.ptpEn || port ≠ s.mer.ptpPort then { s1 with fab := { s1.fab with badPkt := satAdd s1.fab.badPkt 1 } }
    else if s.mer.takesPtp port domain unlisted then { s1 with mer := f s1.mer }
    else s1

/-- PTP_SYNC (R71, R73): a one-step Sync carries its origin time; a two-step one waits for its Follow_Up. One whose interval
is not accepted is discarded. DESIGN CHOICE, log 45. -/
def execPtpSync (port domain : Nat) (head : PtpHead) (twoStep : Bool) (seqNo t1 sub : Nat) (s : State) :
    Host.Outcome State Fault Refusal :=
  .next (s.onPtp port domain (head.unlisted || !syncIntervalOk head.interval) (fun m =>
    if !m.fromMaster head.source then m
    else if twoStep then { m with ptp := { m.ptp with sync := some (m.ptpTime sub, seqNo) } }
    else m.syncPair t1 (m.ptpTime sub)))

/-- PTP_ANNOUNCE (R71): the data set of a sender replaces its former one. -/
def execPtpAnnounce (port domain : Nat) (head : PtpHead) (rank : List Nat) (s : State) :
    Host.Outcome State Fault Refusal :=
  .next (s.onPtp port domain head.unlisted (fun m =>
    { m with ptp := { m.ptp with masters := (m.ptp.masters.filter (fun a => a.source ≠ head.source)) ++ [⟨rank, head.source⟩] } }))

/-- PTP_DELAY_RESP (R71): the mean path delay of (t2 - t1) and (t4 - t3). -/
def execPtpDelayResp (port domain : Nat) (head : PtpHead) (t4 : Nat) (s : State) : Host.Outcome State Fault Refusal :=
  .next (s.onPtp port domain head.unlisted (fun m =>
    match m.fromMaster head.source, m.ptp.last, m.ptp.req with
    | true, some (t1, t2), some t3 =>
      { m with ptp := { m.ptp with req := none, delay := (((t2 : Int) - t1) + ((t4 : Int) - t3)) / 2 } }
    | _, _, _ => m))

/-- ANNOUNCE_TIMEOUT (R71, R73): no Announce for three intervals. DEDUCED, log 46. -/
def execAnnounceTimeout (s : State) : Host.Outcome State Fault Refusal :=
  .next (if s.merRuns && s.mer.ptpEn && !s.mer.ptp.masters.isEmpty then
      let m := s.mer.clearPtpLock
      { s with mer := { m with ptp := { m.ptp with masters := [], sync := none, last := none } } }
    else s)

/-- FOLLOW_UP (R71): the origin time of the two-step Sync with the same sequence number. -/
def execFollowUp (port domain : Nat) (head : PtpHead) (seqNo t1 : Nat) (s : State) :
    Host.Outcome State Fault Refusal :=
  .next (s.onPtp port domain head.unlisted (fun m =>
    match m.fromMaster head.source, m.ptp.sync with
    | true, some (t2, n) => if n = seqNo then m.syncPair t1 t2 else m
    | _, _ => m))

/-- DELAY_REQ (R71): the slave sends a Delay_Req and keeps its send time. DESIGN CHOICE, log 45. -/
def execDelayReq (sub : Nat) (s : State) : Host.Outcome State Fault Refusal :=
  .next (if s.merRuns && s.mer.ptpEn && s.mer.ptp.best.isSome && !s.fab.squelched s.ptpLink s.quiet then
      { s with
        mer := { s.mer with ptp := { s.mer.ptp with req := some (s.mer.ptpTime sub) } },
        fab := s.fab.modLink s.ptpLink (fun l => { l with tx := l.tx + 1 }) }
    else s)

/-! ## Watches, transit lists and publications -/

/-- WATCH_END (R75 to R78, R479): the scheduler of every unfenced partition ends its watch. -/
def execWatchEnd (s : State) : Host.Outcome State Fault Refusal :=
  .next (if s.owed = 2 then
      let skipped := s.mer.watchSkipped
      let m := s.mer.watchEnd
      let p := (List.range 16).foldl (fun (p : Pipe) k =>
        if p.fenced k then p
        else p.modPart k (fun q =>
          { q with watchNo := m.watchNo, sched := q.sched.watchEnd m.now skipped })) s.pipe
      { s with mer := m, pipe := p }
    else s)

/-- TRANSIT_TAKEOVER (R69, R474): in every unfenced partition, the latest list that is due. -/
def execTransitTakeover (s : State) : Host.Outcome State Fault Refusal :=
  .next (if s.owed = 3 then
      let p := (List.range 16).foldl (fun (p : Pipe) k =>
        if p.fenced k then p
        else p.modPart k (fun q => { q with sched := q.sched.takeover s.mer.now })) s.pipe
      { s with pipe := p }
    else s)

/-- TRANSIT_WINDOW of partition k (R473, R475). -/
def execTransitWindow (k : Nat) (s : State) : Host.Outcome State Fault Refusal :=
  .next (if s.works && !s.pipe.fenced k then
      { s with pipe := s.pipe.modPart k (fun q =>
          { q with sched := { q.sched with window := q.sched.current.windowAt s.mer.now } }) }
    else s)

/-- EPOCH_PUBLISH (R69, R80 to R85): the next entry that is due, in all unfenced partitions at once. -/
def execEpochPublish (s : State) : Host.Outcome State Fault Refusal :=
  .next (if s.owed = 4 then
      match s.mer.nextDue with
      | none => s
      | some (slot, e) =>
        let m := s.mer.perform slot e
        let p := (List.range 16).foldl (fun (p : Pipe) k =>
          if p.fenced k then p else p.modPart k (fun q => { q with pub := m.pub, pend := m.pend })) s.pipe
        { s with mer := m, pipe := p }
    else s)

/-! ## The calendar wheel (R468 to R470) -/

/-- The Meridian microsecond. -/
def State.us (s : State) : Nat := s.mer.now / 1000

/-- A queue leaves the wheel (R470): its shaper is refilled and it joins the active list under R463. -/
def Pipe.unwheel (p : Pipe) (k t q : Nat) : Pipe :=
  let e := p.queue q
  let p1 := p.setQueue q { e with onwheel := false }
  let p2 := if e.shaper = 0 then p1 else
    p1.modPart k (fun r =>
      { r with sched := { r.sched with shapers := r.sched.shapers.set e.shaper ((r.sched.shaper e.shaper).refill t) } })
  p2.enlist q

/-- WHEEL_DRAIN of partition k (R470): every slot up to the present microsecond, in order of time. -/
def execWheelDrain (k : Nat) (s : State) : Host.Outcome State Fault Refusal :=
  .next (s.onPipe (fun p =>
    if p.fenced k then p
    else
      let w := (p.part k).sched.wheel
      let due := fun q => decide ((p.queue q).elig ≤ s.us)
      let qs := sortBy (fun a b => decide ((p.queue a).elig < (p.queue b).elig)) (w.vals.flatten.filter due)
      let w' := (w.mapv (fun l => l.filter (fun q => !due q))).filter (fun x => !x.2.isEmpty)
      qs.foldl (fun p q => p.unwheel k s.us q)
        (p.modPart k (fun r => { r with sched := { r.sched with wheel := w' } }))))

/-- BUCKET_MOVE of partition k (R470): the buckets up to the present 4,096 us, in order of time, into the slots. -/
def execBucketMove (k : Nat) (s : State) : Host.Outcome State Fault Refusal :=
  .next (s.onPipe (fun p =>
    if p.fenced k then p
    else
      let b := (p.part k).sched.buckets
      let blk := fun q => (p.queue q).elig / 4096
      let due := fun q => decide (blk q ≤ s.us / 4096)
      let qs := sortBy (fun a b => decide (blk a < blk b)) (b.vals.flatten.filter due)
      let b' := (b.mapv (fun l => l.filter (fun q => !due q))).filter (fun x => !x.2.isEmpty)
      p.modPart k (fun r =>
        let w := qs.foldl (fun (w : Tbl (List Nat)) q =>
          let n := (p.queue q).elig % 4096
          w.set n (w.getD n [] ++ [q])) r.sched.wheel
        { r with sched := { r.sched with buckets := b', wheel := w } })))

end Sys2Proof.Machine
end

