-- ==== Sys2Proof/Machine/SchedRows.lean ====
section
/-!
DEFINITION. Sys2Proof/Machine/SchedRows.lean: the rows of doorbells and of the scheduler (chapters 14 and 15).
-/
namespace Sys2Proof.Machine

/-- The register of a doorbell answers: in BAR0, or in the BAR of a virtual function while virtual functions are enabled.
DEDUCED, log 136. -/
def State.bell (s : State) (vf : Bool) : Bool := s.reach && (!vf || s.pcie.vfEnable)

/-- ALM_DOORBELL (R438 to R444, R456): lost while the package flushes, or before host software has enabled the data path it
finds no queue and is dropped. -/
def execAlmDoorbell (k : Nat) (vf : Bool) (nbytes : Nat) (v : W64) (ringData : HostData) (s : State) :
    Host.Outcome State Fault Refusal :=
  .next (if s.bell vf && decide (k < 16) then s.onPipe (almDoorbell k nbytes v.toNat ringData) else s)

/-- SCHED_VISIT (R465): once the events of the counter value are done (R87), with the data path enabled. DEDUCED, log 5. -/
def execSchedVisit (k : Nat) (s : State) : Host.Outcome State Fault Refusal :=
  .next (if s.coel.dpen && s.owed = 7 then s.onPipe (schedVisit k s.mer.now) else s)

/-- DESCRIPTOR_FETCH (R94, R298). -/
def execDescriptorFetch (k : Nat) (q : RawAt) (desc data : HostData) (s : State) : Host.Outcome State Fault Refusal :=
  .next (if s.coel.dpen then s.onPipe (fun p => descriptorFetch k q.n s.mer.now desc data (p.rawErrors q.raw)) else s)

/-- RING_ACCESS_ERROR (R437). -/
def execRingAccessError (k q job : Nat) (s : State) : Host.Outcome State Fault Refusal :=
  .next (s.onPipe (ringAccessError k q job))

end Sys2Proof.Machine
end

