-- ==== Sys2Proof/Machine/FabricRows.lean ====
section
/-!
DEFINITION. Sys2Proof/Machine/FabricRows.lean: the rows of the fabric ports and of the Bircia Fabric Transport (chapter 16).
-/
namespace Sys2Proof.Machine

/-! ## Doorbells -/

/-- An operation of the fabric, with its effects. -/
def State.onFab (s : State) (r : Fabric × List FabEff) : State := (s.withFab r).settle

/-- SEND_RING_DOORBELL (R496, R497, R532). -/
def execSendRingDoorbell (vf : Option Nat) (nbytes : Nat) (v : W64) (s : State) : Host.Outcome State Fault Refusal :=
  .next (if s.bell vf.isSome then s.onFab (s.fab.sendBell vf nbytes v.toNat) else s)

/-- RECEIVE_RING_DOORBELL (R506, R532). -/
def execReceiveRingDoorbell (vf : Option Nat) (nbytes : Nat) (v : W64) (s : State) : Host.Outcome State Fault Refusal :=
  .next (if s.bell vf.isSome then { s with fab := s.fab.recvBell vf nbytes v.toNat } else s)

/-- ERROR_RING_DOORBELL (R516, R532). -/
def execErrorRingDoorbell (vf : Option Nat) (nbytes : Nat) (v : W64) (s : State) : Host.Outcome State Fault Refusal :=
  .next (if s.bell vf.isSome then { s with fab := s.fab.errBell vf nbytes v.toNat } else s)

/-- EVENT_RING_DOORBELL (R516, R532). -/
def execEventRingDoorbell (vf : Option Nat) (nbytes : Nat) (v : W64) (s : State) : Host.Outcome State Fault Refusal :=
  .next (if s.bell vf.isSome then { s with fab := s.fab.evBell vf nbytes v.toNat } else s)

/-! ## Sending (R497 to R500) -/

/-- The read of `n` bytes at an address of the host, as given, or of the index address space: none while a page is away.
DESIGN CHOICE, log 15. DEDUCED, log 117. -/
def State.fetchBytes (s : State) (general : Bool) (addr n : Nat) (given : HostData) : Option (List Byte) :=
  if general then (if s.pipe.iasReady addr n then some (s.pipe.iasRead addr n) else none) else given.map (padTo n)

/-- Start an entry on a connection (R498, R504): a SEND needs credit. DEDUCED, log 84. DESIGN CHOICE, log 116. -/
def State.startEntry (s : State) (n : Nat) (c : Conn) (m : PkgMsg) (tag : Option Nat) (take : Conn → Conn) : State :=
  if !m.write && !c.sendCredit then s
  else
    let r := (take c).start m tag
    s.onFab ({ s.fab with conns := s.fab.conns.set n r.1 }, r.2)

/-- SEND_ENTRY (R496 to R499, R504, R521, R534): a package message goes before the entries of the send ring.
DEDUCED, log 117. -/
def execSendEntry (conn : Nat) (entry payload : HostData) (s : State) : Host.Outcome State Fault Refusal :=
  .next (if s.quiet then s else
    match s.fab.conns.get? conn with
    | none => s
    | some c =>
      if c.error.isSome then s.onFab (s.fab.discardSends conn)
      else if s.flush.state = .idle && (s.pipe.part (connHome conn)).sched.shortIn s.mer.now c.cfg.act 4 then s
      else match c.pkg with
        | m :: rest => s.startEntry conn c m none (fun c => { c with pkg := rest })
        | [] =>
          if c.sendLeft = 0 || s.flush.state ≠ .idle then s
          else
            let at_ := c.cfg.sbase + 64 * c.snext
            match s.fetchBytes c.cfg.sloc at_ 64 entry with
            | none => if c.cfg.sloc then s.onPipe (fun p => (p.want at_ 64).1) else s
            | some b =>
              let len := ((workEntry b [] c.cfg.act (connHome conn)).1.payload).length
              match (if len = 0 then some [] else s.fetchBytes c.cfg.sloc (le64 b 8) len payload) with
              | none => if c.cfg.sloc then s.onPipe (fun p => (p.want (le64 b 8) len).1) else s
              | some pl =>
                let w := workEntry b pl c.cfg.act (connHome conn)
                s.startEntry conn c w.1 (some w.2) (fun c => { c with snext := (c.snext + 1) % c.cfg.ssize }))

/-- PACKET_SEND (R500, R503, R504): the connection whose turn it is on the link. -/
def execPacketSend (link : Nat) (s : State) : Host.Outcome State Fault Refusal :=
  .next (if s.quiet || !(s.fab.link link).up then s else
    match s.fab.turnOf link with
    | none => s
    | some n =>
      let f := (s.fab.modConn n Conn.trim).modLink link (fun l => { l with turn := n })
      s.onFab (f.sendPkt n s.quiet))

/-! ## Receiving (R501, R502, R507 to R509, R517, R519, R521) -/

/-- The effect of a delivered message: done, not taken (R508), or a violation (R513). -/
inductive Taken where
  | done (s : State)
  | rnr
  | bad (cause : ErrCause)

/-- Buffers that a message of `len` bytes claims, from the slots that are posted (R507): (slot, buffer address, bytes taken
before, bytes here); none when the posted slots do not suffice. `fuel` bounds the slots. DEDUCED, log 118. -/
def claimBuffers (slots : List Byte) : Nat → Nat → Nat → Nat → List (Nat × Nat × Nat × Nat) → Option (List (Nat × Nat × Nat × Nat))
  | 0, _, _, _, _ => none
  | fuel + 1, i, off, len, acc =>
    let b := slice slots (32 * i) 32
    let n := min (max 64 (le32 b 8)) (len - off)
    let acc := acc ++ [(i, le64 b 0, off, n)]
    if off + n = len then some acc else claimBuffers slots fuel (i + 1) (off + n) len acc

/-- A DATA message into a receive ring (R506, R507, R508): `given` holds the posted slots of a ring in host memory.
DEDUCED, log 118. -/
def State.takeData (s : State) (n : Nat) (c : Conn) (msn mlen : Nat) (body : List Byte) (given : HostData) : Taken :=
  match c.cfg.rr with
  | none => .rnr
  | some num =>
    match s.fab.rings.get? num with
    | none => .rnr
    | some r =>
      let posted := (r.pidx + r.size - r.cidx % r.size) % r.size
      if s.pipe.fenced (ringHome num) || r.pd ≠ c.cfg.pd || posted = 0 then .rnr
      else
        let at_ := fun (i : Nat) => r.base + 32 * ((r.cidx + i) % r.size)
        let slots := if r.loc then some ((List.range posted).flatMap (fun i => s.pipe.iasRead (at_ i) 16 ++ List.replicate 16 0#8)) else given
        match slots with
        | none => .rnr
        | some bytes =>
          match claimBuffers bytes posted 0 0 mlen [] with
          | none => .rnr
          | some bufs =>
            let put := fun (s : State) (a : Nat) (bs : List Byte) (relaxed : Option Bool) =>
              if bs.isEmpty then s
              else if r.loc then { s with pipe := s.pipe.iasPut (ringHome num) a bs } else s.hostWrite r.func a bs relaxed
            let s1 := bufs.foldl (fun s b => put s b.2.1 ((body.drop b.2.2.1).take b.2.2.2) none) s
            let s2 := bufs.foldl (fun (s : State) b =>
              let idx := r.cidx + b.1
              let ph := if idx % (2 * r.size) < r.size then r.phase else !r.phase
              put s (at_ b.1 + 16) (packBytes 16 [(32, b.2.2.2), (18, n), (1, b2n (b.1 == 0)), (1, b2n (b.1 + 1 == bufs.length)),
                (1, b2n ph), (11, 0), (32, msn), (32, mlen)]) (if b.1 + 1 == bufs.length then some false else none)) s1
            let e := r.cidx + bufs.length
            let r1 := { r with cidx := e % r.size, phase := if e < r.size then r.phase else !r.phase }
            .done { s2 with fab := { s2.fab with rings := s2.fab.rings.set num r1 } }

/-- A QUERY message into the connection's FRECV ring (R517). DEDUCED, log 140. -/
def State.takeQuery (s : State) (c : Conn) (mlen : Nat) (body : List Byte) : Taken :=
  match c.cfg.fq with
  | none => .rnr
  | some q =>
    let e := s.pipe.queue q
    let k := queuePart q
    let n := ceilDiv mlen 128
    if e.state ≠ .free && e.pd ≠ c.cfg.pd then .bad .domain
    else if q ≥ 2 ^ 24 || e.kind ≠ .frecv || !(e.state = .enabled || e.state = .paused) || s.pipe.fenced k || e.freeSlots < n then .rnr
    else
      let p1 := (List.range n).foldl (fun (p : Pipe) i =>
        p.iasPut k (e.slotAddr (e.pidx + i)) (slice body (128 * i) 128)) (s.pipe.touchQueue q)
      let p2 := (p1.count k e.activity 2 (128 * n)).modQueue q (fun e => { e with pidx := (e.pidx + n) % e.size })
      .done { s with pipe := p2.enlist q }

/-- A reply on the connection that carried the request (R521), counted in a partition (R524). -/
def State.reply (s : State) (n mkind act part : Nat) (body : List Byte) : State :=
  let m : PkgMsg :=
    { write := false, final := false, mkind := mkind, rkey := 0, roff := 0, payload := body, act := act, part := part,
        purpose := .message }
  { s with fab := s.fab.queueMsg n m }

/-- An ABORT message (R125, R521). DEDUCED, log 139. -/
def State.takeAbort (s : State) (n : Nat) (c : Conn) (body : List Byte) : State :=
  let tag := le64 body 0
  let r : Pipe × Nat × Nat := match c.cfg.fq with
    | none => (s.pipe, stTOOLATE, 0)
    | some q => if s.pipe.fenced (queuePart q) then (s.pipe, stFENCED, 0) else s.pipe.abortJob q (le16 body 8) tag
  ({ s with pipe := r.1 }).reply n 3 0 ((c.cfg.fq.map queuePart).getD (connHome n)) (packBytes 16 [(64, tag), (8, r.2.1)])

/-- A QCTL message (R521, R522). -/
def State.takeQctl (s : State) (n : Nat) (c : Conn) (body : List Byte) : Taken :=
  let q := field body 0 24
  if s.pipe.fenced (queuePart q) then
    .done (s.reply n 5 8 (connHome n) (packBytes 8 [(24, q), (8, 0), (16, 0), (8, stFENCED)]))
  else if (s.pipe.queue q).pd ≠ c.cfg.pd then .bad .domain
  else
    let r := s.pipe.qctl body
    .done (({ s with pipe := r.1 }).reply n 5 8 (connHome n) (packBytes 8 [(24, q), (8, 0), (16, r.2.2), (8, r.2.1)]))

/-- A CQDB message (R444, R519). -/
def Conn.takeCqdb (c : Conn) (body : List Byte) : Conn :=
  let size := 32 * 2 ^ c.cfg.cqszlog
  let i := le32 body 0 % size
  let (first, used) := c.written.getD i (0, 0)
  let held := if i = c.cqP then 0 else rbHeldOf c.rbNext (64 * 2 ^ min c.cfg.rbclog 10) (first % 65536) used
  { c with cqC := i, rbHeld := held + c.resv }

/-- Take one message of a connection by its kind. DEDUCED, log 130. -/
def State.takeMsg (s : State) (n : Nat) (c : Conn) (ps : List RxPkt) (slots : HostData) : Taken :=
  match ps with
  | [] => .done s
  | p :: _ =>
    let body := padTo p.mlen (messageOf ps)
    match p.mkind with
    | 0 => s.takeData n c p.msn p.mlen body slots
    | 1 => s.takeQuery c p.mlen body
    | 2 => .done (s.takeAbort n c body)
    | 4 => s.takeQctl n c body
    | 6 => .done { s with pipe := poolMessage n (connHome n) body s.pipe }
    | 7 => .done { s with pipe := poolReply n body s.pipe }
    | 8 => .done { s with fab := s.fab.modConn n (fun c => c.takeCqdb body) }
    | _ => .done s

/-- Send a control packet of a connection. -/
def State.ctl (s : State) (n typ ncode npsn msn : Nat) : State := s.withFab (s.fab.control n typ ncode npsn msn s.quiet)

/-- Deliver the messages that APSN has reached, in order (R501, R507, R508); `fuel` bounds the packets. -/
def State.deliverRun (s : State) (n : Nat) (slots : HostData) : Nat → State
  | 0 => s
  | fuel + 1 =>
    let s0 := { s with fab := s.fab.modConn n (fun c => c.advance 1024) }
    match s0.fab.conns.get? n with
    | none => s0
    | some c =>
      if c.error.isSome then s0
      else match c.run 1024 c.apsn with
        | none => s0
        | some ps =>
          let msn := (ps.headD (rxPkt (decodeBft []) [])).msn
          let psn := (ps.headD (rxPkt (decodeBft []) [])).psn
          match s0.takeMsg n c ps slots with
          | .done s1 => ({ s1 with fab := s1.fab.modConn n (fun c => c.deliver ps) }).deliverRun n slots fuel
          | .rnr =>
            ({ s0 with fab := { s0.fab.modConn n (fun c => c.discard ps) with rnr := satAdd s0.fab.rnr 1 } }).ctl n 3 1 psn msn
          | .bad cause => s0.withFab (s0.fab.failSend n cause msn psn 0 s0.quiet)

/-- A received data packet of a connection (R501, R502, R505, R515, R534). -/
def State.takeData1 (s : State) (n : Nat) (h : BftHdr) (pl : List Byte) (slots : HostData) : State :=
  match s.fab.conns.get? n with
  | none => s
  | some c =>
    if c.error.isSome then
      match c.errPkt with
      | some e => s.withFab (s.fab.errorPkt n e.1 e.2 s.quiet)
      | none => s
    else if s.flush.state ≠ .idle then s
    else match c.accept (rxPkt h pl) with
      | (.duplicate, _) => s.ctl n 2 0 0 0
      | (.beyond, _) => s
      | (.accepted, c1) =>
        let s1 := ({ s with fab := { s.fab with conns := s.fab.conns.set n c1 } }).deliverRun n slots 1024
        match s1.fab.conns.get? n with
        | none => s1
        | some c2 =>
          if c2.error.isSome then s1
          else if h.ackReq || c2.sinceAck ≥ 8 then s1.ctl n 2 0 0 0
          else if c2.creditDue then s1.ctl n 4 0 0 0
          else s1

/-- Could a frame be one for BFT, and is it of the kind that a row names? A frame whose packet does not pass is of every
kind. -/
def State.rxFrame (s : State) (link : Nat) (frame : List Byte) (mine : BftHdr → Bool)
    (go : State → Nat → BftHdr → List Byte → State) : State :=
  if s.quiet || link ≥ 32 || !(s.fab.link link).up || otherFrame (s.fab.link link).cfg frame then s
  else
    let r := if frameSizeOk frame then s.fab.receive link frame else (s.fab, .bad)
    let f := r.1.modLink link (fun l => { l with rx := l.rx + 1 })
    match r.2 with
    | .bad => { s with fab := { f with badPkt := satAdd f.badPkt 1 } }
    | .auth => { s with fab := { f with authFail := satAdd f.authFail 1 } }
    | .bft n h pl => if mine h then (go { s with fab := f } n h pl).settle else s

/-- A SEND packet of a kind arrives. -/
def State.rxSend (s : State) (link : Nat) (frame : List Byte) (slots : HostData) (kind : Nat) : State :=
  s.rxFrame link frame (fun h => h.typ == 0 && h.mkind == kind) (fun s n h pl => s.takeData1 n h pl slots)

/-- DATA (R507, R508). -/
def execData (link : Nat) (frame : List Byte) (slots : HostData) (s : State) : Host.Outcome State Fault Refusal :=
  .next (s.rxSend link frame slots 0)

/-- QUERY (R517). -/
def execQuery (link : Nat) (frame : List Byte) (slots : HostData) (s : State) : Host.Outcome State Fault Refusal :=
  .next (s.rxSend link frame slots 1)

/-- ABORT (R521). -/
def execAbortMsg (link : Nat) (frame : List Byte) (slots : HostData) (s : State) : Host.Outcome State Fault Refusal :=
  .next (s.rxSend link frame slots 2)

/-- ABORTREPLY (R521): the reply is taken. -/
def execAbortreply (link : Nat) (frame : List Byte) (slots : HostData) (s : State) : Host.Outcome State Fault Refusal :=
  .next (s.rxSend link frame slots 3)

/-- A QCTL packet whose OP is `op`; codes above RESUME decode as READ. A message in more than one packet shows its OP in the
first. -/
def State.rxQctl (s : State) (link : Nat) (frame : List Byte) (slots : HostData) (op : Nat) : State :=
  s.rxFrame link frame (fun h => h.typ == 0 && h.mkind == 4) (fun s1 n h pl =>
    let code := field pl 48 8
    if h.moff = 0 && (if code ≤ 3 then code else 0) ≠ op then s else s1.takeData1 n h pl slots)

/-- QCTL_READ (R522). -/
def execQctlRead (link : Nat) (frame : List Byte) (slots : HostData) (s : State) : Host.Outcome State Fault Refusal :=
  .next (s.rxQctl link frame slots 0)

/-- QCTL_MODIFY (R522). -/
def execQctlModify (link : Nat) (frame : List Byte) (slots : HostData) (s : State) : Host.Outcome State Fault Refusal :=
  .next (s.rxQctl link frame slots 1)

/-- QCTL_PAUSE (R522). -/
def execQctlPause (link : Nat) (frame : List Byte) (slots : HostData) (s : State) : Host.Outcome State Fault Refusal :=
  .next (s.rxQctl link frame slots 2)

/-- QCTL_RESUME (R522). -/
def execQctlResume (link : Nat) (frame : List Byte) (slots : HostData) (s : State) : Host.Outcome State Fault Refusal :=
  .next (s.rxQctl link frame slots 3)

/-- QCTLREPLY (R521): the reply is taken. -/
def execQctlreply (link : Nat) (frame : List Byte) (slots : HostData) (s : State) : Host.Outcome State Fault Refusal :=
  .next (s.rxSend link frame slots 5)

/-- POOL_MESSAGE (R355). -/
def execPoolMessage (link : Nat) (frame : List Byte) (slots : HostData) (s : State) : Host.Outcome State Fault Refusal :=
  .next (s.rxSend link frame slots 6)

/-- POOLREPLY (R355, R523). -/
def execPoolreply (link : Nat) (frame : List Byte) (slots : HostData) (s : State) : Host.Outcome State Fault Refusal :=
  .next (s.rxSend link frame slots 7)

/-- CQDB (R519). -/
def execCqdb (link : Nat) (frame : List Byte) (slots : HostData) (s : State) : Host.Outcome State Fault Refusal :=
  .next (s.rxSend link frame slots 8)

/-- WRITE (R501, R502, R510). -/
def execWrite (link : Nat) (frame : List Byte) (slots : HostData) (s : State) : Host.Outcome State Fault Refusal :=
  .next (s.rxFrame link frame (fun h => h.typ == 1) (fun s n h pl => s.takeData1 n h pl slots))

/-- WRITE_PLACE (R505, R510 to R513): the first staged WRITE that may be placed is checked and placed. -/
def execWritePlace (conn : Nat) (s : State) : Host.Outcome State Fault Refusal :=
  .next (if s.quiet then s else
    match s.fab.conns.get? conn with
    | none => s
    | some c =>
      if c.error.isSome then s
      else match c.staged.find? c.placeable with
        | none => s
        | some p =>
          match s.fab.check c p s.fencedList with
          | some cause => s.onFab (s.fab.failSend conn cause p.msn p.psn p.rkey s.quiet)
          | none =>
            let num := p.rkey % 2 ^ 20
            let eff := match s.fab.regions.get? num with | some r => placeWrite num r p | none => []
            let s1 := s.withFab (s.fab.modConn conn (fun c => c.placed p.psn), eff)
            let due := match s1.fab.conns.get? conn with | some c => c.creditDue | none => false
            (if due then s1.ctl conn 4 0 0 0 else s1).settle)

/-- A control packet's limits at the sender (R503 to R505), then what the row adds. -/
def State.rxCtl (s : State) (link : Nat) (frame : List Byte) (mine : BftHdr → Bool) (go : State → Nat → BftHdr → State) : State :=
  s.rxFrame link frame mine (fun s n h _ =>
    match s.fab.conns.get? n with
    | none => s
    | some c =>
      if c.error.isSome then s
      else
        let r := c.takeLimits n h
        go (s.withFab ({ s.fab with conns := s.fab.conns.set n r.1 }, r.2)) n h)

/-- ACK (R498, R503, R504). -/
def execAck (link : Nat) (frame : List Byte) (s : State) : Host.Outcome State Fault Refusal :=
  .next (s.rxCtl link frame (fun h => h.typ == 2) (fun s _ _ => s))

/-- NAK_SEQ (R503). -/
def execNakSeq (link : Nat) (frame : List Byte) (s : State) : Host.Outcome State Fault Refusal :=
  .next (s.rxCtl link frame (fun h => h.typ == 3 && h.ncode == 0) (fun s n h =>
    { s with fab := s.fab.modConn n (fun c => c.nakSeq h.npsn) }))

/-- NAK_RNR (R509). -/
def execNakRnr (link : Nat) (frame : List Byte) (s : State) : Host.Outcome State Fault Refusal :=
  .next (s.rxCtl link frame (fun h => h.typ == 3 && h.ncode == 1) (fun s n h =>
    match s.fab.conns.get? n with
    | none => s
    | some c =>
      match c.nakRnr h.msn with
      | (true, _) => s.withFab (s.fab.failSend n .rnr h.msn 0 0 s.quiet)
      | (false, c1) => { s with fab := { s.fab with conns := s.fab.conns.set n c1 } }))

/-- CREDIT (R504, R505). -/
def execCredit (link : Nat) (frame : List Byte) (s : State) : Host.Outcome State Fault Refusal :=
  .next (s.rxCtl link frame (fun h => h.typ == 4) (fun s _ _ => s))

/-- KEEPALIVE (R505, R530). -/
def execKeepalive (link : Nat) (frame : List Byte) (s : State) : Host.Outcome State Fault Refusal :=
  .next (s.rxCtl link frame (fun h => h.typ == 5) (fun s _ _ => s))

/-- ERROR (R514): the tag comes from the history when the MSN is among the last 65,536. -/
def execErrorPacket (link : Nat) (frame : List Byte) (s : State) : Host.Outcome State Fault Refusal :=
  .next (s.rxFrame link frame (fun h => h.typ == 6) (fun s n h _ =>
    match s.fab.conns.get? n with
    | none => s
    | some c =>
      let back := (c.nextMsn + 2 ^ 32 - h.msn) % 2 ^ 32
      let tag := if c.cfg.thaddr.isSome && decide (1 ≤ back) && decide (back ≤ 65536) then c.tags.get? (h.msn % 65536) else none
      s.withFab (s.fab.fail n (causeOf h.cause) true tag h.msn 0 0 none)))

/-! ## ARP, Neighbor Discovery and other frames (R487) -/

/-- A frame that the link answers itself. -/
def State.answerFrame (s : State) (link : Nat) (reply : Option (List Byte)) : State :=
  if link ≥ 32 || !(s.fab.link link).up || s.boot.stage = .reset then s
  else match reply with
    | none => s
    | some b =>
      let f := s.fab.modLink link (fun l => { l with rx := l.rx + 1 })
      if s.fab.squelched link s.quiet then { s with fab := f }
      else { s with fab := f.modLink link (fun l => { l with tx := l.tx + 1 }), out := s.out ++ [.net link b] }

/-- ARP_REQUEST (R487). -/
def execArpRequest (link : Nat) (frame : List Byte) (s : State) : Host.Outcome State Fault Refusal :=
  .next (s.answerFrame link (arpReply (s.fab.link link).cfg frame))

/-- NEIGHBOR_SOLICITATION (R487). -/
def execNeighborSolicitation (link : Nat) (frame : List Byte) (s : State) : Host.Outcome State Fault Refusal :=
  .next (s.answerFrame link (ndReply (s.fab.link link).cfg frame))

/-- NON_BFT_FRAME (R487): counted in BFT_BADPKT. -/
def execNonBftFrame (link : Nat) (frame : List Byte) (s : State) : Host.Outcome State Fault Refusal :=
  .next (s.rxFrame link frame (fun _ => false) (fun s _ _ _ => s))

/-! ## Timers (R502, R503, R505, R509, R515, R530) -/

/-- A timer of a connection while the engines run. -/
def State.onConn (s : State) (n : Nat) (go : Conn → State) : State :=
  if s.quiet then s else match s.fab.conns.get? n with | none => s | some c => (go c).settle

/-- RETRANSMIT_TIMEOUT (R503). -/
def execRetransmitTimeout (conn : Nat) (s : State) : Host.Outcome State Fault Refusal :=
  .next (s.onConn conn (fun c => if c.error.isSome then s else { s with fab := s.fab.modConn conn Conn.timeout }))

/-- ACK_TIMER (R502). -/
def execAckTimer (conn : Nat) (s : State) : Host.Outcome State Fault Refusal :=
  .next (s.onConn conn (fun c => if c.error.isSome || !c.ackOwed then s else s.ctl conn 2 0 0 0))

/-- GAP_TIMER (R502). -/
def execGapTimer (conn : Nat) (s : State) : Host.Outcome State Fault Refusal :=
  .next (s.onConn conn (fun c =>
    if c.error.isSome then s else match c.gap with | some psn => s.ctl conn 3 0 psn 0 | none => s))

/-- CREDIT_TIMER (R505). -/
def execCreditTimer (conn : Nat) (s : State) : Host.Outcome State Fault Refusal :=
  .next (s.onConn conn (fun c =>
    if c.error.isSome || (c.mlimNow = c.sentMlim && c.blimNow = c.sentBlim) then s else s.ctl conn 4 0 0 0))

/-- KEEPALIVE_TIMER (R515, R530): a KEEPALIVE, or in ERROR the connection's ERROR packet once more. -/
def execKeepaliveTimer (conn : Nat) (s : State) : Host.Outcome State Fault Refusal :=
  .next (s.onConn conn (fun c =>
    if c.error.isNone then s.ctl conn 5 0 0 0
    else match c.errPkt with | some e => s.withFab (s.fab.errorPkt conn e.1 e.2 s.quiet) | none => s))

/-- SILENT (R530). -/
def execSilent (conn : Nat) (s : State) : Host.Outcome State Fault Refusal :=
  .next (s.onConn conn (fun _ => s.withFab (s.fab.fail conn .silent false none 0 0 0 (some (ErrCause.silent.code, 0)))))

/-- RNR_DELAY (R509). -/
def execRnrDelay (conn : Nat) (s : State) : Host.Outcome State Fault Refusal :=
  .next (s.onConn conn (fun c => if c.error.isSome then s else { s with fab := s.fab.modConn conn Conn.rnrDelay }))

/-! ## Links (R488, R531) -/

/-- A link is declared down, and its fault source sets (R531, R590). -/
def State.dropLink (s : State) (n : Nat) : State := s.withFab (s.fab.linkDown n s.quiet)

/-- LINK_DOWN (R488, R531). DEDUCED, log 120. -/
def execLinkDown (n : Nat) (s : State) : Host.Outcome State Fault Refusal :=
  .next (if s.boot.stage ≠ .reset && decide (n < 32) && (s.fab.link n).up then ((s.dropLink n).raise [320 + n]).settle else s)

/-- LINK_UP (R488): a link of the port's mode, its transmitters running, without any fault. DESIGN CHOICE, log 121. -/
def execLinkUp (n : Nat) (s : State) : Host.Outcome State Fault Refusal :=
  .next (
    let l := s.fab.link n
    if s.boot.stage ≠ .reset && decide (n < 32) && l.exists_ && !l.up && !l.lfault && !l.rfault && !l.blockLoss
        && !s.fab.squelched n s.quiet then
      { s with fab := s.fab.modLink n (fun l => { l with up := true }), pwr := { s.pwr with fabClk := true } }
    else s)

/-- LOCAL_FAULT (R486, R488). -/
def execLocalFault (link : Nat) (local_ remote blockLoss : Bool) (s : State) : Host.Outcome State Fault Refusal :=
  .next (if s.boot.stage = .reset then s
    else { s with fab := s.fab.modLink link (fun l => { l with lfault := local_, rfault := remote, blockLoss := blockLoss }) })

end Sys2Proof.Machine
end

