-- ==== Sys2Proof/Machine/Pages.lean ====
section
/-!
DEFINITION. Sys2Proof/Machine/Pages.lean: the movement of pages, reads of full vectors, and checkpoints (chapters 09, 12
and 13).
-/
namespace Sys2Proof.Machine

/-! ## Moves (R375, R388, R404, R408, R409) -/

/-- Charge a move of a page in partition k: 16 flash operations and 64 KiB of HBM, to the first job that demanded it, or to
an activity, as a move that a prefetch began (R388). DESIGN CHOICE, log 112. -/
def Pipe.chargeMove (p : Pipe) (k : Nat) (who : List Nat) (act : Nat) : Pipe :=
  match who with
  | j :: _ => (p.charge j k 3 16).charge j k 2 65536
  | [] => (p.count k act 3 16).count k act 2 65536

/-- A page or frame has become free: waiting writes, choices and scans go on (R375, R384). -/
def Pipe.resume (p : Pipe) : Pipe :=
  let p1 := (p.flushLate p.late.length).freeBells
  p1.jobs.keys.foldl (fun (p : Pipe) j => (p.chooseStep j).issueScans j) p1

/-- PAGE_MOVE_IN: read `i` of partition k, a page's, ends (R377, R404, R408, R409). -/
def pageMoveIn (k i retries rebuilds : Nat) (lost : Bool) (p : Pipe) : Pipe :=
  if p.fenced k then p
  else match (p.flash k).reads[i]? with
    | some (.page pg pre) =>
      let e := p.tier pg
      let p1 := p.modFlash k (fun f => { f with reads := f.reads.eraseIdx i })
      if e.st ≠ .in_ then p1
      else
        let who := p.demands pg
        let payer := if pre then [] else who
        let key := hbmKey e.home e.pc (e.frame * 65536)
        let place := match e.loc with
          | some (ex, po) => if p.pair.isSome && (p.flash k).okLoc ex (16 * po) then some (ex, 16 * po) else none
          | none => none
        match place with
        | none =>
          let p2 := (p1.modFlash k (fun f => { f with badLoc := f.badLoc + 1 })).setTier pg { e with st := .hbm, dirty := false }
          ((p2.chargeMove k payer 5).hbmClear key 65536).resume
        | some (ex, u) =>
          let p2 := (p1.modFlash k (fun f => f.readCounts ex retries rebuilds)).chargeMove k payer 5
          if lost then
            who.foldl (fun p j => p.endJob j stABORTED (some k)) ((p2.setTier pg { e with st := .flash }).unitLost k)
          else
            let p3 := p2.modPart k (fun q => { q with movesIn := q.movesIn + 1 })
            ((p3.flashFill k ex u 16 key).setTier pg { e with st := .hbm, dirty := false }).resume
    | _ => p

/-- The activity of a write-back (R388): checkpoint, spill, or that of the first job that demands a page of the stack.
DESIGN CHOICE, log 111. -/
def Pipe.writeBackAct (p : Pipe) (k : Nat) (pg : PageId) (e : TierEnt) : List Nat × Nat :=
  if e.st = .hbm then ([], 3)
  else match pg with
    | .bank _ _ _ => ([], 5)
    | .gen _ =>
      (((p.jobs.filter (fun j => (p.wanted j.1 j.2).any (fun w => let x := p.tier w; !x.here && x.home == k))).map Prod.fst).take 1, 5)

/-- WRITE_BACK of partition k: the first write-back that waits ends (R379, R381, R407). -/
def writeBack (k : Nat) (p : Pipe) : Pipe :=
  if p.fenced k then p
  else match (p.flash k).progs.find? (fun g => match g with | .page _ => true | _ => false) with
    | some (.page pg) =>
      let e := p.tier pg
      let gone := fun (p : Pipe) => p.modFlash k (fun f => { f with progs := f.progs.erase (.page pg) })
      if e.st ≠ .out && e.st ≠ .hbm then gone p
      else
        let bs := p.hbm.readN (hbmKey e.home e.pc (e.frame * 65536)) 65536
        match p.flashPut k .page (.page pg none) bs (fun _ _ => none) with
        | (p1, none) => p1
        | (p1, some (ex, u)) =>
          let (who, act) := p.writeBackAct k pg e
          let p2 := (gone p1).chargeMove k who act
          let p3 := match e.loc with | some (oe, _) => p2.liveDrop k oe 16 | none => p2
          let st := if e.st = .out then TierSt.flash else TierSt.hbm
          ((p3.setTier pg { e with st := st, loc := some (ex, u / 16) }).modPart k (fun q =>
            { q with writeBacks := q.writeBacks + 1 })).resume
    | _ => p

/-! ## Spills (R380) -/

/-- The pieces that receive appends in partition k. -/
def Pipe.activePieces (p : Pipe) (k : Nat) : List (Nat × Nat) :=
  p.idx.vals.flatMap (fun x =>
    let cs := if x.desc.graph then [0] else (List.range x.desc.nclust).filter (fun j => (p.cluster x j).owner == k)
    cs.filterMap (fun j =>
      let t := p.appendTo x j k
      t.active.bind (fun i => (p.pieceTab t.ptab t.npiece)[i]?)))

/-- May a piece of partition k be spilled (R380)? -/
def Pipe.spillable (p : Pipe) (k : Nat) (r : Nat × Nat) : Bool :=
  let q := p.part k
  let n := p.nbu k r.1
  let idle := q.watchNo - q.probed.getD (hbmKey k r.1 r.2) 0
  decide (idle ≥ q.idle) && !(n.queue ++ n.running ++ (p.unissued.filter (fun u => u.1 == k && u.2.1 == r.1)).map (fun u => u.2.2)).any (fun u =>
      (n.kin r.2).contains u.piece)
    && (p.pieceSpan k r.1 r.2).all (fun pg => (p.tier pg).st == TierSt.hbm) && !(p.activePieces k).contains r

/-- SPILL of a piece (R380, R388, R389). -/
def spill (k pc piece now : Nat) (p : Pipe) : Pipe :=
  let q := p.part k
  let pieces := (q.ordMap.vals.map (fun m => (m.1, m.2.1))).eraseDups
  let last := fun (r : Nat × Nat) => q.probed.getD (hbmKey k r.1 r.2) 0
  if !p.maintMay k 5 now || decide (p.free k ≥ q.lowMark + q.migresOf) || !pieces.contains (pc, piece) || !p.spillable k (pc, piece)
      || pieces.any (fun r => decide (last r < last (pc, piece)) && p.spillable k r) then p
  else
    (p.pieceSpan k pc piece).foldl (fun (p : Pipe) pg =>
      let e := p.tier pg
      if e.dirty || e.loc.isNone then
        (p.setTier pg { e with st := .out, dirty := false }).modFlash k (fun f => { f with progs := f.progs ++ [.page pg] })
      else p.setTier pg { e with st := .flash }) p

/-! ## Full-vector reads (R404, R408, R409) -/

/-- FLASH_READ_DONE: read `i` of partition k, a full vector's, ends. -/
def flashReadDone (k i retries rebuilds : Nat) (lost : Bool) (p : Pipe) : Pipe :=
  if p.fenced k then p
  else match (p.flash k).reads[i]? with
    | some (.vector j c e u n) =>
      let p1 := (p.modFlash k (fun f => { f.readCounts e retries rebuilds with reads := f.reads.eraseIdx i })).charge j k 3 n
      match p1.jobs.get? j with
      | none => p1
      | some jb =>
        if lost then (p1.unitLost k).endJob j stABORTED (some k)
        else match p1.idxOf jb with
          | none => p1
          | some x =>
            let bs := p1.flashGet k e u x.fullBytes
            let p2 := p1.modJob j (fun y => { y with readsOut := y.readsOut - 1 })
            match jb.phase with
            | .reranking =>
              (p2.modJob j (fun y => { y with cands := modNth y.cands c (fun d => { d with vec := bs, src := 3 }) })).rerank j
            | .payload =>
              (p2.modJob j (fun y => { y with results := modNth y.results c (fun d => { d with vec := bs }) })).payloadDone j
            | _ => p2
    | _ => p

/-! ## Checkpoints (R317, R420, R421) -/

/-- The dirty pages of the unfenced partitions. -/
def Pipe.dirtyPages (p : Pipe) : List (PageId × TierEnt) :=
  ((p.general.map (fun e => (PageId.gen e.1, e.2)))
    ++ (p.bank.map (fun e => (PageId.bank (e.1 / 2 ^ 20) (e.1 / 2 ^ 14 % 64) (e.1 % 2 ^ 14), e.2)))).filter (fun e =>
      e.2.dirty && e.2.st == .hbm && !p.fenced e.2.home)

/-- The cut (R317 step 2). -/
def Pipe.cut (p : Pipe) (pub : Nat) : Ckpt :=
  { pub := pub, oldest := p.oldestNow, general := p.general, bank := p.bank, tables := p.tables, idx := p.idx,
    handles := p.handles,
    tails := p.idx.vals.flatMap (fun x => (p.allPieces x).map (fun r => (r, (p.hdrAt r.1 r.2.1 r.2.2).tail))),
    ordMaps := p.parts.map (·.ordMap), regions := p.parts.map (·.regions),
    cuts := p.parts.map (fun q => (q.recs.map (·.logSeq)).foldl min q.flash.nextSeq),
    owed := p.parts.map (fun q => q.flash.progs.filter (fun g => match g with | .page _ => false | _ => true)),
    moves := p.parts.map (fun q => q.flash.moved.length) }

/-- CHECKPOINT (R317 steps 1 to 3): no record stands past step 4 of R302, the cut is recorded, and the dirty pages are to be
written back. -/
def checkpoint (pub now : Nat) (p : Pipe) : Pipe :=
  let short := (List.range 16).any (fun k => !p.fenced k && !p.maintMay k 3 now)
  if (p.ckptMs = 0 && !p.ckptNow) || p.ckptCut.isSome || short || p.pair.isNone
      || p.parts.any (fun q => q.recs.any (fun r => r.step == .issued)) then p
  else
    let c := p.cut pub
    p.dirtyPages.foldl (fun (p : Pipe) x =>
      (p.setTier x.1 { x.2 with dirty := false }).modFlash x.2.home (fun f => { f with progs := f.progs ++ [.page x.1] }))
      { p with ckptCut := some c, ckptNow := false }

/-- The LOG extents of a partition whose last record lies before a cut (R407). -/
def FlashPart.oldLogs (f : FlashPart) (cut : Nat) : List Nat :=
  let starts := f.tags.filterMap (fun t => match t.2 with | .log s => some ((t.1 / 2 ^ 17, s) : Nat × Nat) | _ => none)
  let logs := f.exts.filter (fun x => x.2.st == .sealed && x.2.role == .log)
  (logs.filter (fun x =>
    let mine := (starts.filter (fun (s : Nat × Nat) => s.1 == x.1)).map Prod.snd
    let last := mine.foldl max 0
    let next := (starts.filter (fun (s : Nat × Nat) => decide (s.2 > last))).map Prod.snd
    next.any (fun (s : Nat) => decide (s ≤ cut)))).map Prod.fst

/-- They become RETIRING (R407). -/
def Pipe.retireLogs (p : Pipe) (k cut : Nat) : Pipe :=
  ((p.flash k).oldLogs cut).foldl (fun (p : Pipe) e =>
    (p.modFlash k (fun f => f.modExt e (fun x => { x with st := .retiring, readers := [], waits := [] }))).journalExt k e .retire) p

/-- The checkpoint record of partition k (R420): a snapshot of the extent map, then the CKPT record; the journal starts anew
with the snapshot. -/
def Pipe.journalCkpt (p : Pipe) (k cut : Nat) : Pipe :=
  let snap := (p.flash k).jseq
  let p1 := (p.journal k .snapshot ((p.flash k).exts.map (fun x => .snap x.1 x.2))).journal k .records [.ckpt cut snap]
  p1.modFlash k (fun f => { f with journal := f.journal.filter (fun g => decide (snap ≤ g.jseq)) })

/-- CKPT (R317 step 4, R421): every page of the cut has been written back, and the programs of before it have ended. -/
def ckptDone (p : Pipe) : Pipe :=
  match p.ckptCut with
  | none => p
  | some c =>
    let busy := (List.range 16).any (fun k => !p.fenced k &&
      ((p.flash k).progs.any (fun g => match g with | .page _ => true | _ => false)
        || (c.owed.getD k []).any (fun g => (p.flash k).progs.contains g)))
    if busy then p
    else
      let loc := fun (now : Tbl TierEnt) (x : Nat × TierEnt) =>
        (x.1, match now.get? x.1 with | some e => { x.2 with loc := e.loc } | none => x.2)
      let c1 := { c with general := c.general.map (loc p.general), bank := c.bank.map (loc p.bank) }
      let trim := { p with
        ckptCut := none,
        parts := p.parts.mapIdx (fun k q =>
          let at_ := c.cuts.getD k 0
          let old := q.flash.log.filter (fun e => decide (e.seq < at_) && e.programmed)
          { q with flash := { q.flash with
            log := q.flash.log.filter (fun e => decide (e.seq ≥ at_) || !e.programmed),
            durable := old.foldl (fun (t : Tbl Nat) e => t.set e.queue e.tag) q.flash.durable,
            moved := q.flash.moved.drop (c.moves.getD k 0) } }) }
      let p1 := ((List.range 16).filter (fun k => !p.fenced k)).foldl (fun (p : Pipe) k =>
        (p.journalCkpt k (c.cuts.getD k 0)).retireLogs k (c.cuts.getD k 0)) trim
      { p1 with nand := { p1.nand with ckpt := some c1, lastPage := some ((p.parts.map (·.pub)).foldl max 0) } }

end Sys2Proof.Machine
end

