-- ==== Sys2Proof/Machine/Stages.lean ====
section
/-!
DEFINITION. Sys2Proof/Machine/Stages.lean: the passes of the arrays and the commands of the selection unit (chapters 04
and 08).
-/
namespace Sys2Proof.Machine

/-! ## Commands of the selection unit (R264, R265) -/

/-- OPEN (R265): a request that is not IDLE is discarded first. -/
def selOpen (k n : Nat) (p : Pipe) : Pipe :=
  if p.fenced k || n ≥ 4096 then p
  else
    let p1 := if (p.core k).sel.has n then p.dropSel k n else p
    let r := selFromRecord (p1.plateRead k (selRec n) 24)
    (p1.modCore k (fun c => { c with sel := c.sel.set n r })).showSel k n

/-- DISCARD (R265, R277). -/
def selDiscard (k n : Nat) (p : Pipe) : Pipe := if p.fenced k then p else p.dropSel k n

/-- A list that does not fit a register lies at LIST (R268, R271); that of a stage program's request lies where firmware keeps it.
DESIGN CHOICE, log 149. -/
def Pipe.keepList (p : Pipe) (k : Nat) (r : SelReq) : Pipe :=
  if r.use = .user && (r.compact || decide (r.k > 256)) then p.plateWrite k r.list (r.entries.flatMap selOutBytes) else p

/-- Change a request, its list and its record. -/
def Pipe.putSel (p : Pipe) (k n : Nat) (r : SelReq) : Pipe :=
  ((p.modCore k (fun c => { c with sel := c.sel.set n r })).keepList k r).showSel k n

/-- A command waits behind a CLOSE under way: up to four do (R265). -/
def SelReq.queueCmd (r : SelReq) : SelReq := { r with cmds := min 4 (r.cmds + 1) }

/-- BOUND (R272). -/
def selBound (k n : Nat) (p : Pipe) : Pipe :=
  if p.fenced k then p
  else match (p.core k).sel.get? n with
    | none => p.showSel k n
    | some r => if r.state = .closing then p.putSel k n r.queueCmd else p.putSel k n r.makeBound

/-- The blocks of a forwarded run reach the target core (R274); one that is fenced receives nothing (R279). -/
def Pipe.forward (p : Pipe) (r : SelReq) : Pipe :=
  if p.fenced r.fcore then p else p.modCore r.fcore (fun c => { c with blocks := c.blocks ++ runBlocks r })

/-- CLOSE of a request that a program opened completes: its output in plate memory, or forwarded (R265, R268, R273, R274). -/
def Pipe.closeUser (p : Pipe) (k n : Nat) (r : SelReq) : Pipe :=
  let c := { r.close with owed := 0, cmds := 0 }
  let p1 := (p.modCore k (fun s => { s with sel := s.sel.set n c, resident := s.resident.filter (· ≠ n) })).showSel k n
  if c.fwd then p1.forward c
  else if c.compact then p1.plateWrite k c.list (c.result.flatMap selOutBytes)
  else p1.plateWrite k c.out (c.result.flatMap selOutBytes)

/-- CLOSE of a program's request (R265, R266): entries that have reached the unit before it are taken first. -/
def Pipe.closeProgram (p : Pipe) (k n : Nat) (r : SelReq) : Pipe :=
  let w := ((p.core k).blocks.filter (fun b => b.target == n)).length
  match r.state with
  | .opened => if w = 0 then p.closeUser k n r else p.putSel k n { r with state := .closing, owed := w }
  | .closing => p.putSel k n r.queueCmd
  | _ => p.showSel k n

/-- CLOSE of a stage's request, once everything that it awaits has been delivered (R276). -/
def Pipe.closeStage (p : Pipe) (k n : Nat) (r : SelReq) : Pipe :=
  let j := r.job
  match r.use with
  | .user => p
  | .choice =>
    if r.fwd then (if (p.core k).hasTile j then p else (p.forward r.close).dropSel k n)
    else (match p.jobAt j .scoring with
      | some jb => if p.coarseDone j jb then p.closeChoice j jb r else p
      | none => p)
  | .merge =>
    (match p.jobAt j .merging with
     | some jb => p.closeMerge j jb r
     | none => p)
  | .enter =>
    if p.walks.any (fun w => w.2.job == j && w.2.core == k) then p
    else ((p.forward r.close).dropSel k n).walksOver j
  | .rerank =>
    (match p.jobAt j .reranking with
     | some jb => if p.rerankDone jb j then p.closeRerank j jb r else p
     | none => p)
  | .rescore =>
    (match p.jobAt j .rescoring with
     | some jb => p.closeRescore j jb r
     | none => p)
  | .assign => if (p.core k).hasTile j then p else p.closeAssign k n j r

/-- A parity error of core k's selection unit: the fault source sets, and the job ends (R278). -/
def Pipe.selParity (p : Pipe) (k j : Nat) : Pipe :=
  ({ p with out := p.out ++ [.fault (16 * k + 2)] } : Pipe).endJob j stABORTED (some k)

/-- CLOSE (R265, R273, R276, R278). -/
def selClose (k n : Nat) (parity : Bool) (p : Pipe) : Pipe :=
  if p.fenced k then p
  else match (p.core k).sel.get? n with
    | none => p.showSel k n
    | some r =>
      if parity then p.selParity k r.job
      else if r.use = .user then p.closeProgram k n r
      else if r.state ≠ .opened || (p.core k).blocks.any (fun b => b.target == n) then p
      else p.closeStage k n r

/-! ## Blocks (R266, R267, R278) -/

/-- The block that the unit serves next: the lowest class first, in order of arrival; a block for an IDLE request counts
as class 0. -/
def CoreSt.nextBlock (c : CoreSt) : Option SelBlock :=
  let cls := fun (b : SelBlock) => match c.sel.get? b.target with | some r => r.cls | none => 0
  [0, 1, 2, 3].findSome? (fun n => (c.blocks.take 256).find? (fun b => cls b == n))

/-- The register that is written back when none is free: the least recently used one that has no waiting block (R267), or of
all when each has one. DESIGN CHOICE, log 186. -/
def regVictim (busy : Nat → Bool) (l : List Nat) : Option Nat := (l.reverse.find? (fun n => !busy n)).orElse (fun _ => l.getLast?)

/-- Requests resident in SV0 to SV3, most recently used first. -/
def resideIn (busy : Nat → Bool) (l : List Nat) (n : Nat) : List Nat :=
  if l.contains n || decide (l.length < 4) then n :: l.filter (· ≠ n)
  else n :: (match regVictim busy l with | some v => l.filter (· ≠ v) | none => l)

/-- A request becomes resident; the register written back goes to its LIST area (R267). DESIGN CHOICE, log 149. -/
def Pipe.reside (p : Pipe) (k n : Nat) : Pipe :=
  let c := p.core k
  let busy := fun (m : Nat) => c.blocks.any (fun b => b.target == m)
  let l := resideIn busy c.resident n
  let p1 := p.modCore k (fun c => { c with resident := l })
  match c.resident.find? (fun m => !l.contains m) with
  | none => p1
  | some v => match c.sel.get? v with
    | some r => if r.use = .user then p1.plateWrite k r.list (r.entries.flatMap selOutBytes) else p1
    | none => p1

/-- A block is taken by its request; the last that a CLOSE awaits completes it (R265, R266). -/
def Pipe.takeSel (p : Pipe) (k : Nat) (r : SelReq) (b : SelBlock) : Pipe :=
  let b1 := if r.maps b.src && !b.mapped then { b with entries := b.entries.map (p.mapId k r) } else b
  let r1 := r.takeBlock b1
  let p1 := (p.reside k b.target).putSel k b.target { r1 with owed := r1.owed - 1 }
  if r.state = .closing && r.owed ≤ 1 then p1.closeUser k b.target r1 else p1

/-- SEL_BLOCK_SERVED (R266 to R273, R278). DEDUCED, log 148. -/
def selServe (k : Nat) (parity : Bool) (p : Pipe) : Pipe :=
  if p.fenced k then p
  else match (p.core k).nextBlock with
    | none => p
    | some b =>
      let p1 := p.modCore k (fun c => { c with blocks := c.blocks.erase b })
      let n := b.entries.length
      match (p1.core k).sel.get? b.target with
      | none =>
        if parity then p1.selParity k b.job
        else p1.modCore k (fun c => { c with stray := c.stray + n })
      | some r =>
        let mine := r.use = .user || b.job = r.job || b.job = 0
        if parity then p1.selParity k (if mine && b.job ≠ 0 then b.job else r.job)
        else if !mine then p1.modCore k (fun c => { c with stray := c.stray + n })
        else if r.state = .opened || (r.state = .closing && decide (r.owed > 0)) then p1.takeSel k r b
        else
          (p1.modCore k (fun c => { c with sel := c.sel.adj b.target (fun r => { r with late := min (r.late + n) sat32Max }) })).showSel k b.target

/-! ## Passes (R151, R155, R159 to R162, R169) -/

/-- The tile that gives the next pass (R160); the first 64 are the queue, and later ones wait with the contexts that issue them
(R154). -/
def CoreSt.nextTile (c : CoreSt) : Option Tile := [0, 1, 2, 3].findSome? (fun n => (c.tiles.take 64).find? (fun t => t.cls == n))

/-- PART and id of a column or lane that a custom kernel sends to the request of its stage (R141, R266): below 256 the
candidate of its group. -/
def kernelId (ords : List (Nat × Nat)) (id : Nat) : Nat × Nat :=
  match if id < 256 then ords[id]? else none with
  | some x => x
  | none => (0, id)

/-- The entries that row `i` of a pass sends to a request, `stage` when the request serves a stage of a job. -/
def Tile.rowEntries (t : Tile) (stage : Bool) (cells : List (Nat × Nat × W32 × W32)) (i : Nat) : List (W32 × Nat × Nat) :=
  (cells.filter (fun c => c.1 == i)).map (fun c =>
    let id := t.ids.getD c.2.1 (0, 0)
    match if stage then t.kernel else none with
    | some ords => let m := kernelId ords id.1; (c.2.2.2, m.1, m.2)
    | none => (c.2.2.2, id.2, id.1))

/-- Does request `n` of a core serve a stage of a job? -/
def CoreSt.stageSel (c : CoreSt) (n : Nat) : Bool := match c.sel.get? n with | some r => r.use != .user | none => false

/-- The array-cycles of the first `n` passes of a tile. -/
def Tile.costOf (t : Tile) (n : Nat) : Nat := ((List.range n).map t.passCost).foldl (· + ·) 0

/-- Cycles of a pass counted against the core's partition and charged to its jobs (R161, R162). -/
def Pipe.chargePass (p : Pipe) (k : Nat) (t : Tile) : Pipe :=
  let live := t.jobs.filter (· ≠ 0)
  let act := match live with
    | j :: _ => (match p.jobs.get? j with | some jb => jb.act | none => 0)
    | [] => if t.cls = 3 then 1 else 0
  let q := max 1 t.jobs.length
  let share := ceilDiv (t.costOf (t.next + 1)) q - ceilDiv (t.costOf t.next) q
  live.foldl (fun (p : Pipe) j => p.modJob j (fun jb => { jb with use := jb.use.add 1 share })) (p.count k act 1 (t.passCost t.next))

/-- TILE_PASS (R151, R155, R159 to R162, R169). A waiting Survey batch closes first when the arrays are free (R109); no
pass drains while the selection unit's queue is full (R267). -/
def tilePass (k : Nat) (parity : Bool) (p : Pipe) : Pipe :=
  if p.fenced k || k ≥ 16 then p
  else
    let p := p.coarseBatch k
    if p.blocksFull k then p
    else match (p.core k).nextTile with
      | none => p
      | some t =>
        if parity then
          let js := (t.jobs.filter (· ≠ 0)).eraseDups
          let p1 := js.foldl (fun p j => p.endJob j stABORTED (some k)) p
          { p1.modCore k (fun c => { c with tiles := c.tiles.filter (fun x => x.handle != t.handle) }) with
            out := p1.out ++ [.fault (16 * k + 2)] }
        else
          let cells := (t.passCells t.next).map (fun c => let y := t.output c.1 c.2; (c.1, c.2, y.1, y.2))
          let rows := (cells.map (fun c => c.1)).eraseDups
          let p1 := p.chargePass k t
          let p2 := match t.out with
            | none => p1
            | some o => cells.foldl (fun (p : Pipe) c =>
                p.plateWrite k (o.addr + c.1 * o.stride + 4 * c.2.1) (leBytes 4 c.2.2.1.toNat)) p1
          let p3 := if t.sel.isEmpty then p2 else rows.foldl (fun (p : Pipe) i =>
            let es := t.rowEntries ((p.core k).stageSel (t.sel.getD i 0)) cells i
            let j := t.jobs.getD i (t.jobs.headD 0)
            if j = 0 && !t.jobs.isEmpty then p.modCore k (fun c => { c with stray := c.stray + es.length })
            else p.deliver k (t.sel.getD i 0) .tile j es) p2
          let acc := t.acc ++ (match t.use with
            | .layer _ _ => cells.map (fun c => let id := t.ids.getD c.2.1 (0, 0); (c.1 + id.2, id.1, c.2.2.1))
            | .plain => [])
          if t.next + 1 < t.passes then
            p3.modCore k (fun c => { c with tiles := c.tiles.map (fun x =>
              if x.handle = t.handle then { x with next := x.next + 1, acc := acc } else x) })
          else
            let p4 := p3.modCore k (fun c => { c with tiles := c.tiles.filter (fun x => x.handle != t.handle) })
            match t.use with
            | .layer j l => p4.layerDone j l acc
            | .plain => p4

/-- DEROTATOR (R179, R180): the next waiting vector by group and order of arrival; a parity error ends its job. A graph
query goes on to its walks. -/
def derotator (k : Nat) (parity : Bool) (p : Pipe) : Pipe :=
  if p.fenced k then p
  else
    let ws := (p.core k).derot
    match [0, 1, 2].findSome? (fun g => ws.find? (fun w => w.group == g)) with
    | none => p
    | some w =>
      let p1 := p.modCore k (fun c => { c with derot := c.derot.erase w })
      if parity then ({ p1 with out := p1.out ++ [.fault (16 * k + 2)] } : Pipe).endJob w.job stABORTED (some k)
      else if w.group = 2 then p1.derotIngest w.job
      else
        let p2 := p1.derotQuery w.job
        match p2.jobAt w.job .derot with
        | none => p2
        | some jb => match p2.idxOf jb with
          | some x => if x.desc.graph then p2.enterWalk w.job else p2
          | none => p2

end Sys2Proof.Machine
end

