-- ==== Sys2Proof/Machine/Restore.lean ====
section
/-!
DEFINITION. Sys2Proof/Machine/Restore.lean: what flash keeps over a reset, and the restore of the indexes at the next start
(R318, R393, R420, R426, R427, table "Power loss and reset, at the next start").
-/
namespace Sys2Proof.Machine

/-! ## What flash keeps (R399, R411, R426, R575) -/

/-- An extent as the next start finds it: an open one is sealed, and marked for scrub repair when its last row has no parity
page; a move that was not committed leaves its source as it was. -/
def Extent.found (x : Extent) : Extent :=
  match x.st with
  | .open_ => { x with st := .sealed, marked := x.marked || decide (x.fill % 252 ≠ 0), readers := [], waits := [] }
  | .moving => { x with st := .sealed, readers := [], waits := [] }
  | _ => { x with readers := [], waits := [] }

/-- The sources of the compactions that had been committed, and the rewrites that they still owe (table "Power loss and reset,
at the next start"). -/
def FlashPart.committed (f : FlashPart) : List Nat :=
  f.maint.filterMap (fun m => match m with | .compact s _ true => some s | _ => none)
def FlashPart.owedMoves (f : FlashPart) : List (Nat × Nat × Nat × Nat) :=
  f.committed.flatMap (fun s => (f.copiesOf s).map (fun c => (s, c.1, c.2.1, c.2.2)))

/-- The log entries of the batches that are programmed whole (R575). -/
def FlashPart.wholeBatches (f : FlashPart) : List LogEnt :=
  f.log.filter (fun e => !f.log.any (fun x => x.queue == e.queue && x.tag == e.tag && !x.programmed))

/-- The flash of a partition as the next start finds it: log entries not programmed are lost (R426), targets of moves not
committed are free again. -/
def FlashPart.found (f : FlashPart) : FlashPart :=
  let targets := f.maint.filterMap (fun m => match m with | .relocate _ t _ => some t | _ => none)
  let exts := f.exts.map (fun x => (x.1,
    if targets.contains x.1 then { x.2 with st := .free, readers := [], waits := [] }
    else if f.committed.contains x.1 then { x.2 with st := .retiring, live := 0, readers := [], waits := [] }
    else x.2.found))
  let log := (f.log.filter (·.programmed)).map (fun e => { e with paged := true, note := if e.noted then e.note else none })
  let tags := f.wholeBatches.foldl (fun (t : Tbl Nat) e => t.set e.queue e.tag) f.durable
  { FlashPart.reset with
    exts := exts, oseq := f.oseq, tags := f.tags, log := log, nextSeq := f.nextSeq, sparesUsed := f.sparesUsed,
    moved := f.moved ++ f.owedMoves, luns := f.luns, journal := f.journal, jseq := f.jseq, loss := f.tail, durable := if f.tail > 0 then tags else f.durable }

/-- NAND flash over a reset; what an earlier reset left stands until firmware has read it at boot stage FLASH. -/
def Pipe.nandKept (p : Pipe) : Nand :=
  if p.nand.parts.isEmpty then { p.nand with parts := p.parts.map (fun q => q.flash.found) } else p.nand

/-- The pipeline after a reset: everything is lost but the NAND flash (R133, R610). -/
def Pipe.afterReset (p : Pipe) : Pipe := Pipe.reset p.variant64 p.nandKept p.media

/-! ## Boot stage FLASH (R427, R428) -/

/-- The flush record that the start acts on: the last one, or a substitute when journal pages follow it (R427).
DEDUCED, log 66. -/
def Nand.record (n : Nand) : Option (Nat × BitVec 8 × Bool) :=
  match n.lastPage with
  | some pub => some (pub, 0#8, true)
  | none => n.flush

/-- The published epoch to restore (R86). DEDUCED, log 66. -/
def Nand.pub (n : Nand) : Nat := match n.record with | some (pub, _, _) => pub | none => 0

/-- The rows that a loss left half written are closed: the extents that it left open have been sealed (R399). -/
def Pipe.padFound (p : Pipe) (k : Nat) : Pipe :=
  (((p.flash k).exts.filter (fun x => x.2.st == .sealed && x.2.marked)).map Prod.fst).foldl (fun p e => p.padRow k e) p

/-- A factory-bad block at a position of an extent, read at the first training of partition k (R411): it takes a spare; an
extent that can take none is never used. -/
def Pipe.factoryBad (p : Pipe) (m : Nat × Nat × Nat) : Pipe :=
  let (k, e, pos) := m
  if k ≥ 16 || e ≥ (p.flash k).next then p
  else match p.remapBlock k e (pos % 64) false with
    | (p1, true) => p1
    | (p1, false) => (p1.modFlash k (fun f => f.modExt e (fun x => { x with st := .retired }))).journalExt k e .retire

/-- The extent maps are rebuilt, the flush record settled and losses journalled (R401, R402, R411, R420, R426, R427): `found.next`
extents in each partition of `luns` LUNs, `factory` the blocks (partition, extent, position) with a factory bad-block mark, `gone`
what no read yields, and `pair` the cell-mode pair of the settings (R574). -/
def Pipe.flashStage (p : Pipe) (found : FlashFound) (pair : Option (List Nat)) : Pipe :=
  let pub := p.nand.pub
  let first := p.nand.parts.all (fun f => f.jseq == 0)
  let parts := p.parts.mapIdx (fun k q =>
    { q with flash := { (p.nand.parts.getD k FlashPart.reset) with next := found.next, luns := found.luns }, pub := pub, pend := pub + 1 })
  let p1 : Pipe := { p with parts := parts, pair := pair, nand := { p.nand with parts := [], flush := p.nand.record, lastPage := none, gone := found.gone } }
  let lost := ((List.range 16).filter (fun (k : Nat) => decide ((p1.flash k).loss > 0))).foldl (fun (p : Pipe) k =>
    p.journal k .records [.loss (p.flash k).loss]) p1
  let padded := (List.range 16).foldl Pipe.padFound lost
  if first then found.factory.foldl Pipe.factoryBad padded else padded

/-! ## Tier entries (R393) -/

/-- A page of the checkpoint as the restore leaves it before pages are moved in. -/
def TierEnt.restored (e : TierEnt) (moveIn : Bool) : TierEnt :=
  let e0 := { e with dirty := false, ref := false }
  if e.discard then { e0 with st := .zero, loc := none }
  else match e.st with
    | .unmapped | .zero => e0
    | .flash | .in_ => { e0 with st := .flash }
    | .hbm | .out => if e.loc.isNone then { e0 with st := .zero } else { e0 with st := if moveIn then .hbm else .flash }

/-- The frame of a restored HBM page, filled from its flash copy. DESIGN CHOICE, log 68. -/
def Pipe.fillFrame (p : Pipe) (e : TierEnt) : Pipe :=
  match e.st, e.loc with
  | .hbm, some (ex, po) =>
    let key := hbmKey e.home e.pc (e.frame * 65536)
    if (p.flash e.home).okLoc ex (16 * po) then
      { p with hbm := p.flashCopy e.home ex (16 * po) 16 p.hbm key }
    else { p with hbm := p.hbm.clear key 65536 }
  | _, _ => p

/-- The tier entries of a checkpoint: bank pages and PIN or PLATE pages that were HBM are moved in where their partition
passed training, and PLATE pages take their slots. -/
def Pipe.restoreTiers (p : Pipe) (c : Ckpt) : Pipe :=
  let up := fun (k : Nat) => (p.part k).trained
  let general := c.general.mapv (fun e => e.restored ((e.pin || e.plate) && up e.home))
  let bank := c.bank.mapv (fun e => e.restored (up e.home))
  let plates := (general.filter (fun e => e.2.plate)).map (fun e => some e.1)
  let p1 := { p with
    general := general, bank := bank, tables := c.tables, handles := c.handles,
    idx := c.idx.mapv (fun x => { x with dormant := false }),
    nextLoad := c.idx.freshFrom p.nextLoad, plateSlots := (plates ++ List.replicate 48 none).take 48,
    parts := p.parts.mapIdx (fun k q => { q with ordMap := c.ordMaps.getD k [], regions := c.regions.getD k [] }) }
  let p2 := (general.vals ++ bank.vals).foldl Pipe.fillFrame (Pipe.showTiers p1)
  let slot := fun (p : Pipe) (x : Nat × Option Nat) =>
    match x.2 with
    | none => p
    | some n =>
      let e := p.tier (.gen n)
      if e.st ≠ .hbm then p
      else
        let bs := p.hbm.readN (hbmKey e.home e.pc (e.frame * 65536)) 65536
        { p with plate := (List.range 16).foldl (fun m k => m.writeN (k * 2 ^ 25 + 0x1100000 + 65536 * x.1) bs) p.plate }
  (p2.plateSlots.mapIdx (fun i s => (i, s))).foldl slot p2

/-- TAIL of a piece as at the cut (R318 step 2). -/
def Pipe.setTail (p : Pipe) (x : PieceRef × Nat) : Pipe :=
  let (k, pc, a) := x.1
  let pages := p.bankPages k pc (a / 64 * 64) 64
  if !(p.part k).trained then p
  else
    let p1 := pages.foldl Pipe.bringIn p
    p1.bankPut k pc (a / 64 * 64) (hdrBytes { p1.hdrAt k pc a with tail := x.2 })

/-- Pieces that no index names are freed: copies that a compaction had not yet switched to (R314). -/
def Pipe.freeStray (p : Pipe) : Pipe :=
  let named := p.idx.vals.flatMap p.allPieces
  (List.range 16).foldl (fun (p : Pipe) k =>
    (((p.part k).ordMap.vals.map (fun m => (k, m.1, m.2.1))).eraseDups.filter (fun r => !named.contains r)).foldl Pipe.unmapPiece p) p

/-! ## Replay (R302, R318) -/

/-- The rows that carry one record on, once each: the engine, the Derotator, arrays, selection, directory slices, growth,
NBUs, end messages and page moves, none of them with an error. -/
def Pipe.replayTurn (p : Pipe) (k j : Nat) : Pipe :=
  let p1 := selServe k false (tilePass k false (derotator k false ((p.afterLog j).chooseFringe j)))
  let p2 := (p1.core k).sel.keys.foldl (fun p n => selClose k n false p) p1
  let p3 := pieceGrow j ((List.range 16).foldl (fun p i => dirLock i p) p2)
  let p4 := (List.range 16).foldl (fun (p : Pipe) i => (p.part i).nbus.keys.foldl (fun p pc =>
    nbuStamp i pc 0 RawErrs.none (nbuAppend i pc 0 RawErrs.none (nbuTake i pc 0 p))) p) p3
  (List.range 16).foldl (fun p i => pageMoveIn i 0 0 0 false (endMessage i p)) p4

/-- Turns until the record's batch is over (`fuel` bounds them). DEDUCED, log 65. -/
def Pipe.replayRun (p : Pipe) (k j : Nat) : Nat → Pipe
  | 0 => p
  | n + 1 => if (p.jobAt j .records).isNone then p else (p.replayTurn k j).replayRun k j n

/-- Replay one record of the log of partition k: it takes its noted U, or the pending epoch. -/
def Pipe.replayRecord (p : Pipe) (pend k : Nat) (e : LogEnt) : Pipe :=
  if (p.index e.index).isNone || !(p.part k).trained then p
  else
    let b : BDesc := { index := e.index, nrec := 1, vfmt := e.vfmt, repl := false, rconn := 0, dim := e.dim, tag := e.tag }
    let jb : Job := { Job.zero with
      batch := true, home := k, queue := e.queue, tag := e.tag, void := true, act := 1, phase := .records, b := b,
      idx := p.handles.get? e.index, records := [1], nextRec := 1, order := p.order }
    let (p1, j) := p.newJob jb
    let r := { ingRec j jb e.header e.vector e.seq false with n := 0 }
    let p2 := p1.modPart k (fun q => { q with recs := q.recs ++ [r], pend := e.note.getD pend })
    let p3 := (p2.replayRun k j 4096).letGo j
    { p3.modPart k (fun q => { q with pend := pend }) with jobs := p3.jobs.erase j }

/-- Merge the logs: each partition's in record order, and of the heads the one with the least U (R307). DEDUCED, log 65. -/
def mergeLogs (pend : Nat) : Nat → List (Nat × List LogEnt) → List (Nat × LogEnt)
  | 0, _ => []
  | n + 1, ls =>
    let u := fun (x : Nat × LogEnt) => x.2.note.getD pend
    let heads := ls.filterMap (fun l => l.2.head?.map (fun e => (l.1, e)))
    match heads with
    | [] => []
    | h :: hs =>
      let m := hs.foldl (fun b x => if u x < u b then x else b) h
      m :: mergeLogs pend n (ls.map (fun l => if l.1 = m.1 then (l.1, l.2.drop 1) else l))

/-- LIVE of every extent counted afresh from the restored records and tier entries (R407): units of a lost or repeated
write stay dead. -/
def Pipe.recountLive (p : Pipe) : Pipe :=
  let zero := fun (f : FlashPart) => { f with exts := f.exts.mapv (fun (x : Extent) => { x with live := 0 }) }
  let p1 := { p with parts := p.parts.map (fun (q : Part) => { q with flash := zero q.flash }) }
  let add := fun (p : Pipe) (k e n : Nat) =>
    if e < (p.flash k).next then p.modFlash k (fun f => f.modExt e (fun x => { x with live := x.live + n })) else p
  let p2 := p1.idx.vals.foldl (fun (p : Pipe) x => (p.allPieces x).foldl (fun (p : Pipe) (r : PieceRef) =>
    let h := p.hdrAt r.1 r.2.1 r.2.2
    (p.recordsOf r.1 r.2.1 h).foldl (fun (p : Pipe) (m : Nat × List Byte) =>
      if recExtent m.2 = 0xFFFFFF then p else add p r.1 (recExtent m.2) (unitsOf (fmtBytes x.drp.fvfmt x.desc.dim))) p) p) p1
  let p3 := (p2.general.vals ++ p2.bank.vals).foldl (fun (p : Pipe) (e : TierEnt) =>
    match e.loc with | some (ex, _) => add p e.home ex 16 | none => p) p2
  (List.range 16).foldl (fun (p : Pipe) k => (p.flash k).exts.keys.foldl (fun (p : Pipe) e => p.retireEmpty k e) p) p3

/-- The map of dirty pages of the last flush has been dealt with (R392): the replay has rebuilt what its pages held. -/
def Pipe.mapRead (p : Pipe) : Pipe := { p with nand := { p.nand with dirty := [], gone := [] } }

/-- Boot stage RESTORE (R318, R393): the indexes of the current checkpoint, with the log replayed upon them. The budgets
count nothing of it. No query or batch finds a graph index until host software has loaded it again (R344). The log records
that no read of the flash yields (Nand.gone) are skipped and counted (R409).
DEDUCED, log 64. -/
def Pipe.restore (p : Pipe) (pub : Nat) : Pipe :=
  match p.nand.ckpt with
  | none => p
  | some c =>
    let gone := p.nand.gone
    let st0 := p.parts.map (fun q => (q.st, q.sched))
    let p0 := { p with parts := p.parts.map (fun (q : Part) => if q.trained then { q with st := .serving } else q), oldest := min c.oldest pub }
    let p1 := (c.tails.foldl Pipe.setTail (p0.restoreTiers c)).freeStray
    let p2 := (List.range 16).foldl (fun (p : Pipe) k => (p.flash k).moved.foldl (fun (p : Pipe) m =>
      p.rewriteUnit k m.1 m.2.1 m.2.2.1 m.2.2.2) p) p1
    let all := (List.range 16).map (fun k => (k, (p2.flash k).log.filter (fun e => decide (e.seq ≥ c.cuts.getD k 0))))
    let logs := all.map (fun l => (l.1, l.2.filter (fun e => !gone.contains (l.1, e.seq))))
    let skipped := all.flatMap (fun l => (l.2.filter (fun e => gone.contains (l.1, e.seq))).map (fun _ => l.1))
    let n := (logs.map (fun l => l.2.length)).foldl (· + ·) 0
    let p3 := (mergeLogs (pub + 1) n logs).foldl (fun (p : Pipe) x => p.replayRecord (pub + 1) x.1 x.2) (skipped.foldl Pipe.unitLost p2)
    let p4 := p3.recountLive
    { p4 with
      idx := p4.idx.mapv (fun x => { x with dormant := x.desc.graph }),
      parts := p4.parts.mapIdx (fun k (q : Part) =>
        match st0[k]? with | some x => { q with st := x.1, sched := x.2 } | none => q) }

end Sys2Proof.Machine
end

