-- ==== Sys2Proof/Machine/Resets.lean ====
section
/-!
DEFINITION. Sys2Proof/Machine/Resets.lean: resets, function level resets, the boot stages and the hold-up flush
(chapters 13, 17 and 20).
-/
namespace Sys2Proof.Machine

/-! ## Package and power-on reset (R610 to R613, R643, R668) -/

/-- Everything outside the always-on block is restarted; the flash and the levels of the board's pins stay. MER_STAT reads its
reset value, CLK_OK 0, until MER_CLK edges are found (R89, R90; MER_CLK_RETURN). PRESUMED, log 9. DEDUCED, log 12. -/
def State.clear (s : State) : State :=
  { s with
    mer := Meridian.reset, pipe := s.pipe.afterReset, pcie := Pcie.reset, mbx := List.replicate 17 Mailbox.reset,
    coel := Coel.reset, fab := Fabric.reset, flush := Flush.reset, sb := { Sideband.reset with ext := s.sb.ext },
    dbg := Debug.reset, d2d := d2dReset,
    pwr := { Power.reset with
      good := s.pwr.good, perst := s.pwr.perst, trip := s.pwr.trip, pcieClk := s.pwr.pcieClk, fabClk := s.pwr.fabClk,
      onHold := !s.pwr.pcieClk } }

/-- A package reset takes effect (R610, R668): FCU_STAT, the trial timer and the THERMTRIP latch are kept.
DEDUCED, log 12. DEDUCED, log 48. -/
def State.packageReset (s : State) (why : LastRst) : State :=
  let s1 := s.clear
  { s1 with
    fcu := s.fcu.packageReset,
    boot := { Boot.reset with lastRst := why, trialRun := s.boot.trialRun, trialExpired := s.boot.trialExpired } }

/-- POWER_ON_RESET (R610, R613): VDD_AON rises, which clears the THERMTRIP latch (R607), or PWR_GOOD deasserts. -/
def execPowerOnReset (vddAon : Bool) (s : State) : Host.Outcome State Fault Refusal :=
  let s1 := s.clear
  let p := { s1.pwr with good := false, perst := true, trip := s.pwr.trip && !vddAon }
  .next { s1 with fcu := Fcu.reset, boot := Boot.reset, pwr := p }

/-- A package reset is asked for (R612): while the data path is enabled it waits for the flush. -/
def State.askReset (s : State) (after : AfterFlush) (why : LastRst) : State :=
  if s.flush.state = .flushing then { s with flush := { s.flush with after := after } }
  else if s.coel.dpen && s.works then s.startFlush after
  else s.packageReset why

/-- PACKAGE_RESET (R612): PERST_N asserts, and the PCIe link drops. -/
def execPackageReset (s : State) : Host.Outcome State Fault Refusal :=
  let s1 := { s with pwr := { s.pwr with perst := true }, pcie := { s.pcie with trained := false } }
  .next (if s.pwr.good then s1.askReset .perst .perst else s1)

/-- RST_CTL (R612, R642): the key starts a package reset. -/
def execRstCtl (v : W32) (s : State) : Host.Outcome State Fault Refusal :=
  .next (s.doWrite (fun s =>
    if v ≠ 0xB1C10001#32 then s
    else if s.flush.state = .flushing && s.flush.after = .perst then s
    else s.askReset .rstCtl .rstCtl))

/-! ## PCIe and function level resets (R454, R543, R544, R569) -/

/-- Entries of partition k that a function level reset frees: HOST rings of the VF, or of the PF. -/
def AlmEntry.flrHits (e : AlmEntry) (pf : Bool) : Bool :=
  !e.ias && e.kind != .frecv && e.pf == pf && e.state != .free

/-- The queues of partition k that a function level reset frees. -/
def Pipe.flrQueues (p : Pipe) (k : Nat) (pf : Bool) : List Nat :=
  ((p.part k).alm.entries.filter (fun x => x.2.flrHits pf)).map (fun x => k * 2 ^ 20 + x.1)

/-- These queues become FREE and their GEN counts on (R454). -/
def Pipe.flrEntries (p : Pipe) (k : Nat) (qs : List Nat) : Pipe :=
  let free := fun (p : Pipe) (q : Nat) =>
    (p.unlist q).modQueue q (fun e => { e with state := .free, gen := (e.gen + 1) % 65536, fetched := [] })
  (qs.foldl free p).modPart k (fun x =>
    { x with alm := { x.alm with aborts := x.alm.aborts.filter (fun (a : Nat × Nat × Nat) => !qs.contains a.1) } })

/-- The Almanac effects on partition k (R454): the queues become FREE, and their jobs end with ABORTED and no completion
entry. While the partition is fenced the reset is noted for its unfence. -/
def Pipe.flr (p : Pipe) (k : Nat) (pf : Bool) : Pipe :=
  let qs := p.flrQueues k pf
  let js := (p.jobs.filter (fun j => qs.contains j.2.queue && !j.2.frecv && j.2.peer.isNone)).map Prod.fst
  let p1 := js.foldl (fun (p : Pipe) j => p.modJob j (fun (y : Job) => { y with void := true })) p
  if p.fenced k then
    p1.modPart k (fun x =>
      { x with alm := { x.alm with flrVf := x.alm.flrVf || !pf, flrPf := x.alm.flrPf || pf } })
  else (js.foldl (fun p j => p.endJob j stABORTED none) p1).flrEntries k qs

/-- Objects of partition k with rings, buffers or space in a function's memory return to FREE or are destroyed (R543 step
3); no entry is written. A region keeps its tag. -/
def Fabric.flr (f : Fabric) (k func : Nat) : Fabric :=
  let space := if func = 0 then 0 else 1
  { f with
    conns := f.conns.filter (fun c => !(connHome c.1 == k && c.2.cfg.sfunc == func && (!c.2.cfg.sloc || !c.2.cfg.eloc))),
    rings := f.rings.filter (fun r => !(ringHome r.1 == k && !r.2.loc && r.2.func == func)),
    regions := f.regions.map (fun r =>
      (r.1, if regionHome r.1 = k && r.2.space = space then { r.2 with used := false } else r.2)) }

/-- Partition k as a function level reset of VF k + 1 or of the PF meets it. -/
def State.flrPart (s : State) (pf : Bool) (k : Nat) : State :=
  let s1 := { s with pipe := s.pipe.flr k pf }
  s1.withFab (s1.fab.flr k (if pf then 0 else k + 1), [])

/-- Mailbox m is disabled, and its commands that have not committed are discarded, with the responses of those that have
(R543 step 2). DEDUCED, log 51. DEDUCED, log 52. -/
def State.flrMbx (s : State) (m : Nat) : State :=
  let gone := (s.coel.running.filter (fun r => r.2.req.mb == m)).map Prod.fst
  { s with
    mbx := modNth s.mbx m Mailbox.blockReset,
    coel := { s.coel with
      running := s.coel.running.filter (fun r => r.2.req.mb != m),
      waiters := s.coel.waiters.filter (fun w => w.req.mb != m) },
    pipe := { s.pipe with edits := s.pipe.edits.filter (fun (e : Nat × Nat × Bool) => !gone.contains e.1) } }

/-- The function's own PCIe state returns to reset: bus mastering, power state, MSI-X table, and the writes it held.
DEDUCED, log 52. -/
def State.flrFunc (s : State) (func : Nat) : State :=
  let mine := fun (o : Out) => match o with | .write f _ _ _ => f == func | _ => false
  { s with pcie := { s.pcie with
      bme := setNth s.pcie.bme func false, d3 := setNth s.pcie.d3 func false,
      held := s.pcie.held.filter (fun o => !mine o),
      unmasked := s.pcie.unmasked.filter (fun x => x.1 != func), pend := s.pcie.pend.filter (fun x => x.1 != func) } }

/-- R543 for VF k + 1. -/
def State.flrVf (s : State) (k : Nat) : State := ((s.flrPart false k).flrMbx (k + 1)).flrFunc (k + 1)

/-- R543 for every VF, which no longer exist (R544). -/
def State.flrVfs (s : State) : State :=
  let s1 := (List.range 16).foldl State.flrVf s
  { s1 with pcie := { s1.pcie with vfEnable := false } }

/-- R544: the PF and every VF, and DBG_CTL (R675). DEDUCED, log 51. -/
def State.flrPf (s : State) : State :=
  let s1 := (((List.range 16).foldl (State.flrPart · true) s).flrMbx 0).flrFunc 0
  { s1.flrVfs with dbg := { s1.dbg with injEn := false } }

/-- Can a function be reset: the package is out of reset and not in the safe state? -/
def State.pcieUp (s : State) : Bool := s.boot.stage ≠ .reset && !s.fcu.safe

/-- The PCIe link goes down (R544, R610, R425): the effects of a reset of the PF; a flush latches LINK. -/
def State.linkReset (s : State) : State :=
  let s1 := s.flrPf
  { s1 with
    pcie := { s1.pcie with trained := false },
    flush := if s.flush.state = .flushing then { s1.flush with alarms := s1.flush.alarms ||| 0x20#8 } else s1.flush }

/-- PCIE_LINK_RESET (R544, R610). -/
def execPcieLinkReset (s : State) : Host.Outcome State Fault Refusal :=
  .next (if s.pcieUp && s.pcie.trained then s.linkReset.settle else s)

/-- FUNCTION_LEVEL_RESET of VF k + 1 (R543). -/
def execFunctionLevelReset (k : Nat) (s : State) : Host.Outcome State Fault Refusal :=
  .next (if s.pcieUp && s.pcie.vfEnable && k < 16 then (s.flrVf k).settle else s)

/-- PF_FUNCTION_LEVEL_RESET (R544). -/
def execPfFunctionLevelReset (s : State) : Host.Outcome State Fault Refusal :=
  .next (if s.pcieUp then s.flrPf.settle else s)

/-- VF_ENABLE_CLEAR (R544). -/
def execVfEnableClear (s : State) : Host.Outcome State Fault Refusal :=
  .next (if s.pcieUp && s.pcie.vfEnable then s.flrVfs.settle else s)

/-! ## Boot (R615 to R622, R629, R635) -/

/-- The ROM starts on Coelostat core 0 (R618). -/
def State.startRom (s : State) : State :=
  { s with pwr := { s.pwr with perst := false }, boot := { s.boot with stage := .rom } }

/-- BOOT_START (R612, R618): PERST_N is deasserted and no flush runs. A package that the rails took to the safe state while
PERST_N was asserted leaves it with that reset (R598, R657). DEDUCED, log 49. -/
def execBootStart (s : State) : Host.Outcome State Fault Refusal :=
  .next (
    if !s.pwr.good || s.flush.state = .flushing then s
    else if s.boot.stage = .reset then s.startRom
    else if s.fcu.safe && s.pwr.perst then (s.packageReset s.boot.lastRst).startRom
    else s)

/-- What the ROM chose (R617, R639, R642): the image that starts, on trial or not, or recovery. -/
def State.romEnd (s : State) (r : RomEnd) : State :=
  let c := r.nor.cb
  let b := { s.boot with
    trialExpired := false, err := if r.err ≠ 0 then r.err else s.boot.err, fellBack := s.nor.cb.trial && !c.trial }
  match r.start with
  | none =>
    { s with
      nor := r.nor, coel := { s.coel with state := .rom },
      boot := { b with stage := .recovery, trialRun := false, trial := false, version := 0, digest := List.replicate 48 0#8 } }
  | some slot =>
    { s with nor := r.nor, boot := { b with slot := slot, trial := c.trial, unconf := c.count, trialRun := c.trial } }

/-- NOR_READ (R615 to R617): boot stages NOR_READ and VERIFY end. -/
def execNorRead (present : Bool) (s : State) : Host.Outcome State Fault Refusal :=
  .next (if s.works && s.boot.stage = .rom then
      let s1 := s.romEnd (romChoose { s.nor with present := present } s.boot.trialExpired)
      if s1.boot.stage = .recovery then s1 else { s1 with boot := { s1.boot with stage := .fwStart } }
    else s)

/-- A settings copy, and writing or erasing it: true is S1. -/
def Nor.setting (n : Nor) (b : Bool) : Option Settings := if b then n.s1 else n.s0
/-- DESIGN CHOICE, log 53. -/
def Nor.putSetting (n : Nor) (b : Bool) (x : Option Settings) : Nor := if b then { n with s1 := x } else { n with s0 := x }

/-- The valid copy with the highest SSEQ among those that pass a test. DESIGN CHOICE, log 54. -/
def Nor.bestSetting (n : Nor) (ok : Settings → Bool) : Option (Bool × Settings) :=
  match n.s0.filter ok, n.s1.filter ok with
  | none, none => none
  | some a, none => some (false, a)
  | none, some b => some (true, b)
  | some a, some b => if a.seq < b.seq then some (true, b) else some (false, a)

/-- Settings of an image that starts (R629): the flash after it, and the copy in force. `own` is the image's SETVER.
DESIGN CHOICE, log 53. -/
def Nor.takeSettings (n : Nor) (own : Nat) (trial first fell : Bool) : Nor × Bool :=
  match n.bestSetting (fun _ => true) with
  | none => (n.putSetting false (some { seq := 1, setver := own, pair := none, sbFunc := 0 }), false)
  | some (b, x) =>
    if fell then
      let keep := if (n.setting (!b)).isSome then !b else b
      (n.putSetting (!keep) none, keep)
    else
      let copy := n.putSetting (!b) (some { x with seq := x.seq + 1, setver := own })
      match n.bestSetting (fun y => y.setver == own) with
      | some (c, _) => if trial && first then (copy, !b) else (n, c)
      | none =>
        if trial then (copy, !b)
        else (n.putSetting (!b) (some { seq := x.seq + 1, setver := own, pair := none, sbFunc := 0 }), !b)

/-- The running image takes its settings (R629). -/
def State.takeSettings (s : State) : State :=
  let r := s.nor.takeSettings (s.nor.imageSetver s.boot.slot) s.boot.trial (s.boot.unconf == 1) s.boot.fellBack
  { s with nor := r.1, boot := { s.boot with useS1 := r.2, fellBack := false } }

/-- The settings in force. DESIGN CHOICE, log 54. -/
def State.settings (s : State) : Settings :=
  (s.nor.setting s.boot.useS1).getD { seq := 0, setver := 0, pair := none, sbFunc := 0 }

/-- The version and digest registers show the running image (R642). -/
def State.showImage (s : State) : State :=
  { s with boot := { s.boot with version := s.nor.imageVersion s.boot.slot, digest := s.nor.imageDigest s.boot.slot } }

/-- FW_START (R618, R623): firmware runs, COEL_STAT reads TRAINING, and the entropy source starts. -/
def execFwStart (s : State) : Host.Outcome State Fault Refusal :=
  .next (if s.works && s.boot.stage = .fwStart then
      let s1 := s.showImage.takeSettings
      { s1 with
        coel := { s1.coel with state := .training }, boot := { s1.boot with stage := .clocks, entropy := false } }
    else s)

/-- Partitions that fail a training step stay FENCED, and BOOT_STAT.ERR reads TRAIN (R619). DESIGN CHOICE, log 63. -/
def State.failTraining (s : State) (bad : List Nat) : State :=
  if bad.isEmpty then s
  else { s with
    pipe := bad.foldl (fun (p : Pipe) k => p.modPart k (fun q => { q with trained := false })) s.pipe,
    boot := { s.boot with err := 8 } }

/-- Sources of links that trained with failed lanes, and of those that did not train (R589 table, R600, R601). -/
def linkSources (ls : List D2dLink) : List Nat :=
  (ls.mapIdx (fun i l => if !l.up then [276 + i] else if l.failed.any (fun m => !m.isEmpty) then [264 + i] else [])).flatten

/-- CLOCKS (R38, R39, R599, R609, R618, R652): the links trained, `lanes` the lanes (link, module, lane) that failed.
DESIGN CHOICE, log 63. -/
def execClocks (lanes : List (Nat × Nat × Nat)) (s : State) : Host.Outcome State Fault Refusal :=
  .next (if s.works && s.boot.stage = .clocks then
      let ls := (lanes.filter (fun x => decide (x.2.2 < 66))).foldl (fun (ls : List D2dLink) x =>
        modNth ls x.1 (fun l => l.failLane x.2.1 x.2.2)) (d2dReset.map (fun l => { l with trained := true }))
      let s1 := { s with
        d2d := ls, sb := s.sb.writeFunc s.settings.sbFunc, boot := { s.boot with stage := .hbm },
        pwr := s.pwr.ungate }
      let cut := unreachSources ls
      ((s1.failTraining (cut.map (· / 16))).raise (linkSources ls ++ cut)).settle
    else s)

/-- HBM (R230, R618, R619): the memory zeroed and the standard kernels loaded; `bad` the partitions whose stack failed.
DESIGN CHOICE, log 63. -/
def execHbm (bad : List Nat) (s : State) : Host.Outcome State Fault Refusal :=
  .next (if s.works && s.boot.stage = .hbm then
      { s with pipe := { s.pipe with hbm := [], poison := [] }, boot := { s.boot with stage := .flash } }.failTraining
        (bad.filter (· < 16))
    else s)

/-- FLASH (R86, R401, R420, R425 to R428, R618, R619): the channels trained but for those of the partitions `bad`, the
power-loss actions done, and the published epoch restored. A partition has 64, 32 or 16 LUNs (R402).
DESIGN CHOICE, log 63. -/
def execFlash (bad : List Nat) (found : FlashFound) (s : State) : Host.Outcome State Fault Refusal :=
  .next (if s.works && s.boot.stage = .flash && (found.luns = 64 || found.luns = 32 || found.luns = 16) then
      let pub := s.pipe.nand.pub
      let last := match s.pipe.nand.record with
        | none => (0, 0#8)
        | some (_, a, inc) => (if inc then 2 else 1, a)
      let bad := bad.filter (· < 16)
      let s1 := { s with
        mer := { s.mer with pub := pub, pend := pub + 1 }, pipe := s.pipe.flashStage found s.settings.pair,
        flush := { s.flush with lastOutcome := last.1, lastAlarms := last.2 }, boot := { s.boot with stage := .restore } }
      ((s1.failTraining bad).raise (bad.map (fun k => 16 * k + 3))).settle
    else s)

/-- Does an image in a slot pass R616, with the length of its download (R635)? -/
def Nor.slotOk (n : Nor) (slot : Bool) : Bool :=
  n.imageOk slot && (match n.dl with | some (l, _) => n.imageLen slot == l | none => true)

/-- A COMPLETE slot is verified (R635): it becomes VERIFIED, or FAILED with the download state erased. DEDUCED, log 59. -/
def Nor.verifySlot (n : Nor) (slot : Bool) : Nor × Bool :=
  if n.slotOk slot then (n.writeCb (n.cb.setState slot .verified), true)
  else ({ n.writeCb (n.cb.setState slot .failed) with dl := none }, false)

/-- RESTORE (R318, R393, R618, R635): the indexes are restored, and a slot that the start found COMPLETE is verified. -/
def execRestore (s : State) : Host.Outcome State Fault Refusal :=
  .next (if s.works && s.boot.stage = .restore then
      let target := !s.nor.cb.active
      { s with
        pipe := (s.pipe.restore s.mer.pub).mapRead, boot := { s.boot with stage := .ready },
        nor := if s.nor.cb.state target = .complete then (s.nor.verifySlot target).1 else s.nor }
    else s)

/-- No set bit has the reaction safe state (R598). -/
def Fcu.clearOfSafe (f : Fcu) : Bool := f.sources.all (fun x => f.reaction x != .safe)

/-- READY (R598, R618, R621): COEL_STAT reads READY, and the partitions that passed training are SERVING.
DEDUCED, log 76. -/
def execReady (s : State) : Host.Outcome State Fault Refusal :=
  .next (if s.works && s.boot.stage = .ready && s.coel.state = .training && s.fcu.clearOfSafe then
      { s with
        coel := { s.coel with state := .ready },
        pipe := ({ s.pipe with parts := s.pipe.parts.map (fun (q : Part) =>
          if q.trained then { q.clearRegs with flash := q.flash, st := .serving, pub := s.mer.pub, pend := s.mer.pend, watchNo := s.mer.watchNo } else q) }
          : Pipe).sendMarkers (List.range 16) s.mer.pub }
    else s)

/-! ## Pins (R593, R607, R622) -/

/-- NODE_READY is driven high. -/
def State.nodeReady (s : State) : Bool :=
  s.coel.dpen && s.coel.state ≠ .rom && s.works && (s.pipe.parts.any (fun q => q.st == .serving))

/-- ALERT_N and THERMTRIP_N are asserted. -/
def State.alertPin (s : State) : Bool := s.pwr.good && s.fcu.alert
def State.tripPin (s : State) : Bool := s.pwr.trip

/-! ## The flush (R422 to R427, R612, R620, R659) -/

/-- HOLDUP_N asserts before the data path is enabled: no flush; programs and erases end, and the package is inert (R620). -/
def State.holdInert (s : State) : State :=
  { s with
    pipe := (List.range 16).foldl (fun (p : Pipe) k => p.finishPrograms k (p.flash k).progs.length) s.pipe,
    flush := { s.flush with holdup := true, inertDone := true } }

/-- HOLDUP (R422, R423, R620, R659): HOLDUP_N counts as asserted, or no longer. -/
def execHoldup (asserted : Bool) (s : State) : Host.Outcome State Fault Refusal :=
  let s1 := { s with flush := { s.flush with holdup := asserted } }
  .next (
    if !asserted then s1
    else if !s.pwr.good || s.boot.stage = .reset || s.fcu.safe then s
    else if s.flush.state ≠ .idle || s.flush.inertDone then s1
    else if s.coel.dpen then s1.startFlush .stay
    else s.holdInert)

/-- Pages of partition k that are dirty (R392). -/
def Pipe.dirtyOf (p : Pipe) (k : Nat) : List PageId :=
  (p.general.filter (fun e => e.2.home == k && e.2.dirty)).map (fun e => PageId.gen e.1)
    ++ (p.bank.filter (fun e => e.2.home == k && e.2.dirty)).map (fun e =>
        PageId.bank (e.1 / 2 ^ 20) (e.1 / 2 ^ 14 % 64) (e.1 % 2 ^ 14))

/-- The final program of a part of partition k's flush ends (R423 step 4): the log tail, whose last row is padded and has its
parity page (R399), the journal tail with the notes, the map of dirty pages. -/
def Pipe.flushed (p : Pipe) (k part : Nat) : Pipe :=
  match part with
  | 0 =>
    let p1 := (p.pageLog k true).1
    let p2 := match (p1.flash k).openLog with | some e => p1.padRow k e | none => p1
    p2.modFlash k (fun f => { f with
      progs := f.progs.filter (fun g => match g with | .logPage _ => false | _ => true),
      log := f.log.map (fun e => { e with programmed := e.paged, noted := e.note.isSome && e.paged }) })
  | 1 => p.journal k .records (((p.flash k).log.filter (·.noted)).map (fun e => .note e.seq (e.note.getD 0)))
  | _ => { p with nand := { p.nand with dirty := (p.nand.dirty.filter (fun g => !(p.dirtyOf k).contains g)) ++ p.dirtyOf k } }

/-- FLUSH_PART_DONE of partition k (R423 step 4). -/
def execFlushPartDone (k : Nat) (s : State) : Host.Outcome State Fault Refusal :=
  let n := s.flush.parts.getD k 3
  .next (if s.flush.state = .flushing && n < 3 then
      { s with pipe := s.pipe.flushed k n, flush := { s.flush with parts := setNth s.flush.parts k (n + 1) } }
    else s)

/-- The flush record: a FLUSH page in the journal of the first partition that is not fenced (R423 step 5). DESIGN CHOICE,
log 67. -/
def Pipe.flushPage (p : Pipe) (pub : Nat) (alarms : BitVec 8) : Pipe :=
  let p1 := match (List.range 16).find? (fun k => !p.fenced k) with
    | some k => p.journal k .flush [.flush alarms false]
    | none => p
  { p1 with nand := { p1.nand with flush := some (pub, alarms, false), lastPage := none } }

/-- FLUSH_RECORD (R423 steps 5 and 6, R595, R612): the record is programmed, and what waited for the flush follows. -/
def execFlushRecord (s : State) : Host.Outcome State Fault Refusal :=
  .next (if s.flush.state = .flushing && s.flush.parts.all (· == 3) then
      let s1 := { s with
        pipe := s.pipe.flushPage s.mer.pub s.flush.alarms,
        flush := { s.flush with state := .done, inertDone := true } }
      match s.flush.after with
      | .perst => s1.packageReset .perst
      | .rstCtl => s1.packageReset .rstCtl
      | .stay => if s.fcu.parityWaits then s1.enterSafe else s1
    else s)

end Sys2Proof.Machine
end

