-- ==== Sys2Proof/Machine/CmdOps.lean ====
section
/-!
DEFINITION. Sys2Proof/Machine/CmdOps.lean: how mailbox commands are taken, ordered, started, gated, deferred and answered
(chapters 17 and 18).
-/
namespace Sys2Proof.Machine

/-! ## The request slot (R560) -/

/-- GEN, HLEN and HADDR of a request; PART and ALLP, which only MBG names; ORDER. -/
def Request.gen (r : Request) : Nat := le16 r.slot 8
def Request.hlen (r : Request) : Nat := le32 r.slot 12
def Request.haddr (r : Request) : Nat := le64 r.slot 16
def Request.part (r : Request) : Nat := if r.mb = 0 then field r.slot 16 4 else r.mb - 1
def Request.order (r : Request) : Bool := fbit r.slot 21

/-- Payload fields, by slot byte: one byte, two, four, eight. -/
def Request.b (r : Request) (off : Nat) : Nat := field r.slot (8 * off) 8
def Request.h (r : Request) (off : Nat) : Nat := le16 r.slot off
def Request.w (r : Request) (off : Nat) : Nat := le32 r.slot off
def Request.d (r : Request) (off : Nat) : Nat := le64 r.slot off
/-- A three-byte and a six-byte field. -/
def Request.q (r : Request) (off : Nat) : Nat := field r.slot (8 * off) 24
def Request.e (r : Request) (off : Nat) : Nat := field r.slot (8 * off) 48

/-- A count whose 0 decodes as 1 (R561). -/
def count1 (v : Nat) : Nat := max v 1

/-- The commands that use ALLP (R566). -/
def allpOps : List Nat := [0x0407, 0x0408, 0x040B, 0x0606, 0x0301, 0x0303, 0x0305, 0x0404]

/-- ALLP is set on a command that uses it, sent on MBG (R566). -/
def Request.allp (r : Request) : Bool := r.mb = 0 && allpOps.contains r.opcode && fbit r.slot 20

/-- Partitions that a command of scope P acts on (R566). -/
def Request.targets (r : Request) : List Nat := if r.allp then List.range 16 else [r.part]

/-- The commands that core 0 serves (R552), those that the ROM serves on MBG (R578), and every opcode of the catalogue. -/
def core0Ops : List Nat := [0x0101, 0x0102, 0x0103, 0x0104]
def romOps : List Nat := [0x0002, 0x0A01, 0x0A02, 0x0A03, 0x0A05]
def knownOps : List Nat :=
  [1, 2, 3, 4, 0x0101, 0x0102, 0x0103, 0x0104, 0x0105, 0x0201, 0x0202, 0x0203, 0x0204, 0x0205, 0x0206, 0x0207, 0x0208,
   0x0301, 0x0302, 0x0303, 0x0304, 0x0305, 0x0306]
  ++ (List.range 11).map (· + 0x0401) ++ (List.range 3).map (· + 0x0501) ++ (List.range 7).map (· + 0x0601)
  ++ [0x0701, 0x0702] ++ (List.range 12).map (· + 0x0801) ++ (List.range 4).map (· + 0x0901)
  ++ (List.range 6).map (· + 0x0A01)

/-! ## The host buffer (R562) -/

/-- The first `n` bytes of the host buffer, zeros beyond HLEN; none when the read fails. DESIGN CHOICE, log 15. -/
def Request.buffer (r : Request) (host : HostData) (n : Nat) : Option (List Byte) :=
  if min n r.hlen = 0 then some (List.replicate n 0#8) else host.map (fun b => padTo n (b.take r.hlen))

/-- Write the host buffer: RLEN, and whether the write succeeded. `host` none says that it fails. DESIGN CHOICE, log 15. -/
def State.toBuffer (s : State) (r : Request) (host : HostData) (bytes : List Byte) : State × Nat × Bool :=
  let n := min bytes.length r.hlen
  if n = 0 then (s, 0, true)
  else if host.isNone then (s, 0, false)
  else (s.hostWrite r.mb r.haddr (bytes.take n), n, true)

/-- An answer with what the host buffer took. -/
def bufferAnswer (w : Nat × Bool) (payload : List Byte) : Answer :=
  if w.2 then { status := stOK, rlen := w.1, payload := payload } else Answer.of stHOST

/-! ## Objects of commands (R564) -/

/-- The object of a command: a kind, a range of numbers, and the partitions in which it lies, none for the package. -/
structure CmdObj where
  kind : Nat
  lo : Nat
  len : Nat
  parts : Option (List Nat)
  deriving DecidableEq, Repr

def CmdObj.pkg (kind lo len : Nat) : CmdObj := { kind := kind, lo := lo, len := len, parts := none }

/-- Do two commands name one object? -/
def CmdObj.meets (a b : CmdObj) : Bool :=
  a.kind == b.kind && decide (a.lo < b.lo + b.len) && decide (b.lo < a.lo + a.len)
    && (match a.parts, b.parts with | some x, some y => x.any y.contains | _, _ => true)

/-- Page ranges of the index address space: the first page and how many. -/
def pageSpan (addr bytes : Nat) : Nat × Nat := (addr / 65536, (addr + max bytes 1 - 1) / 65536 - addr / 65536 + 1)

/-- The object that a command names; kinds are numbered here. A command that changes nothing and names nothing has none.
DESIGN CHOICE, log 82. -/
def Request.object (r : Request) : Option CmdObj :=
  let at_ := fun (kind lo len : Nat) => some (CmdObj.pkg kind lo len)
  let inP := fun (kind lo len : Nat) => some { kind := kind, lo := lo, len := len, parts := some r.targets : CmdObj }
  let op := r.opcode
  if 0x0201 ≤ op && op ≤ 0x0208 then at_ 1 (r.q 32) 1
  else if op = 0x0702 then (if r.q 32 = 0xFFFFFF then none else at_ 1 (r.q 32) 1)
  else if op = 0x0301 || op = 0x0302 then inP 2 (r.h 32) 1
  else if op = 0x0303 || op = 0x0304 then inP 3 0 1
  else if op = 0x0305 || op = 0x0306 then inP 4 0 1
  else if op = 0x0104 then at_ 5 (r.h 32) 1
  else if op = 0x0105 then at_ 5 (r.h 32) (count1 (r.b 34))
  else if (0x0401 ≤ op && op ≤ 0x0404) || op = 0x0409 then at_ 6 (r.h 32) 1
  else if op = 0x0407 || op = 0x0408 then inP 7 (r.h 32) (count1 (r.h 34))
  else if op = 0x040A then at_ 8 (r.h 32) 1
  else if op = 0x0501 then at_ 9 (r.b 32) 1
  else if op = 0x0502 then at_ 10 0 1
  else if op = 0x0503 then at_ 11 (r.b 32) 1
  else if op = 0x0601 || op = 0x0602 || op = 0x0605 then at_ 12 (r.d 32 / 65536) (count1 (r.w 40))
  else if op = 0x0603 || op = 0x0604 then at_ 12 (pageSpan (r.d 32) r.hlen).1 (pageSpan (r.d 32) r.hlen).2
  else if op = 0x0801 || op = 0x0802 then at_ 13 (r.b 32 % 8) 1
  else if op = 0x0803 || op = 0x0804 then at_ 14 (r.h 32) 1
  else if op = 0x0805 || op = 0x0806 then at_ 15 (r.q 32) 1
  else if op = 0x0807 || op = 0x0808 then at_ 16 (r.h 32) 1
  else if op = 0x0809 then at_ 17 0 (2 ^ 18)
  else if 0x080A ≤ op && op ≤ 0x080C then at_ 17 (r.q 32 % 2 ^ 18) 1
  else if op = 0x0901 || op = 0x0902 then at_ 18 r.part 1
  else if op = 0x0903 then at_ 19 (r.h 32) (count1 (r.h 34))
  else if 0x0A01 ≤ op && op ≤ 0x0A06 then at_ 20 0 1
  else if op = 0x040B || op = 0x0606 then inP 21 op 1
  else if [1, 0x0101, 0x0102, 0x0103, 0x0405, 0x0406, 0x0701].contains op then at_ 22 op 1
  else none

/-! ## Order between commands (R552, R565) -/

/-- Commands that have not reached their final status. DEDUCED, log 83. -/
def State.unfinished (s : State) : List Request :=
  s.mbx.flatMap (fun b => b.waiting ++ b.deferred.map (·.req)) ++ s.coel.running.vals.map (·.req) ++ s.coel.waiters.map (·.req)

/-- May a command start now? DEDUCED, log 83. -/
def State.mayStart (s : State) (r : Request) : Bool :=
  let c0 := core0Ops.contains r.opcode
  s.unfinished.all (fun x =>
    decide (x.seq ≥ r.seq) ||
      (!(r.order && x.mb == r.mb) &&
        ((c0 && !r.order && !core0Ops.contains x.opcode) ||
          !(match r.object, x.object with | some a, some b => a.meets b | _, _ => false))))

/-- Commands of a mailbox that a core may take, in ring order, and whether each was deferred. -/
def Mailbox.offers (b : Mailbox) : List (Request × Bool) :=
  sortBy (fun x y => decide (x.1.seq < y.1.seq))
    ((b.deferred.filter (·.ready)).map (fun d => (d.req, true))
      ++ (b.waiting.filter (fun r => !core0Ops.contains r.opcode)).map (fun r => (r, false)))

/-- The next command of cores 1 to 7: mailboxes in rotation, one command from each per turn (R552). -/
def State.nextOf (s : State) (n : Nat) : Nat → Option (Request × Bool)
  | 0 => none
  | fuel + 1 =>
    match (s.mailbox (n % 17)).offers.find? (fun x => s.mayStart x.1) with
    | some x => some x
    | none => s.nextOf (n + 1) fuel

/-- The next command of core 0: in order of taking; the ROM serves its commands there (R552, R578). -/
def State.nextOfCore0 (s : State) : Option (Request × Bool) :=
  let all := s.mbx.flatMap (fun b => b.waiting.filter (fun r => core0Ops.contains r.opcode || s.coel.state == .rom))
  ((sortBy (fun x y => decide (x.seq < y.seq)) all).find? s.mayStart).map (fun r => (r, false))

/-- The command leaves its mailbox's lists. -/
def State.unqueue (s : State) (r : Request) : State :=
  s.modMbx r.mb (fun b =>
    { b with waiting := b.waiting.filter (fun x => x.seq != r.seq), deferred := b.deferred.filter (fun x => x.req.seq != r.seq) })

/-! ## Service (R555, R563, R568) -/

/-- The hint with which the front end answers a command at once (R555); none when the command is served. DEDUCED, log 81. -/
def State.busyHint (s : State) (r : Request) : Option Nat :=
  match s.coel.state with
  | .rom => if r.mb = 0 && romOps.contains r.opcode then none else some 100000
  | .ready =>
    let queued := (s.mbx.map (fun b => b.offers.length)).foldl (· + ·) 0
    if !core0Ops.contains r.opcode && decide (queued ≥ 512) then some 50 else none
  | _ => some 10000

/-- The Coelostat performs commands: it serves, or the ROM does. -/
def State.serves (s : State) : Bool := s.works && (s.coel.state = .ready || s.coel.state = .rom)

/-- Scope of a command (R563, catalogue). -/
inductive Scope where
  | g | p | o | a
  deriving DecidableEq, Repr

/-- What the tests of R563 steps 1 to 6 need of a command: whether it would write the store (R587), its scope and the home
of its object, whether it needs entropy now, and its target partitions. -/
structure Gate where
  store : Bool
  scope : Scope
  home : Nat := 0
  entropy : Bool := false
  targets : List Nat := []
  /-- it is not served before the data path is enabled, on any mailbox (R169, R320, R393, R456). -/
  enabled : Bool := false

/-- Steps 1 to 6 of R563: the status with which a command ends unperformed. DEDUCED, log 171. -/
def State.gate (s : State) (r : Request) (late : Bool) (g : Gate) : Option Answer :=
  if g.store && !late && s.coel.state = .ready && !s.storeUp then some (Answer.busy 10000)
  else if (r.mb ≠ 0 || g.enabled) && !s.coel.dpen then some (Answer.of stNOTENABLED)
  else if r.mb ≠ 0 && (g.scope = .g || (g.scope = .o && g.home ≠ r.mb - 1)) then some (Answer.of stSCOPE)
  else if g.entropy && !s.boot.entropy then some (Answer.of stNOENTROPY)
  else if g.targets.any s.pipe.fenced then some (Answer.of stFENCED)
  else none

/-- How the performance of a command ends: it goes on, from where it was or from a new position with a new count, it is
answered, it is deferred on a shortage of these partitions, or
it has committed and waits for the end of a fence or unfence. -/
inductive CmdEnd where
  | wait
  | more (pos tally : Nat)
  | done (a : Answer)
  | short (parts : List Nat)
  | hold (part : Nat) (unfence : Bool)

/-- An unperformed end. -/
def State.ends (s : State) (status : Nat) : State × CmdEnd := (s, .done (Answer.of status))

/-- An end with a payload. -/
def State.endsOk (s : State) (payload : List Byte) : State × CmdEnd := (s, .done (Answer.ok payload))

/-- Steps 1 to 6, and then the rest of the command. -/
def State.gated (s : State) (r : Request) (late : Bool) (g : Gate) (k : State × CmdEnd) : State × CmdEnd :=
  match s.gate r late g with
  | some a => (s, .done a)
  | none => k

/-- The shortage test of a command marked D (R568): the unfenced partitions of its work, tested once. -/
def State.unshort (s : State) (late : Bool) (parts : List Nat) (k : State × CmdEnd) : State × CmdEnd :=
  let ps := parts.eraseDups.filter (fun p => !s.pipe.fenced p)
  if !late && ps.any (fun p => (s.pipe.part p).sched.short s.mer.now 8) then (s, .short ps) else k

/-- How far the command on a core has come, and what it has counted. DEDUCED, log 103. -/
def State.progress (s : State) (core : Nat) : Nat × Nat :=
  match s.coel.running.get? core with | some x => (x.pos, x.tally) | none => (0, 0)

/-- The core is free again. -/
def State.freeCore (s : State) (core : Nat) : State :=
  { s with coel := { s.coel with running := s.coel.running.erase core } }

/-- A final status (R547, R568, R571): a deferred command answers nothing further. -/
def State.finish (s : State) (x : Running) (a : Answer) : State :=
  if x.late then s.result x.req .done a.status a.gen else s.answer x.req a

/-- A command is deferred (R568, R569). -/
def State.defer_ (s : State) (r : Request) (parts : List Nat) : State :=
  if (s.mailbox r.mb).deferred.length ≥ 16 then s.answer r (Answer.busy (watchLen s.mer.watchN / 1000))
  else
    let s1 := (s.answer r (Answer.of stBUDGETWAIT)).result r .deferred stBUDGETWAIT 0
    s1.modMbx r.mb (fun b => { b with deferred := b.deferred ++ [{ req := r, parts := parts, ready := false }] })

/-- Core `core` performs the command it runs, when the row is that command's. -/
def State.command (s : State) (core op : Nat) (f : State → Request → Bool → State × CmdEnd) : State :=
  match s.coel.running.get? core with
  | none => s
  | some x =>
    if x.req.opcode ≠ op || !s.serves then s
    else
      let go := fun (s : State) (y : Running) => { s with coel := { s.coel with running := s.coel.running.set core y } }.settle
      match f s x.req (x.late || x.begun) with
      | (s1, .wait) => go s1 { x with begun := true }
      | (s1, .more pos tally) => go s1 { x with begun := true, pos := pos, tally := tally }
      | (s1, .done a) => ((s1.freeCore core).finish x a).settle
      | (_, .short parts) => (s.freeCore core).defer_ x.req parts
      | (s1, .hold k u) =>
        let s2 := (s1.freeCore core).settle
        { s2 with coel := { s2.coel with waiters := s2.coel.waiters ++ [{ req := x.req, part := k, unfence := u }] } }

/-! ## Taking and starting -/

/-- MBX_REQUEST_TAKE (R539, R547, R549, R555): the slot at RQCIDX of mailbox m, or none when its read fails.
DEDUCED, log 84. -/
def execMbxRequestTake (m : Nat) (slot : HostData) (s : State) : Host.Outcome State Fault Refusal :=
  .next (if m < 17 && s.works && s.canMaster m && (s.mailbox m).mayTake then
      match slot with
      | none => s.modMbx m (fun b => { b with ringErr := true, stuck := true })
      | some bytes =>
        let r : Request := { mb := m, slot := padTo 256 bytes, seq := s.coel.nextSeq }
        let s1 := ({ s with coel := { s.coel with nextSeq := s.coel.nextSeq + 1 } }).modMbx m (fun b =>
          { b with rqCidx := (b.rqCidx + 1) % 65536, outst := b.outst + 1 })
        match s.busyHint r with
        | some h => s1.answer r (Answer.busy h)
        | none => s1.modMbx m (fun b => { b with waiting := b.waiting ++ [r] })
    else s)

/-- CMD_START (R552, R555, R563, R565): core `core` takes its next command. One that the catalogue does not list is answered
at once. -/
def execCmdStart (core : Nat) (s : State) : Host.Outcome State Fault Refusal :=
  .next (if core < 8 && s.serves && !s.coel.running.has core then
      match (if core = 0 then s.nextOfCore0 else if s.coel.state = .ready then s.nextOf s.coel.turn 17 else none) with
      | none => s
      | some (r, late) =>
        let s1 := s.unqueue r
        let s2 := if core = 0 then s1 else { s1 with coel := { s1.coel with turn := (r.mb + 1) % 17 } }
        if !knownOps.contains r.opcode then
          s2.answer r (Answer.of (if r.mb ≠ 0 && !s.coel.dpen then stNOTENABLED else stNOCOMMAND))
        else
          let s3 := if late then s2.result r .running stBUDGETWAIT 0 else s2
          { s3 with coel := { s3.coel with running := s3.coel.running.set core { req := r, late := late, begun := false, pos := 0, tally := 0 } } }
    else s)

/-- DEFERRED_START (R568): at a watch end, the deferred commands whose partitions are not short enter the command queue. -/
def execDeferredStart (s : State) : Host.Outcome State Fault Refusal :=
  let open_ := fun (d : Deferred) =>
    d.parts.all (fun p => s.pipe.fenced p || !(s.pipe.part p).sched.short s.mer.now 8)
  .next (if s.works && s.coel.state = .ready && s.mer.watchDone then
      { s with mbx := s.mbx.map (fun b =>
          { b with deferred := b.deferred.map (fun d => if open_ d then { d with ready := true } else d) }) }
    else s)

end Sys2Proof.Machine
end

