-- ==== Sys2Proof/Machine/Fences.lean ====
section
/-!
DEFINITION. Sys2Proof/Machine/Fences.lean: the steps of a fence after its cause, and the unfence (chapter 19).
-/
namespace Sys2Proof.Machine

/-! ## Steps 4 to 7 of a fence (R584, R585, R130) -/

/-- What the partition still has to program when its domain goes off (R585). -/
def FlashPart.holdsTail (f : FlashPart) : Bool := f.log.any (fun e => !e.programmed) || !f.progs.isEmpty

/-- The commands of one partition that wait for its fence or unfence are answered. -/
def State.answerWaiters (s : State) (k : Nat) (unfence : Bool) (status : Nat) : State :=
  let mine := fun (w : Waiter) => w.part == k && w.unfence == unfence
  let s1 := { s with coel := { s.coel with waiters := s.coel.waiters.filter (fun w => !mine w) } }
  (s.coel.waiters.filter mine).foldl (fun s w => s.answer w.req (Answer.of status)) s1

/-- FENCE_POWER_OFF of partition k (R584 steps 4 and 5, R585): its started flash operations have ended, its domain goes off,
and FCU_FENCED reads FENCED. A PART_FENCE that waits is answered. DEDUCED, log 71. -/
def execFencePowerOff (k : Nat) (s : State) : Host.Outcome State Fault Refusal :=
  .next (if s.works && k < 16 && (s.pipe.part k).st == .fencing then
      let p := s.pipe.modPart k (fun q => { q with st := .fenced, power := false, flashIdle := true, tailHeld := q.flash.holdsTail })
      ({ s with pipe := p }).answerWaiters k false stOK
    else s)

/-- Jobs homed on partition k, in the order in which they reached COMPLETION. -/
def Pipe.homed (p : Pipe) (k : Nat) : List Nat :=
  (sortBy (fun a b => decide (a.2.compSeq < b.2.compSeq)) (p.jobs.filter (fun j => j.2.home == k))).map Prod.fst

/-- FENCE_COMPLETIONS of partition k (R130, R462, R584 steps 6 and 7): the completion entries of its jobs; once all are
written, the FENCE events. DEDUCED, log 71. -/
def execFenceCompletions (k : Nat) (s : State) : Host.Outcome State Fault Refusal :=
  let q := s.pipe.part k
  .next (if s.works && k < 16 && q.completionsOwed && q.st == .fenced then
      let s1 := (s.pipe.homed k).foldl (fun s j => s.completeJob j false) s
      if !(s1.pipe.homed k).isEmpty then s1
      else
        let s2 := { s1 with pipe := s1.pipe.modPart k (fun q => { q with completionsOwed := false }) }
        let ev := fun (s : State) (m : Nat) => s.event m 1 k q.cause.isNone (q.cause.getD 0)
        ev (ev s2 (k + 1)) 0
    else s)

/-! ## Steps of an unfence (R588) -/

/-- Step 3: the retained tail and write buffer are programmed (R585). -/
def Pipe.programTail (p : Pipe) (k : Nat) : Pipe :=
  let p1 := p.pageLogAll k
  (p1.finishPrograms k (p1.flash k).progs.length).runCommits k

/-- Slots of the plate tier, in the core of partition k, from the HBM frames (R390, R391). DEDUCED, log 75. -/
def Pipe.refillPlate (p : Pipe) (k : Nat) : Pipe :=
  let one := fun (m : Mem) (x : Nat × Option Nat) =>
    match x.2 with
    | none => m
    | some n =>
      let e := p.tier (.gen n)
      if e.st = .hbm then
        p.hbm.copyTo (hbmKey e.home e.pc (e.frame * 65536)) 65536 m (k * 2 ^ 25 + 0x1100000 + 65536 * x.1)
      else m
  { p with plate := (p.plateSlots.mapIdx (fun i x => (i, x))).foldl one (p.plate.clear (k * 2 ^ 25) (2 ^ 25)) }

/-- The NBUs of an unfenced partition: empty, with the current image, and the markers of the published epoch (R229, R254,
R304). DEDUCED, log 74. -/
def Pipe.freshNbus (p : Pipe) (pub : Nat) : Tbl Nbu :=
  (List.range 64).map (fun pc => (pc, { Nbu.idle with image := p.image, markers := List.replicate 16 pub }))

/-- A listed STAMP is performed on its entry, and on the entry's twin in a switched piece (R307, R312); one whose unit gives
an uncorrectable read stays listed. -/
def Pipe.lateStamp (p : Pipe) (e : Nat) (t : StampRetry) : Pipe :=
  let succ := ((p.part t.part).comps.find? (fun c => c.pc == t.pc && c.old == t.piece)).map (·.new)
  let p1 := (p.pieceSpan t.part t.pc t.piece).foldl Pipe.bringIn p
  let r := kernelStamp { NbuReq.zero with kernel := 3, piece := t.piece, repoch := t.u, home := e, arg0 := t.entry } succ
    (p1.bankOf t.part t.pc RawErrs.none none)
  if r.bank.ue then p1
  else (p1.putBank t.part t.pc r.bank).modPart e (fun q => { q with stampRetry := q.stampRetry.erase t })

/-- The STAMPs listed for partition k by every engine (R307). DEDUCED, log 74. -/
def Pipe.lateStamps (p : Pipe) (k : Nat) : Pipe :=
  let all := (List.range 16).flatMap (fun e => ((p.part e).stampRetry.filter (fun t => t.part == k)).map (fun t => (e, t)))
  all.foldl (fun (p : Pipe) x => p.lateStamp x.1 x.2) p

/-- The pieces of the loaded indexes that lie in partition k enter its map (R288): an IDX_LOAD of while it was fenced could
read none of their headers. -/
def Pipe.mapLoads (p : Pipe) (k : Nat) : Pipe :=
  (sortBy (fun a b => decide (a < b)) p.handles.vals).foldl (fun (p : Pipe) l =>
    match p.idx.get? l with
    | none => p
    | some x =>
      let bring := fun (p : Pipe) (r : Nat × Nat) => (pagesOf p.variant64 r.1 r.2).foldl Pipe.bringIn p
      let p := bring p x.listRange
      let p := ((p.tabRanges x).foldl bring p).learnNodes l
      ((p.allPieces x).filter (fun r => r.1 == k)).foldl (fun (p : Pipe) r => p.mapPiece l r) p) p

/-- Function level resets noted during the fence (R454). -/
def Pipe.lateFlr (p : Pipe) (k : Nat) : Pipe :=
  let a := (p.part k).alm
  let p1 := if a.flrVf then p.flrEntries k (p.flrQueues k false) else p
  let p2 := if a.flrPf then p1.flrEntries k (p1.flrQueues k true) else p1
  p2.modPart k (fun q => { q with alm := { q.alm with flrVf := false, flrPf := false } })

/-- Steps 1 and 2 of R455 on one entry. -/
def AlmEntry.unfenced (e : AlmEntry) : AlmEntry :=
  let st := if e.state = .draining then .free else e.state
  { e with
    state := st, outst := 0, deficit := 0, elig := 0, onlist := false, onwheel := false,
    gen := if e.state = .free || e.state = .draining then e.gen else (e.gen + 1) % 65536 }

/-- An entry that step 3 of R455 puts on the active list. -/
def AlmEntry.relisted (e : AlmEntry) : Bool := e.state = .enabled && e.isSub && decide (e.occupied > 0)

/-- R455 on the Almanac of partition k, and the active list that results. DEDUCED, log 74. -/
def Part.rebuildAlm (q : Part) (k : Nat) : Part :=
  let es := q.alm.entries.mapv AlmEntry.unfenced
  let on := (es.filter (fun x => x.2.relisted)).map (fun x => k * 2 ^ 20 + x.1)
  { q with
    alm := { q.alm with entries := es.mapv (fun e => if e.relisted then { e with onlist := true } else e) },
    sched := { q.sched with active := on, wheel := [], buckets := [] } }

/-- R483 on the scheduler of a partition. -/
def Sched.unfence (s : Sched) (now : Nat) : Sched :=
  let s1 := { s with
    budgets := s.budgets.map (fun (b : Budget) => { b.settle now with use := 0, age := 0 }), ests := [] }
  let s2 := s1.takeover now
  { s2 with window := s2.current.windowAt now }

/-- R588 on partition k: the partition is SERVING, its kernel slots hold the Coelostat's copies (R168), and the other partitions have its
marker (R304). -/
def Pipe.unfence (p : Pipe) (k : Nat) (m : Meridian) : Pipe :=
  let p1 := (p.modPart k (fun q => { q.clearRegs with st := .serving, power := true, trained := true, flashIdle := false })).programTail k
  let p2 := (((p1.mapLoads k).refillPlate k).lateStamps k).lateFlr k
  let p3 := p2.modPart k (fun q =>
    { (q.rebuildAlm k) with
      sched := (q.rebuildAlm k).sched.unfence m.now, nbus := p2.freshNbus m.pub,
      pub := m.pub, pend := m.pend, watchNo := m.watchNo, ordered := true, tailHeld := false, cause := none,
      ingestHold := false, core := { q.core with kernels := p2.kernels } })
  p3.sendMarkers [k] m.pub

/-- UNFENCE of partition k (R588 steps 1 to 7): the partition becomes SERVING, and its PART_UNFENCE is answered. -/
def execUnfence (k : Nat) (s : State) : Host.Outcome State Fault Refusal :=
  .next (if s.works && k < 16 && s.coel.state = .ready && (s.pipe.part k).st == .unfencing && !(s.pipe.part k).completionsOwed then
      let s1 := { s with pipe := s.pipe.unfence k s.mer }
      let s2 := if k = 0 || k = 8 then
          { s1 with mbx := s1.mbx.map (fun b => { b with results := b.results.map (fun e => { e with stored := true }) }) }
        else s1
      let ev := fun (s : State) (m : Nat) => s.event m 2 k false 0
      ((ev (ev s2 (k + 1)) 0).answerWaiters k true stOK).settle
    else s)

end Sys2Proof.Machine
end

