-- ==== Sys2Proof/Machine/CmdPkg.lean ====
section
/-!
DEFINITION. Sys2Proof/Machine/CmdPkg.lean: the mailbox commands on the package, on command state and on Meridian time
(chapter 18 tables "Package and command state" and "Time").
-/
namespace Sys2Proof.Machine

/-- Core `core` performs command `op`: the tests of R563 steps 1 to 6 with its gate, then its own steps. -/
def State.cmd (s : State) (core op : Nat) (g : State → Request → Gate) (k : State → Request → Bool → State × CmdEnd) : State :=
  s.command core op (fun s r late => s.gated r late (g s r) (k s r late))

/-- Gates: a scope G command that writes the store, one served in SRAM alone (R587), and a scope P command. -/
def gateG (_ : State) (_ : Request) : Gate := { store := true, scope := .g }
/-- DEDUCED, log 87. -/
def gateFree (sc : Scope) (_ : State) (_ : Request) : Gate := { store := false, scope := sc }
/-- DEDUCED, log 87. -/
def gateP (store : Bool) (_ : State) (r : Request) : Gate := { store := store, scope := .p, targets := if r.allp then [] else r.targets }

/-- DP_ENABLE (R304, R553, R621): DPEN sets, and STAGE becomes SERVING. -/
def execDpEnable (core : Nat) (_host : HostData) (s : State) : Host.Outcome State Fault Refusal :=
  .next (s.cmd core 0x0001 gateG (fun s _ _ =>
    ({ s with
       coel := { s.coel with dpen := true }, boot := { s.boot with stage := .serving },
       pipe := s.pipe.sendMarkers s.unfencedList s.mer.pub }).endsOk []))

/-- A cell-mode pair is stored: in the settings in force, or as the ROM finds them (R574, R578). -/
def State.pairStored (s : State) : Bool :=
  if s.coel.state = .rom then
    (match s.nor.bestSetting (fun _ => true) with | some (_, x) => x.pair.isSome | none => false)
  else s.settings.pair.isSome

/-- The bytes of PKG_STATUS. -/
def State.pkgStatus (s : State) : List Byte :=
  leBytes 4 (if s.variant64 then 0x00201804 else 0x00200804) ++ leBytes 4 1 ++ leBytes 2 (partMask s.pipe.fenced)
  ++ [BitVec.ofNat 8 s.coel.state.code,
      BitVec.ofNat 8 (b2n s.coel.dpen + 2 * b2n (s.boot.entropy && s.coel.state ≠ .rom) + 4 * b2n s.pairStored)]
  ++ leBytes 4 s.boot.version ++ padTo 48 s.boot.digest ++ leBytes 1 (s.mer.stat % 8)

/-- PKG_STATUS. -/
def execPkgStatus (core : Nat) (_host : HostData) (s : State) : Host.Outcome State Fault Refusal :=
  .next (s.cmd core 0x0002 (gateFree .a) (fun s _ _ => s.endsOk s.pkgStatus))

/-- A mask of listed numbers below `n`. -/
def maskOf (n : Nat) (has : Nat → Bool) : Nat := ((List.range n).map (fun i => b2n (has i) * 2 ^ i)).foldl (· + ·) 0

/-- CORE_STATUS (R143, R266). -/
def execCoreStatus (core : Nat) (_host : HostData) (s : State) : Host.Outcome State Fault Refusal :=
  .next (s.cmd core 0x0003 (gateP false) (fun s r _ =>
    let c := (s.pipe.part r.part).core
    s.endsOk (leBytes 4 (min c.kernelTraps sat32Max) ++ leBytes 4 (min c.stray sat32Max) ++ leBytes 2 (maskOf 16 s.pipe.kernels.has)
      ++ leBytes 6 0 ++ leBytes 32 (maskOf 256 s.pipe.rnets.has))))

/-- STATE codes of a result table entry. -/
def ResState.code : ResState → Nat
  | .done => 0 | .deferred => 1 | .running => 2

/-- CMD_RESULT (R571): the later of two entries with one TOKEN. -/
def execCmdResult (core : Nat) (_host : HostData) (s : State) : Host.Outcome State Fault Refusal :=
  .next (s.cmd core 0x0004 (gateFree .a) (fun s r _ =>
    match (s.mailbox r.mb).results.find? (fun e => e.token == r.w 32) with
    | none => s.ends stNOTFOUND
    | some e => s.endsOk (leBytes 1 1 ++ leBytes 1 e.status ++ leBytes 2 e.opcode ++ leBytes 2 e.gen ++ leBytes 1 e.state.code)))

/-! ## Time -/

/-- MER_LOAD_NEXT (R56): the value waits for the next pulse edge. -/
def execMerLoadNext (core : Nat) (_host : HostData) (s : State) : Host.Outcome State Fault Refusal :=
  .next (s.cmd core 0x0101 (gateFree .g) (fun s r _ =>
    ({ s with mer := { s.mer with loaded := some (r.d 32) } }).endsOk (leBytes 8 s.mer.now)))

/-- MER_CONFIG (R89). -/
def execMerConfig (core : Nat) (_host : HostData) (s : State) : Host.Outcome State Fault Refusal :=
  .next (s.cmd core 0x0102 (gateFree .g) (fun s r _ => ({ s with mer := s.mer.writeCfg (r.w 32) }).endsOk []))

/-- A new domain has heard no master yet. DEDUCED, log 46. -/
def PtpServo.configure (p : PtpServo) (domain offset : Nat) : PtpServo :=
  let p1 := { p with domain := domain, offset := offset }
  if domain = p.domain then p1 else { p1 with masters := [], sync := none, last := none, req := none }

/-- PTP_CONFIG (R72). -/
def execPtpConfig (core : Nat) (_host : HostData) (s : State) : Host.Outcome State Fault Refusal :=
  .next (s.cmd core 0x0103 (gateFree .g) (fun s r _ =>
    ({ s with mer := { s.mer with ptp := s.mer.ptp.configure (min (r.b 32) 127) (r.d 40) } }).endsOk []))

/-- The entry that EPH_WRITE writes at a counter value (R79). -/
def ephOf (time epoch st now : Nat) : EphEntry :=
  { time := time, epoch := epoch, state := if st = 1 then .armed else .empty, late := false, wrote := now }

/-- EPH_WRITE (R79, R84): it applies after the events of the counter value. DEDUCED, log 88. -/
def execEphWrite (core : Nat) (_host : HostData) (s : State) : Host.Outcome State Fault Refusal :=
  .next (s.cmd core 0x0104 (gateFree .g) (fun s r _ =>
    if r.h 32 > 4095 then s.ends stNOTFOUND
    else if s.owed ≤ 4 then (s, .wait)
    else
      let e := ephOf (r.d 48) (r.e 56) (field r.slot (8 * 48 + 112) 2) s.mer.now
      ({ s with mer := { s.mer with eph := s.mer.eph.set (r.h 32) e } }).endsOk []))

/-- The bytes of an Ephemeris entry (R79). -/
def EphEntry.bytes (e : EphEntry) : List Byte :=
  let st := match e.state with | .empty => 0 | .armed => 1 | .done => 2 | .skipped => 3
  packBytes 16 [(64, e.time), (48, e.epoch), (2, st), (1, b2n e.late), (13, 0)]

/-- EPH_READ (R79): slot numbers wrap. -/
def execEphRead (core : Nat) (_host : HostData) (s : State) : Host.Outcome State Fault Refusal :=
  .next (s.cmd core 0x0105 (gateFree .a) (fun s r _ =>
    if r.h 32 > 4095 then s.ends stNOTFOUND
    else s.endsOk ((List.range (min (count1 (r.b 34)) 14)).flatMap (fun i => (s.mer.slot ((r.h 32 + i) % 4096)).bytes))))

end Sys2Proof.Machine
end

