-- ==== Sys2Proof/Machine/CmdFabric.lean ====
section
/-!
DEFINITION. Sys2Proof/Machine/CmdFabric.lean: the mailbox commands on fabric ports and on the objects of the Bircia Fabric
Transport (chapter 18 table "Fabric"; chapter 16).
-/
namespace Sys2Proof.Machine

/-! ## Ports (R485, R577) -/

/-- A port takes its mode and links their records; records of links that the mode does not create are ignored. -/
def Fabric.setPort (f : Fabric) (p mode : Nat) (enable : Bool) (lanes : List Nat) (rec_ : Nat → List Byte) : Fabric :=
  let f1 := { f with ports := setNth f.ports p { mode := mode, enable := enable, lanes := lanes } }
  (List.range 4).foldl (fun (f : Fabric) i =>
    let on := modeHasLink mode i
    f.modLink (4 * p + i) (fun (l : FabLink) => { l with exists_ := on, cfg := if on then decodeLink (rec_ i) else l.cfg })) f1

/-- FAB_PORT_CONFIG (R577): every link of the port that is up goes down for the change. DEDUCED, log 120. -/
def execFabPortConfig (core : Nat) (_host : HostData) (s : State) : Host.Outcome State Fault Refusal :=
  .next (s.cmd core 0x0801 gateG (fun s r _ =>
    let p := field r.slot 256 3
    let ups := ((List.range 4).map (fun i => 4 * p + i)).filter (fun n => (s.fab.link n).up)
    let s1 := (ups.foldl State.dropLink s).raise (ups.map (fun n => 320 + n))
    let f := s1.fab.setPort p (field r.slot 264 2) (fbit r.slot 272) ((List.range 4).map (fun i => r.b (36 + i)))
      (fun i => slice r.slot (48 + 48 * i) 48)
    ({ s1 with fab := f }).endsOk []))

/-- FAB_STATUS. -/
def execFabStatus (core : Nat) (_host : HostData) (s : State) : Host.Outcome State Fault Refusal :=
  .next (s.cmd core 0x0802 (gateFree .g) (fun s r _ =>
    if r.b 32 > 7 then s.ends stNOTFOUND
    else
      let ns := (List.range 4).map (fun i => 4 * r.b 32 + i)
      s.endsOk (ns.flatMap (fun n => leBytes 4 (s.fab.linkReg n s.quiet))
        ++ ns.flatMap (fun n => leBytes 8 (s.fab.link n).rx ++ leBytes 8 (s.fab.link n).tx))))

/-! ## Protection domains, regions and receive rings (R492 to R494, R506) -/

/-- Home of a PD's number for scope O (catalogue). -/
def pdHome (n : Nat) : Nat := n / 4096

/-- The gate of a command on an object homed in partition `home`; a PD has no home, and only scope limits it. -/
def gateO (home : Request → Nat) (_ : State) (r : Request) : Gate :=
  { store := true, scope := .o, home := home r, targets := [home r] }
def gatePd (_ : State) (r : Request) : Gate := { store := true, scope := .o, home := pdHome (r.h 32) }

/-- On MBk a PD that a command names lies in its own range (catalogue): otherwise the command is out of scope. -/
def State.pdScope (s : State) (r : Request) (pd : Nat) (k : State × CmdEnd) : State × CmdEnd :=
  if r.mb ≠ 0 && pdHome pd ≠ r.mb - 1 then s.ends stSCOPE else k

/-- Function of host accesses: FUNC 1 is the PF, and decodes as 0 on MBk. -/
def Request.func (r : Request) (pf : Bool) (home : Nat) : Nat := if pf && r.mb = 0 then 0 else home + 1

/-- BFT_PD_CREATE. DEDUCED, log 128. -/
def execBftPdCreate (core : Nat) (_host : HostData) (s : State) : Host.Outcome State Fault Refusal :=
  .next (s.cmd core 0x0803 gatePd (fun s r _ =>
    let n := r.h 32
    if s.fab.pds.has n then s.ends stBADSTATE
    else
      let d : Pd := {
        loc := fbit r.slot 288, func := r.func (fbit r.slot 289) (pdHome n), size := 32 * 2 ^ min (r.b 37) 7, msix := r.h 38,
        base := r.d 40, p := 0, c := 0 }
      ({ s with fab := { s.fab with pds := s.fab.pds.set n d } }).endsOk []))

/-- Does an object of a PD exist? -/
def Fabric.pdUsed (f : Fabric) (n : Nat) : Bool :=
  f.conns.any (fun c => c.2.cfg.pd == n) || f.rings.any (fun c => c.2.pd == n) || f.regions.any (fun c => c.2.used && c.2.pd == n)

/-- BFT_PD_DESTROY. -/
def execBftPdDestroy (core : Nat) (_host : HostData) (s : State) : Host.Outcome State Fault Refusal :=
  .next (s.cmd core 0x0804 gatePd (fun s r _ =>
    if s.fab.pdUsed (r.h 32) then s.ends stBADSTATE
    else ({ s with fab := { s.fab with pds := s.fab.pds.erase (r.h 32) } }).endsOk []))

/-- The gate of a region command. -/
def gateReg : State → Request → Gate := gateO (fun r => regionHome (r.q 32))

/-- BFT_REG_CREATE (R494): the tag grows at each further creation of the number. DESIGN CHOICE, log 127. -/
def execBftRegCreate (core : Nat) (_host : HostData) (s : State) : Host.Outcome State Fault Refusal :=
  .next (s.cmd core 0x0805 gateReg (fun s r _ =>
    let n := r.q 32
    s.pdScope r (r.h 36) (
      if n ≥ 2 ^ 20 || !s.fab.pds.has (r.h 36) then s.ends stNOTFOUND
      else
        let old := s.fab.regions.get? n
        if (match old with | some x => x.used | none => false) then s.ends stBADSTATE
        else
          let tag := match old with | some x => (x.tag + 1) % 4096 | none => 0
          let sp := r.b 38
          let x : Region := {
            used := true, tag := tag, pd := r.h 36, space := if sp = 1 then 1 else if sp = 0 then (if r.mb = 0 then 0 else 1) else 2,
            remoteWrite := fbit r.slot 312, base := r.d 40, len := field r.slot 384 40 }
          ({ s with fab := { s.fab with regions := s.fab.regions.set n x } }).endsOk (leBytes 4 (tag * 2 ^ 20 + n)))))

/-- BFT_REG_DESTROY: the number keeps its tag. -/
def execBftRegDestroy (core : Nat) (_host : HostData) (s : State) : Host.Outcome State Fault Refusal :=
  .next (s.cmd core 0x0806 gateReg (fun s r _ =>
    match s.fab.regions.get? (r.q 32) with
    | some x =>
      if x.used then ({ s with fab := { s.fab with regions := s.fab.regions.set (r.q 32) { x with used := false } } }).endsOk []
      else s.ends stNOTFOUND
    | none => s.ends stNOTFOUND))

/-- The gate of a receive ring command. -/
def gateRr : State → Request → Gate := gateO (fun r => ringHome (r.h 32))

/-- BFT_RR_CREATE. DEDUCED, log 128. -/
def execBftRrCreate (core : Nat) (_host : HostData) (s : State) : Host.Outcome State Fault Refusal :=
  .next (s.cmd core 0x0807 gateRr (fun s r _ =>
    let n := r.h 32
    s.pdScope r (r.h 34) (
      if !s.fab.pds.has (r.h 34) then s.ends stNOTFOUND
      else if s.fab.rings.has n then s.ends stBADSTATE
      else
        let x : RxRing := {
          pd := r.h 34, loc := fbit r.slot 288, func := r.func (fbit r.slot 289) (ringHome n), size := 32 * 2 ^ min (r.b 37) 11,
          base := r.d 40, pidx := 0, cidx := 0, phase := true }
        ({ s with fab := { s.fab with rings := s.fab.rings.set n x } }).endsOk [])))

/-- BFT_RR_DESTROY. -/
def execBftRrDestroy (core : Nat) (_host : HostData) (s : State) : Host.Outcome State Fault Refusal :=
  .next (s.cmd core 0x0808 gateRr (fun s r _ =>
    if !s.fab.rings.has (r.h 32) then s.ends stNOTFOUND
    else ({ s with fab := { s.fab with rings := s.fab.rings.erase (r.h 32) } }).endsOk []))

/-! ## Connections (R495, R496, R526 to R529, R576) -/

/-- The connection record in the host buffer. -/
def Request.connRec (r : Request) (host : HostData) : Option (List Byte) := r.buffer host 160

/-- The gate of BFT_CONN_CREATE: the connection is named in the record. -/
def gateConnRec (host : HostData) (_ : State) (r : Request) : Gate :=
  match r.connRec host with
  | none => { store := true, scope := .a }
  | some b =>
    let home := connHome (field b 0 18)
    { store := true, scope := .o, home := home, entropy := fbit b 75, targets := [home] }

/-- BFT_CONN_CREATE (R495, R496, R505); a key pair generated for an earlier connection of the number is forgotten (R528).
DEDUCED, log 131. -/
def execBftConnCreate (core : Nat) (host : HostData) (s : State) : Host.Outcome State Fault Refusal :=
  .next (s.cmd core 0x0809 (gateConnRec host) (fun s r _ =>
    match r.connRec host with
    | none => s.ends stHOST
    | some b =>
      let n := field b 0 18
      let c := decodeConn b (connHome n) (r.mb ≠ 0)
      s.pdScope r c.pd (
        if !s.fab.pds.has c.pd then s.ends stNOTFOUND
        else if s.fab.conns.has n then s.ends stBADSTATE
        else ({ s with
          coel := { s.coel with keyPairs := s.coel.keyPairs.erase n },
          fab := ({ s.fab with conns := s.fab.conns.set n (Conn.fresh c) } : Fabric).grow n }).endsOk [])))

/-- The gate of a command on the connection at byte 32. -/
def gateConn (entropy : Bool) (_ : State) (r : Request) : Gate :=
  let home := connHome (r.q 32)
  { store := true, scope := .o, home := home, entropy := entropy, targets := [home] }

/-- BFT_CONN_RESET (R356, R496): FREE from any state; what waited on the connection sees it lost. -/
def execBftConnReset (core : Nat) (_host : HostData) (s : State) : Host.Outcome State Fault Refusal :=
  .next (s.cmd core 0x080A (gateConn false) (fun s r _ =>
    let n := r.q 32
    if n ≥ 2 ^ 18 then s.ends stNOTFOUND
    else
      let s1 := s.withFab ({ s.fab with conns := s.fab.conns.erase n }, [])
      ({ s1 with coel := { s1.coel with keyPairs := s1.coel.keyPairs.erase n } }).endsOk []))

/-- A command that sets keys needs an encrypted connection without keys. -/
def State.keyless (s : State) (r : Request) (k : Conn → State × CmdEnd) : State × CmdEnd :=
  if r.q 32 ≥ 2 ^ 18 then s.ends stNOTFOUND
  else match s.fab.conns.get? (r.q 32) with
    | none => s.ends stBADSTATE
    | some c => if !c.cfg.enc || c.txKey.isSome || c.rxKey.isSome then s.ends stBADSTATE else k c

/-- Both keys of a connection are set. -/
def State.setKeys (s : State) (n : Nat) (tx rx : List Byte) : State :=
  { s with fab := s.fab.modConn n (fun c => { c with txKey := some tx, rxKey := some rx }) }

/-- BFT_KEY_LOAD. -/
def execBftKeyLoad (core : Nat) (_host : HostData) (s : State) : Host.Outcome State Fault Refusal :=
  .next (s.cmd core 0x080B (gateConn true) (fun s r _ =>
    s.keyless r (fun _ => (s.setKeys (r.q 32) (slice r.slot 64 32) (slice r.slot 96 32)).endsOk [])))

/-- Does the command that a core runs have this STEP of BFT_KEY_AGREE? -/
def State.agreeStep (s : State) (core : Nat) (generate : Bool) : Bool :=
  match s.coel.running.get? core with | some x => (x.req.b 35 == 0) == generate | none => false

/-- BFT_KEY_AGREE, GENERATE (R528): a new key pair, and its public key. DESIGN CHOICE, log 21. -/
def execBftKeyAgreeGenerate (core : Nat) (_host : HostData) (s : State) : Host.Outcome State Fault Refusal :=
  .next (if !s.agreeStep core true then s else s.cmd core 0x080C (gateConn true) (fun s r _ =>
    s.keyless r (fun _ =>
      let s1 := { s with free := s.free + 1, coel := { s.coel with keyPairs := s.coel.keyPairs.set (r.q 32) s.free } }
      s1.endsOk (List.replicate 32 0#8 ++ padTo 97 (Config.p384Public (Config.freeBytes s.free))))))

/-- The two keys that a shared coordinate yields (R528). -/
def agreedKey (z : List Byte) (n : Byte) : List Byte := padTo 32 (Config.sha384 (padTo 48 z ++ [n]))

/-- BFT_KEY_AGREE, COMPLETE (R528): after BAD_KEY the generated pair is gone. -/
def execBftKeyAgreeComplete (core : Nat) (_host : HostData) (s : State) : Host.Outcome State Fault Refusal :=
  .next (if !s.agreeStep core false then s else s.cmd core 0x080C (gateConn true) (fun s r _ =>
    s.keyless r (fun c =>
      let n := r.q 32
      let peer := slice r.slot 64 97
      match s.coel.keyPairs.get? n with
      | none => s.ends stSEQUENCE
      | some d =>
        if !Config.p384Valid peer then
          ({ s with coel := { s.coel with keyPairs := s.coel.keyPairs.erase n } }).ends stBADKEY
        else
          let z := Config.p384Shared (Config.freeBytes d) peer
          let a := agreedKey z 0x01#8
          let b := agreedKey z 0x02#8
          let s1 := if c.cfg.role then s.setKeys n b a else s.setKeys n a b
          ({ s1 with coel := { s1.coel with keyPairs := s1.coel.keyPairs.erase n } }).endsOk [])))

end Sys2Proof.Machine
end

