-- ==== Sys2Proof/Machine/CmdFault.lean ====
section
/-!
DEFINITION. Sys2Proof/Machine/CmdFault.lean: the mailbox commands on partitions and faults (chapter 18 table "Partitions and
faults"; chapter 19).
-/
namespace Sys2Proof.Machine

/-- The batches dispatched in partition k have passed step 4 of R302 (R583). -/
def Pipe.batchesPast (p : Pipe) (k : Nat) : Bool :=
  p.jobs.all (fun j => !(j.2.batch && j.2.home == k && j.2.phase == .records && j.2.ending.isNone)
    || (decide (j.2.nextRec ≥ j.2.b.nrec) && (p.part k).recs.all (fun r => r.job != j.1 || r.step == .issued)))

/-- The log tail of partition k is programmed. -/
def FlashPart.tailDone (f : FlashPart) : Bool :=
  f.log.all (fun e => e.programmed) && f.progs.all (fun g => match g with | .logPage _ => false | _ => true)

/-- The orderly steps of a PART_FENCE (R583): the partition after them so far, and whether they are done.
DEDUCED, log 73. -/
def Pipe.orderly (p : Pipe) (k : Nat) : Pipe × Bool :=
  let p1 := p.modPart k (fun q => { q with ingestHold := true })
  if !p1.batchesPast k then (p1, false)
  else
    let p2 := p1.pageLogAll k
    (p2, (p2.flash k).tailDone)

/-- PART_FENCE (R582 to R584): its response waits until the partition is fenced. DEDUCED, log 73. -/
def execPartFence (core : Nat) (_host : HostData) (s : State) : Host.Outcome State Fault Refusal :=
  .next (s.cmd core 0x0901 (gateFree .g) (fun s r _ =>
    let k := r.part
    match (s.pipe.part k).st with
    | .fenced => s.endsOk []
    | .fencing => (s, .hold k false)
    | .unfencing => (s.fence k none, .hold k false)
    | .serving =>
      let x := s.pipe.orderly k
      let s1 := { s with pipe := x.1 }
      if x.2 then (s1.fence k none, .hold k false) else (s1, .wait)))

/-- A set source of partition k fences it (R588). -/
def Fcu.fences (f : Fcu) (k : Nat) : Bool := f.sources.any (fun x => decide (x < 256) && x / 16 == k && f.reaction x == .fence)

/-- PART_UNFENCE (R588): its response waits until the unfence ends. -/
def execPartUnfence (core : Nat) (_host : HostData) (s : State) : Host.Outcome State Fault Refusal :=
  .next (s.cmd core 0x0902 (gateFree .g) (fun s r _ =>
    let k := r.part
    match (s.pipe.part k).st with
    | .serving => s.endsOk []
    | .fencing => s.ends stBADSTATE
    | .unfencing => (s, .hold k true)
    | .fenced =>
      if s.fcu.fences k then s.ends stBADSTATE
      else ({ s with pipe := s.pipe.modPart k (fun q => { q with st := .unfencing }) }, .hold k true)))

/-- REACTION codes. -/
def reactionOf (v : Nat) : Reaction :=
  match v with | 0 => .record | 1 => .interrupt | 2 => .fence | _ => .safe

/-- FCU_REACT (R592). -/
def execFcuReact (core : Nat) (_host : HostData) (s : State) : Host.Outcome State Fault Refusal :=
  .next (s.cmd core 0x0903 (gateFree .g) (fun s r _ =>
    if r.h 32 > 511 then s.ends stNOTFOUND
    else ({ s with fcu := s.fcu.setReactions (r.h 32) (count1 (r.h 34)) (reactionOf (field r.slot 288 2)) }).endsOk []))

/-- MARGIN_READ (R603). -/
def execMarginRead (core : Nat) (_host : HostData) (s : State) : Host.Outcome State Fault Refusal :=
  .next (s.cmd core 0x0904 (gateFree .g) (fun s r _ =>
    let kind := marginKind (r.b 32)
    let key := kind * 65536 + r.h 33
    match marginInfo kind (r.h 33) with
    | none => s.ends stNOTFOUND
    | some (sp, _) =>
      let v := (s.pwr.margins.get? key).getD (Config.marginOpen key)
      s.endsOk (leBytes 4 (twos 32 v) ++ leBytes 4 (twos 32 (sp.getD (Config.setPointOpen key))))))

end Sys2Proof.Machine
end

