-- ==== Sys2Proof/Machine/CmdFlash.lean ====
section
/-!
DEFINITION. Sys2Proof/Machine/CmdFlash.lean: the mailbox commands on flash media (chapter 18 table "Flash").
-/
namespace Sys2Proof.Machine

/-- A settings write (R574, R630): a trial rewrites its own copy; otherwise the other subsector takes the next SSEQ. -/
def State.storePair (s : State) (pair : List Nat) : State :=
  let x := { s.settings with pair := some pair }
  if s.boot.trial then { s with nor := s.nor.putSetting s.boot.useS1 (some x) }
  else { s with
    nor := s.nor.putSetting (!s.boot.useS1) (some { x with seq := x.seq + 1 }), boot := { s.boot with useS1 := !s.boot.useS1 } }

/-- FLS_CONFIG (R410, R413, R416, R424, R574): a stored pair applies at once when this start opened no extent. -/
def execFlsConfig (core : Nat) (_host : HostData) (s : State) : Host.Outcome State Fault Refusal :=
  .next (s.cmd core 0x0701 gateG (fun s r _ =>
    let pair := (List.range 5).map (fun i => r.b (32 + i))
    let p := { s.pipe with
      scrubDays := min (r.h 40) 365, ecpct := min (r.b 42) 90, wllim := max (r.h 44) 50, pecmax := r.w 48,
      dirtyMax := min (r.d 56) 2147483648 }
    if fbit r.slot 296 then
      let p1 := { p with pair := if p.pair.isNone then some pair else p.pair }
      (({ s with pipe := p1 }).storePair pair).endsOk []
    else ({ s with pipe := p }).endsOk []))

/-- FREE extents, and the least and the greatest PEC of the extents that are not RETIRED (R401, R403, R416). -/
def FlashPart.freeCount (f : FlashPart) : Nat :=
  f.next - (f.exts.filter (fun x => decide (x.1 < f.next) && x.2.st != .free)).length
def FlashPart.pecs (f : FlashPart) : Nat × Nat :=
  let alive := ((f.exts.filter (fun x => decide (x.1 < f.next) && x.2.st != .retired)).map (fun x => x.2.pec))
  let all := if (f.exts.freeKey f.next).isSome then 0 :: alive else alive
  match all with
  | [] => (0, 0)
  | a :: rest => (rest.foldl min a, rest.foldl max a)

/-- FLS_STATUS (R404, R408, R575). -/
def execFlsStatus (core : Nat) (_host : HostData) (s : State) : Host.Outcome State Fault Refusal :=
  .next (s.cmd core 0x0702 (gateP false) (fun s r _ =>
    let f := s.pipe.flash r.part
    let sat := fun (n : Nat) => leBytes 4 (min n sat32Max)
    let tag := if f.loss > 0 && r.q 32 ≠ 0xFFFFFF then f.durable.get? (r.q 32) else none
    s.endsOk (sat f.retries ++ sat f.rebuilds ++ sat f.badLoc ++ leBytes 4 f.next ++ leBytes 4 f.freeCount
      ++ leBytes 2 f.pecs.1 ++ leBytes 2 f.pecs.2 ++ leBytes 8 (b2n (f.loss > 0) + 2 * b2n s.pairStored)
      ++ leBytes 8 (tag.getD 0) ++ leBytes 1 (b2n tag.isSome))))

end Sys2Proof.Machine
end

