-- ==== Sys2Proof/Machine/CoelRows.lean ====
section
/-!
DEFINITION. Sys2Proof/Machine/CoelRows.lean: restarts of the Coelostat: the watchdog, a live activation, and the end of a trial
(chapters 17 and 20).
-/
namespace Sys2Proof.Machine

/-- A command in progress that has not committed (R557, R637): BUSY, or for one that was deferred a final status of ABORTED. -/
def State.abandon (s : State) (x : Running) : State :=
  if x.late then s.result x.req .done stABORTED 0 else s.answer x.req (Answer.busy 10000)

/-- Commands that have not committed are abandoned; deferred ones that have not started, and committed ones, stay.
DESIGN CHOICE, log 58. -/
def State.abandonAll (s : State) : State :=
  let s1 := s.coel.running.vals.foldl State.abandon s
  let s2 := (s1.mbx.flatMap (·.waiting)).foldl (fun s r => s.answer r (Answer.busy 10000)) s1
  { s2 with
    coel := { s2.coel with running := [] }, mbx := s2.mbx.map (fun (b : Mailbox) => { b with waiting := [] }),
    pipe := { s2.pipe with edits := [] } }

/-- What SRAM alone held is lost (R587): result entries and commit records that are not in the store.
DEDUCED, log 57. DEDUCED, log 89. -/
def State.loseSram (s : State) : State :=
  let s1 := { s with mbx := s.mbx.map (fun (b : Mailbox) => { b with results := b.results.filter (·.stored) }) }
  s1.coel.waiters.foldl (fun s w => s.answer w.req (Answer.busy 10000)) { s1 with coel := { s1.coel with waiters := [] } }

/-- The package has left training. -/
def State.trained (s : State) : Bool := s.boot.stage = .ready || s.boot.stage = .serving

/-- The Coelostat restarts from the NOR flash (R587, R617, R639): during training the boot stages are run again from the start
of firmware. DEDUCED, log 56. -/
def State.fromNor (s : State) : State :=
  let training := s.coel.state = .training
  let s1 := s.romEnd (romChoose s.nor s.boot.trialExpired)
  if s1.boot.stage = .recovery then s1
  else if training then { s1 with coel := { s1.coel with state := .restarting }, boot := { s1.boot with stage := .fwStart } }
  else { s1 with coel := { s1.coel with state := .restarting } }

/-- TRIAL_EXPIRED (R639): 900 s of a trial have passed. -/
def execTrialExpired (s : State) : Host.Outcome State Fault Refusal :=
  .next (if !s.boot.trialRun || !s.pwr.good then s
    else
      let s1 := { s with boot := { s.boot with trialRun := false, trialExpired := true } }
      if s.works && s.coel.state ≠ .rom then s1.abandonAll.fromNor.settle else s1)

/-- The control block of an activation (R637 step 3). -/
def Cb.activate (c : Cb) : Cb :=
  let new := !c.active
  { c.setState new .trial with active := new, prev := some c.active, trial := true }

/-- ACTIVATION_WINDOW (R636, R637 steps 1 to 4): the window opens, the control block is programmed and the ROM runs.
DESIGN CHOICE, log 58. -/
def execActivationWindow (s : State) : Host.Outcome State Fault Refusal :=
  .next (if s.owed = 5 then
      let s1 := s.abandonAll
      let serving := (List.range 16).filter (fun k => (s.pipe.part k).st == .serving)
      let s2 := { s1 with
        nor := s1.nor.writeCb s1.nor.cb.activate,
        boot := { s1.boot with window := none, openNow := false, servedBefore := serving, wdInTrial := false } }
      let s3 := s2.romEnd (romChoose s2.nor false)
      (if s3.boot.stage = .recovery then s3 else { s3 with coel := { s3.coel with state := .activating } }).settle
    else s)

/-- ACTIVATED (R637 steps 5 to 7, R639): the image runs, and every enabled mailbox is told. -/
def execActivated (s : State) : Host.Outcome State Fault Refusal :=
  .next (if s.works && s.trained && (s.coel.state = .activating || (s.coel.state = .restarting && s.boot.fellBack)) then
      let s1 := s.showImage
      (({ s1 with coel := { s1.coel with state := .ready } }.eventAll 4).takeSettings).settle
    else s)

/-- WATCHDOG_RESTART (R557, R558, R587, R617): a core has written no heartbeat for 500 ms. DEDUCED, log 56. -/
def execWatchdogRestart (s : State) : Host.Outcome State Fault Refusal :=
  .next (if s.works && s.coel.state ≠ .rom then
      let s1 := s.raise [260]
      if s1.fcu.safe then s1
      else
        let s2 := ({ s1 with coel := { s1.coel with wdcnt := satAdd s1.coel.wdcnt 1 } }).abandonAll
        let s3 := { s2 with boot := { s2.boot with wdInTrial := s2.boot.wdInTrial || s2.boot.trial } }
        (if !s3.storeUp then s3.loseSram.fromNor
         else
          let nor := if s3.boot.trial then s3.nor.bumpUnconf else s3.nor
          { s3 with
            nor := nor, coel := { s3.coel with state := .restarting },
            boot := { s3.boot with unconf := if s3.boot.trial then nor.cb.count else s3.boot.unconf } }).settle
    else s)

/-- COEL_RESTART (R557 step 6): firmware has rebuilt its SRAM, and every enabled mailbox is told. -/
def execCoelRestart (s : State) : Host.Outcome State Fault Refusal :=
  .next (if s.works && s.trained && s.coel.state = .restarting && !s.boot.fellBack then
      let s1 := s.showImage
      ({ s1 with coel := { s1.coel with state := .ready } }.eventAll 3).settle
    else s)

end Sys2Proof.Machine
end

