-- ==== Sys2Proof/Machine/CmdFw.lean ====
section
/-!
DEFINITION. Sys2Proof/Machine/CmdFw.lean: the mailbox commands on firmware images (chapter 18 table "Firmware"; R631 to R640).
-/
namespace Sys2Proof.Machine

/-- The slot that downloads go into (R631, R640): the one that ACTIVE does not name, and slot A in recovery. -/
def State.dlSlot (s : State) : Bool := if s.coel.state = .rom then false else !s.nor.cb.active

/-- State of that slot. -/
def State.dlState (s : State) : SlotState := s.nor.cb.state s.dlSlot

/-- The download in progress: its length and the chunks present. DEDUCED, log 59. -/
def State.download (s : State) : Option (Nat × List Nat) :=
  if s.dlState = .partial_ || s.dlState = .complete then s.nor.dl else none

/-- Chunks of an image, and bytes of one. -/
def chunkCount (l : Nat) : Nat := ceilDiv l 65536
def chunkLen (l c : Nat) : Nat := min 65536 (l - 65536 * c)

/-- Chunks held, and the first missing one, as FW_CHUNK answers. -/
def chunkReport (l : Nat) (have_ : List Nat) : List Byte :=
  leBytes 4 have_.length ++ leBytes 4 (((List.range (chunkCount l)).find? (fun c => !have_.contains c)).getD 0xFFFFFFFF)

/-- The first chunk of a download (R632): the download state is begun and the slot is PARTIAL. DEDUCED, log 60. -/
def Nor.beginDl (n : Nor) (slot : Bool) (l : Nat) : Nor := { n.writeCb (n.cb.setState slot .partial_) with dl := some (l, []) }

/-- A chunk is programmed and marked (R633); with the last one the slot is COMPLETE. DEDUCED, log 60. -/
def Nor.putChunk (n : Nor) (slot : Bool) (l c : Nat) (have_ : List Nat) (bs : List Byte) : Nor :=
  let at_ := 65536 * c
  let n1 := { n with slots := n.slots.clear (b2n slot * 2 ^ 25 + at_) 65536 }
  let got := (List.range (chunkCount l)).filter (fun i => i == c || have_.contains i)
  let n2 := { n1.program slot at_ bs with dl := some (l, got) }
  if got.length = chunkCount l then n2.writeCb (n2.cb.setState slot .complete) else n2

/-- FW_CHUNK (R631 to R634, R640). DEDUCED, log 60. -/
def execFwChunk (core : Nat) (host : HostData) (s : State) : Host.Outcome State Fault Refusal :=
  .next (s.cmd core 0x0A01 gateG (fun s r _ =>
    let l := min (r.w 32) 33554432
    let c := r.w 36
    let other := match s.download with | some (x, _) => x != l | none => false
    let trial := s.boot.trial && s.coel.state != .rom
    if !s.nor.present then s.ends stVERIFY
    else if other || c ≥ chunkCount l || trial || s.dlState = .verified then s.ends stSEQUENCE
    else match r.buffer host (chunkLen l c) with
      | none => s.ends stHOST
      | some b =>
        if (crc32c b).toNat ≠ r.w 40 then s.ends stVERIFY
        else
          let n := match s.download with | some _ => s.nor | none => s.nor.beginDl s.dlSlot l
          let have_ := match s.download with | some (_, h) => h | none => []
          let n1 := if have_.contains c then n else n.putChunk s.dlSlot l c have_ b
          let now := match n1.dl with | some (_, h) => h | none => []
          ({ s with nor := n1 }).endsOk (chunkReport l now)))

/-- FW_VERIFY (R635). DEDUCED, log 61. -/
def execFwVerify (core : Nat) (_host : HostData) (s : State) : Host.Outcome State Fault Refusal :=
  .next (s.cmd core 0x0A02 gateG (fun s _ _ =>
    if s.dlState = .verified then s.endsOk (leBytes 4 (s.nor.imageVersion s.dlSlot))
    else if s.dlState ≠ .complete then s.ends stSEQUENCE
    else
      let x := s.nor.verifySlot s.dlSlot
      let s1 := { s with nor := x.1 }
      if x.2 then s1.endsOk (leBytes 4 (x.1.imageVersion s.dlSlot)) else s1.ends stVERIFY))

/-- Recovery starts slot A as a trial with PREV none (R640): the ROM runs at once. DEDUCED, log 62. -/
def State.startSlotA (s : State) : State :=
  let cb := { s.nor.cb.setState false .trial with active := false, prev := none, trial := true }
  let s1 := { s with nor := s.nor.eraseOlder.writeCb cb }
  let s2 := s1.romEnd (romChoose s1.nor false)
  if s2.boot.stage = .recovery && s2.boot.trialRun = false && s2.boot.trial = false then s2
  else { s2 with boot := { s2.boot with stage := .fwStart } }

/-- FW_ACTIVATE (R636, R640). DEDUCED, log 62. -/
def execFwActivate (core : Nat) (_host : HostData) (s : State) : Host.Outcome State Fault Refusal :=
  .next (s.cmd core 0x0A03 gateG (fun s r _ =>
    if s.dlState ≠ .verified then s.ends stSEQUENCE
    else if s.coel.state = .rom then s.startSlotA.endsOk []
    else
      let t := r.d 32
      let now := t = 0 || t ≤ s.mer.now
      ({ s with
        nor := s.nor.eraseOlder,
        boot := { s.boot with openNow := now, window := if now then none else some (t, s.mer.now) } }).endsOk []))

/-- The health checks of a trial (R638). -/
def State.healthy (s : State) : Bool :=
  s.boot.servedBefore.all (fun k => !s.pipe.fenced k) && s.storeUp && !s.boot.wdInTrial

/-- FW_CONFIRM (R638). DEDUCED, log 61. -/
def execFwConfirm (core : Nat) (_host : HostData) (s : State) : Host.Outcome State Fault Refusal :=
  .next (s.cmd core 0x0A04 gateG (fun s _ _ =>
    if !s.boot.trial || !s.healthy then s.ends stSEQUENCE
    else
      let n := s.nor.eraseOlder
      let cb := { n.cb.setState s.boot.slot .confirmed with trial := false }
      ({ s with nor := n.writeCb cb, boot := { s.boot with trial := false, trialRun := false, unconf := 0 } }).endsOk []))

/-- FW_STATUS. -/
def execFwStatus (core : Nat) (_host : HostData) (s : State) : Host.Outcome State Fault Refusal :=
  .next (s.cmd core 0x0A05 (gateFree .g) (fun s _ _ =>
    let held := match s.download with | some (_, h) => h.length | none => 0
    s.endsOk (leBytes 4 s.boot.version ++ leBytes 1 (b2n s.boot.trial) ++ leBytes 1 s.boot.unconf
      ++ leBytes 1 (s.nor.cb.state false).code ++ leBytes 1 (s.nor.cb.state true).code ++ leBytes 4 held ++ leBytes 4 0
      ++ padTo 48 s.boot.digest)))

/-- FW_DISCARD (R634). DEDUCED, log 61. -/
def execFwDiscard (core : Nat) (_host : HostData) (s : State) : Host.Outcome State Fault Refusal :=
  .next (s.cmd core 0x0A06 gateG (fun s _ _ =>
    ({ s with
      nor := { s.nor.writeCb (s.nor.cb.setState s.dlSlot .empty) with dl := none },
      boot := { s.boot with window := none, openNow := false } }).endsOk []))

end Sys2Proof.Machine
end

