-- ==== Sys2Proof/Machine/CmdQueues.lean ====
section
/-!
DEFINITION. Sys2Proof/Machine/CmdQueues.lean: the mailbox commands on queues and on schedulers (chapter 18 tables "Queues" and
"Scheduling").
-/
namespace Sys2Proof.Machine

/-! ## Queues (R445 to R449) -/

/-- The gate of a command on the queue at byte 32. DEDUCED, log 87. DEDUCED, log 171. -/
def gateQ (store : Bool) (_ : State) (r : Request) : Gate :=
  { store := store, scope := .o, home := r.q 32 / 2 ^ 20, targets := [r.q 32 / 2 ^ 20], enabled := true }

/-- The answer of a change under a generation number. -/
def State.queued (s : State) (x : Pipe × Nat × Nat) : State × CmdEnd :=
  ({ s with pipe := x.1 }, .done { status := x.2.1, gen := x.2.2 })

/-- The 64-byte image at byte 64. -/
def Request.image (r : Request) : List Byte := slice r.slot 64 64

/-- QUE_CREATE (R448): START 0x01 alone creates a PAUSED queue. -/
def execQueCreate (core : Nat) (_host : HostData) (s : State) : Host.Outcome State Fault Refusal :=
  .next (s.cmd core 0x0201 (gateQ true) (fun s r _ => s.queued (s.pipe.queCreate (r.q 32) r.gen (r.b 35 == 1) r.image)))

/-- QUE_MODIFY (R448). -/
def execQueModify (core : Nat) (_host : HostData) (s : State) : Host.Outcome State Fault Refusal :=
  .next (s.cmd core 0x0202 (gateQ true) (fun s r _ => s.queued (s.pipe.queModify (r.q 32) r.gen r.image)))

/-- QUE_PAUSE (R448). -/
def execQuePause (core : Nat) (_host : HostData) (s : State) : Host.Outcome State Fault Refusal :=
  .next (s.cmd core 0x0203 (gateQ true) (fun s r _ => s.queued (s.pipe.quePause (r.q 32) r.gen)))

/-- QUE_RESUME (R448). -/
def execQueResume (core : Nat) (_host : HostData) (s : State) : Host.Outcome State Fault Refusal :=
  .next (s.cmd core 0x0204 (gateQ true) (fun s r _ => s.queued (s.pipe.queResume (r.q 32) r.gen)))

/-- QUE_DESTROY (R448). -/
def execQueDestroy (core : Nat) (_host : HostData) (s : State) : Host.Outcome State Fault Refusal :=
  .next (s.cmd core 0x0205 (gateQ true) (fun s r _ => s.queued (s.pipe.queDestroy (r.q 32) r.gen)))

/-- QUE_RESET (R449). -/
def execQueReset (core : Nat) (_host : HostData) (s : State) : Host.Outcome State Fault Refusal :=
  .next (s.cmd core 0x0206 (gateQ true) (fun s r _ => s.queued (s.pipe.queReset (r.q 32) r.gen)))

/-- QUE_READ (R430). -/
def execQueRead (core : Nat) (_host : HostData) (s : State) : Host.Outcome State Fault Refusal :=
  .next (s.cmd core 0x0207 (gateQ false) (fun s r _ =>
    let p := s.pipe.touchQueue (r.q 32)
    let e := p.queue (r.q 32)
    ({ s with pipe := p }, .done { status := stOK, gen := e.gen, payload := List.replicate 32 0#8 ++ e.image })))

/-- QRY_ABORT (R124, R125). -/
def execQryAbort (core : Nat) (_host : HostData) (s : State) : Host.Outcome State Fault Refusal :=
  .next (s.cmd core 0x0208 (gateQ false) (fun s r _ =>
    let x := s.pipe.abortJob (r.q 32) (r.h 36) (r.d 40)
    ({ s with pipe := x.1 }, .done { status := x.2.1, hint := x.2.2 })))

/-! ## Scheduling (R466 to R484) -/

/-- Change the scheduler of every target; a fenced partition's is the Coelostat's copy (R566). -/
def State.modScheds (s : State) (r : Request) (f : Sched → Sched) : State :=
  { s with pipe := r.targets.foldl (fun (p : Pipe) k => p.modPart k (fun q => { q with sched := f q.sched })) s.pipe }

/-- SHP_SET (R471). -/
def execShpSet (core : Nat) (_host : HostData) (s : State) : Host.Outcome State Fault Refusal :=
  .next (s.cmd core 0x0301 (gateP true) (fun s r _ =>
    let n := r.h 32
    if n = 0 then s.ends stNOTFOUND
    else (s.modScheds r (fun c => { c with shapers := c.shapers.set n ((c.shaper n).set (r.w 36) (r.w 40) s.us) })).endsOk []))

/-- The bytes of a shaper entry (R467). -/
def Shaper.bytes (x : Shaper) : List Byte :=
  packBytes 32 [(32, x.rate), (32, x.burst), (64, twos 64 x.tokens), (64, x.last), (64, 0)]

/-- SHP_READ (R468): the entry after a refill. -/
def execShpRead (core : Nat) (_host : HostData) (s : State) : Host.Outcome State Fault Refusal :=
  .next (s.cmd core 0x0302 (gateP false) (fun s r _ =>
    let n := r.h 32
    if n = 0 then s.ends stNOTFOUND
    else
      let x := ((s.pipe.part r.part).sched.shaper n).refill s.us
      (s.modScheds r (fun c => { c with shapers := c.shapers.set n x })).endsOk x.bytes))

/-- The windows that TRN_WRITE carries (R472). DESIGN CHOICE, log 154. -/
def decodeWindows (n : Nat) (b : List Byte) : List TWindow :=
  (List.range n).map (fun i => { len := max 1 (field b (64 * i) 24), gates := field b (64 * i + 24) 16, maint := field b (64 * i + 40) 6 })

/-- TRN_WRITE (R472, R474): a fifth pending list in any target leaves every one unchanged. It applies after the events of the
counter value. DEDUCED, log 88. -/
def execTrnWrite (core : Nat) (host : HostData) (s : State) : Host.Outcome State Fault Refusal :=
  .next (s.cmd core 0x0303 (gateP true) (fun s r _ =>
    let n := min (r.b 40) 64
    match r.buffer host (8 * n) with
    | none => s.ends stHOST
    | some b =>
      let l : TList := { t := r.d 32, wins := decodeWindows n b, wrote := s.mer.now }
      if r.targets.any (fun k => ((s.pipe.part k).sched.writeList l).isNone) then s.ends stTRNFULL
      else if s.owed ≤ 3 then (s, .wait)
      else (s.modScheds r (fun c => (c.writeList l).getD c)).endsOk []))

/-- The bytes of a transit window (R472). -/
def TWindow.bytes (w : TWindow) : List Byte := packBytes 8 [(24, w.len), (16, w.gates), (6, w.maint), (18, 0)]

/-- TRN_READ (R472): the current list, or a pending one in order of T. -/
def execTrnRead (core : Nat) (host : HostData) (s : State) : Host.Outcome State Fault Refusal :=
  .next (s.cmd core 0x0304 (gateP false) (fun s r _ =>
    let c := (s.pipe.part r.part).sched
    let pend := sortBy (fun (a b : TList) => decide (a.t < b.t)) c.pending
    let l := if 1 ≤ r.b 32 && r.b 32 ≤ 4 then pend[r.b 32 - 1]?
      else some c.current
    match l with
    | none => s.endsOk (List.replicate 10 0#8)
    | some l =>
      let w := s.toBuffer r host (l.wins.flatMap TWindow.bytes)
      (w.1, .done (bufferAnswer w.2 (leBytes 8 l.t ++ leBytes 1 l.wins.length ++ leBytes 1 1)))))

/-- BUD_SET (R476, R478): in force from the next counter value. DEDUCED, log 88. -/
def execBudSet (core : Nat) (_host : HostData) (s : State) : Host.Outcome State Fault Refusal :=
  .next (s.cmd core 0x0305 (gateP true) (fun s r _ =>
    if s.owed ≤ 3 then (s, .wait)
    else
      let set := fun (c : Sched) => (List.range 45).foldl (fun (c : Sched) i =>
        if bitOf (r.d 32) i then c.setBudget (i / 5) (i % 5) (r.w (40 + 4 * i)) s.mer.now else c) c
      (s.modScheds r set).endsOk []))

/-- BUD_READ (R476): 45 records of 16 bytes. -/
def execBudRead (core : Nat) (host : HostData) (s : State) : Host.Outcome State Fault Refusal :=
  .next (s.cmd core 0x0306 (gateP false) (fun s r _ =>
    let rec_ := fun (b : Budget) => packBytes 16 [(32, (b.settle s.mer.now).value), (48, b.use), (8, b.age), (40, 0)]
    let w := s.toBuffer r host (((s.pipe.part r.part).sched.budgets).flatMap rec_)
    (w.1, .done (bufferAnswer w.2 []))))

end Sys2Proof.Machine
end

