-- ==== Sys2Proof/Machine/CmdIndex.lean ====
section
/-!
DEFINITION. Sys2Proof/Machine/CmdIndex.lean: the mailbox commands on indexes, filters, embedding tables and loaded programs
(chapter 18 tables "Indexes" and "Programs").
-/
namespace Sys2Proof.Machine

/-! ## Pages and charges of commands (R459, R568) -/

/-- A range of the index address space cut at the page boundaries: (address, length); `fuel` bounds the pages. -/
def cutRange : Nat → Nat → Nat → List (Nat × Nat)
  | 0, _, _ => []
  | k + 1, a, n => if n = 0 then [] else let m := min n (65536 - a % 65536); (a, m) :: cutRange k (a + m) (n - m)

/-- Count bytes that a command moves over the stack interfaces behind a range, against MANAGEMENT. -/
def Pipe.countIas (p : Pipe) (a n : Nat) : Pipe :=
  (cutRange (n / 65536 + 2) a n).foldl (fun (p : Pipe) x =>
    match p.iasKey x.1 with | some key => p.count (key / 2 ^ 36) 8 2 x.2 | none => p) p

/-- Can a page be read now by a command: it is there, and its partition is not fenced? DEDUCED, log 91. -/
def Pipe.pageOpen (p : Pipe) (pg : PageId) : Bool :=
  let e := p.tier pg
  e.here && (!e.holds || !p.fenced e.home)

/-- Pages of byte ranges. -/
def Pipe.rangePages (p : Pipe) (rs : List (Nat × Nat)) : List PageId := (rs.flatMap (fun r => pagesOf p.variant64 r.1 r.2)).eraseDups

/-- The ranges are there. -/
def Pipe.rangesOpen (p : Pipe) (rs : List (Nat × Nat)) : Bool := (p.rangePages rs).all p.pageOpen

/-- The command waits for the pages of its ranges, or ends when one finds no frame. DEDUCED, log 91. -/
def State.waitFor (s : State) (rs : List (Nat × Nat)) (fail : Option Nat) : State × CmdEnd :=
  let x := s.pipe.wantPages (s.pipe.rangePages rs)
  match x.2, fail with
  | true, some st => ({ s with pipe := x.1 }).ends st
  | _, _ => ({ s with pipe := x.1 }, .wait)

/-! ## IDX_LOAD (R178, R281 to R284, R288, R383) -/

/-- Bytes of a centroid row in the table (R284). -/
def centRow (drp : DrpBlock) (dim : Nat) : Nat := ceilDiv (fmtBytes drp.cfmt (rotLen drp.blklog dim)) 32 * 32

/-- What stands in the index address space for an index: the descriptor, the parameter block, and the byte ranges of the sign
vector, the permutation, the codebook, the centroid rows and their norms. -/
structure IdxSource where
  desc : IDesc
  drp : DrpBlock
  signs : Nat × Nat
  perm : Nat × Nat
  book : Nat × Nat
  rows : Nat × Nat
  norms : Nat × Nat

/-- Where the parts of an index lie, by its descriptor and block as they stand now. DEDUCED, log 94. -/
def Pipe.idxSource (p : Pipe) (addr : Nat) : IdxSource :=
  let d := decodeIDesc (p.iasRead addr 64)
  let drp := decodeDrp (p.iasRead d.drpAddr 64) [] []
  let dr := rotLen drp.blklog d.dim
  let n := if d.graph then 0 else d.nclust
  let len := n * centRow drp d.dim
  { desc := d, drp := drp, signs := (drp.signAddr, if drp.signEn then ceilDiv dr 8 else 0),
    perm := (drp.permAddr, if drp.permEn then 2 * dr else 0), book := (drp.pqAddr, if drp.sfmt = 8 then 512 * dr else 0),
    rows := (d.centAddr, len), norms := (ceilDiv (d.centAddr + len) 32 * 32, if d.metric = 1 then 4 * n else 0) }

/-- The coarse level's ranges, which IDX_LOAD pins, as far as they can be known now. -/
def Pipe.coarseRanges (p : Pipe) (addr : Nat) : List (Nat × Nat) :=
  if !p.rangesOpen [(addr, 64)] then [(addr, 64)]
  else
    let x := p.idxSource addr
    let r := [(addr, 64), (x.desc.drpAddr, 64)]
    if !p.rangesOpen r then r else r ++ [x.signs, x.perm, x.book, x.rows, x.norms]

/-- The norm of a centroid row from its codes (R284): fp32, in increasing element order. -/
def rowNorm (drp : DrpBlock) (dr : Nat) (row : List Byte) : W32 :=
  f32Sum ((List.range dr).map (fun i =>
    let c := satMulF drp.cscale (f32Enc (elemNum drp.cfmt row i))
    satMulF c c))

/-- The copies that IDX_LOAD makes. DESIGN CHOICE, log 93. DEDUCED, log 94. -/
def Pipe.idxCopy (p : Pipe) (handle addr : Nat) : IdxCopy :=
  let x := p.idxSource addr
  let dr := rotLen x.drp.blklog x.desc.dim
  let l := centRow x.drp x.desc.dim
  let n := if x.desc.graph then 0 else x.desc.nclust
  let rows := (List.range n).map (fun j => p.iasRead (x.rows.1 + j * l) l)
  let stored := p.iasRead x.norms.1 x.norms.2
  let norms := if x.desc.metric = 1 then (List.range n).map (fun j => BitVec.ofNat 32 (le32 stored (4 * j))) else rows.map (rowNorm x.drp dr)
  { handle := handle, addr := addr, desc := x.desc,
    drp := decodeDrp (p.iasRead x.desc.drpAddr 64) (p.iasRead x.signs.1 x.signs.2) (p.iasRead x.perm.1 x.perm.2),
    book := p.iasRead x.book.1 x.book.2, rows := rows, norms := norms, dormant := false, nodes := [] }

/-- IDX_LOAD sets PIN on the pages of the coarse level (R383). DEDUCED, log 92. -/
def Pipe.pinPages (p : Pipe) (rs : List (Nat × Nat)) : Pipe :=
  (p.rangePages rs).foldl (fun (p : Pipe) pg =>
    match pg with
    | .gen _ => let e := p.tier pg; if e.st = .unmapped then p else p.setTier pg { e with pin := true }
    | .bank _ _ _ => p) p

/-- A handle takes a load (R283, R288, R461): the pieces of unfenced partitions enter the ordinal maps, and the estimates of the
handle are as at a load. DESIGN CHOICE, log 93. DEDUCED, log 96. -/
def Pipe.installIdx (p : Pipe) (x : IdxCopy) : Pipe :=
  let l := p.nextLoad
  let p1 := ({ p with
    nextLoad := l + 1, handles := p.handles.set x.handle l, idx := p.idx.set l x,
    parts := p.parts.map (fun (q : Part) => { q with sched := { q.sched with ests := q.sched.ests.erase x.handle } }) } : Pipe).learnNodes l
  (((p1.allPieces x).filter (fun r => !p1.fenced r.1)).foldl (fun (p : Pipe) r => p.mapPiece l r) p1).sweep

/-- IDX_LOAD once every page is there: the copies are counted, where they are read and where they are written.
DESIGN CHOICE, log 95. -/
def Pipe.loadIdx (p : Pipe) (handle addr : Nat) (rs : List (Nat × Nat)) : Pipe :=
  let x := p.idxSource addr
  let p1 := rs.foldl (fun (p : Pipe) r => p.countIas r.1 r.2) p
  let p2 := ((List.range 16).filter (fun k => !p.fenced k)).foldl (fun (p : Pipe) k => p.count k 8 2 (x.rows.2 + x.norms.2)) p1
  (p2.pinPages rs).installIdx (p.idxCopy handle addr)

/-- The gate of a scope G command on indexes (R677). -/
def gateIdx : State → Request → Gate := gateG

/-- The gate of one that reads or writes index objects, or loads a kernel or network (R169, R320, R362). DEDUCED, log 171. -/
def gateObj (s : State) (r : Request) : Gate := { gateG s r with enabled := true }

/-- IDX_LOAD. -/
def execIdxLoad (core : Nat) (_host : HostData) (s : State) : Host.Outcome State Fault Refusal :=
  .next (s.cmd core 0x0401 gateObj (fun s r late =>
    if r.h 32 > 0xFF then s.ends stNOTFOUND
    else s.unshort late s.unfencedList (
      let rs := s.pipe.coarseRanges (r.d 40)
      if !s.pipe.rangesOpen rs then s.waitFor rs (some stNOSPACE)
      else
        let x := s.pipe.idxCopy (r.h 32) (r.d 40)
        if !s.pipe.rangesOpen [x.listRange] then s.waitFor [x.listRange] (some stNOSPACE)
        else if !s.pipe.rangesOpen (s.pipe.tabRanges x) then s.waitFor (s.pipe.tabRanges x) (some stNOSPACE)
        else ({ s with pipe := s.pipe.loadIdx (r.h 32) (r.d 40) rs }).endsOk [])))

/-- IDX_UNLOAD (R97, R283, R288). DEDUCED, log 96. -/
def execIdxUnload (core : Nat) (_host : HostData) (s : State) : Host.Outcome State Fault Refusal :=
  .next (s.cmd core 0x0402 gateIdx (fun s r _ =>
    let h := r.h 32
    if !s.pipe.handles.has h then s.ends stNOTFOUND
    else
      let gone := fun (q : Part) => { q with
        sched := { q.sched with ests := q.sched.ests.erase h }, compQueue := q.compQueue.filter (fun c => c.1 != h) }
      let p := { s.pipe with
        handles := s.pipe.handles.erase h, cacheTier := s.pipe.cacheTier.erase h, parts := s.pipe.parts.map gone }
      ({ s with pipe := p.sweep }).endsOk []))

/-- IDX_TIER (R385). -/
def execIdxTier (core : Nat) (_host : HostData) (s : State) : Host.Outcome State Fault Refusal :=
  .next (s.cmd core 0x0403 gateIdx (fun s r _ =>
    if !s.pipe.handles.has (r.h 32) then s.ends stNOTFOUND
    else ({ s with pipe := { s.pipe with cacheTier := s.pipe.cacheTier.set (r.h 32) (r.d 40, r.d 48, r.w 56) } }).endsOk []))

/-- The pieces of partition k that IDX_COMPACT names (R310, R323): of one cluster or of all, and of a graph index the fringe
pieces of the subgraph. DEDUCED, log 97. -/
def Pipe.compactTargets (p : Pipe) (x : IdxCopy) (k cluster : Nat) : List (Nat × Nat × Nat) :=
  if x.desc.graph then
    let g := p.subgraph x k
    ((p.pieceTab g.ptab g.npiece).drop g.fringe).map (fun r => (0, r.1, r.2))
  else
    let cs := if cluster = 0xFFFFFFFF then List.range x.desc.nclust else if cluster < x.desc.nclust then [cluster] else []
    (cs.filter (fun j => (p.cluster x j).owner == k)).flatMap (fun j =>
      let c := p.cluster x j
      (p.pieceTab c.ptab c.npiece).map (fun r => (j, r.1, r.2)))

/-- IDX_COMPACT (R310). -/
def execIdxCompact (core : Nat) (_host : HostData) (s : State) : Host.Outcome State Fault Refusal :=
  .next (s.cmd core 0x0404 (gateP true) (fun s r _ =>
    match s.pipe.index (r.h 32) with
    | none => s.ends stNOTFOUND
    | some x =>
      if !s.pipe.rangesOpen [x.listRange] then s.waitFor [x.listRange] none
      else if !s.pipe.rangesOpen (s.pipe.tabRanges x) then s.waitFor (s.pipe.tabRanges x) none
      else
        let mine := fun (k : Nat) => (s.pipe.compactTargets x k (r.w 36)).map (fun t => (r.h 32, t))
        let put := fun (p : Pipe) (k : Nat) => p.modPart k (fun q => { q with
          compQueue := q.compQueue ++ (mine k).filter (fun t => !q.compQueue.contains t) })
        let n := (r.targets.map (fun k => (mine k).length)).foldl (· + ·) 0
        ({ s with pipe := r.targets.foldl put s.pipe }).endsOk (leBytes 4 n)))

/-- EPOCH_RETAIN (R308). DEDUCED, log 98. -/
def execEpochRetain (core : Nat) (_host : HostData) (s : State) : Host.Outcome State Fault Refusal :=
  .next (s.cmd core 0x0405 gateIdx (fun s r _ =>
    let p := { s.pipe with oldest := max s.pipe.oldest (min (r.e 32) s.mer.pub) }
    ({ s with pipe := p }).endsOk (leBytes 6 p.oldestNow ++ leBytes 2 0 ++ leBytes 6 p.oldest)))

/-- CKPT_CONFIG (R317). -/
def execCkptConfig (core : Nat) (_host : HostData) (s : State) : Host.Outcome State Fault Refusal :=
  .next (s.cmd core 0x0406 gateIdx (fun s r _ =>
    ({ s with pipe := { s.pipe with ckptMs := r.w 32, ckptNow := s.pipe.ckptNow || fbit r.slot 288 } }).endsOk []))

/-! ## Filters (R294, R296) -/

/-- Change the residency bits of a range of filters in every target (R566). -/
def State.modFilters (s : State) (r : Request) (on : Bool) : State × CmdEnd :=
  let first := r.h 32
  let n := count1 (r.h 34)
  if first > 4095 then s.ends stNOTFOUND
  else
    let hit := fun (f : Nat) => decide (first ≤ f) && decide (f < first + n)
    let set := fun (q : Part) => { q with resident := (List.range 4096).filter (fun f => if hit f then on else q.resident.contains f) }
    ({ s with pipe := r.targets.foldl (fun (p : Pipe) k => p.modPart k set) s.pipe }).endsOk []

/-- FLT_LOAD. -/
def execFltLoad (core : Nat) (_host : HostData) (s : State) : Host.Outcome State Fault Refusal :=
  .next (s.cmd core 0x0407 (gateP true) (fun s r _ => s.modFilters r true))

/-- FLT_DROP. -/
def execFltDrop (core : Nat) (_host : HostData) (s : State) : Host.Outcome State Fault Refusal :=
  .next (s.cmd core 0x0408 (gateP true) (fun s r _ => s.modFilters r false))

/-- Is the directory slice of an id out of reach: its partition, or the partition of one of its pages, is fenced? -/
def Pipe.sliceFenced (p : Pipe) (x : IdxCopy) (id : Nat) : Bool :=
  p.fenced (dirSliceOf id)
    || (p.rangePages (x.dirRanges id)).any (fun pg => let e := p.tier pg; e.st != .unmapped && e.st != .zero && p.fenced e.home)

/-- What FLT_EDIT does with its ids: ids absent, and entries by piece (R288, R296). DESIGN CHOICE, log 99. -/
def Pipe.editPlan (p : Pipe) (x : IdxCopy) (ids : List Nat) : Nat × List (PieceRef × List Nat) :=
  ids.foldl (fun (acc : Nat × List (PieceRef × List Nat)) id =>
    if p.sliceFenced x id then acc
    else match (if (p.dirSearch x id).fresh then none else (p.dirSearch x id).found) with
      | none => (acc.1 + 1, acc.2)
      | some (_, ord, k) =>
        if p.fenced k then acc
        else match p.resolve k ord with
          | none => acc
          | some (pc, a, _, n) =>
            let ref : PieceRef := (k, pc, a)
            if acc.2.any (fun g => g.1 == ref) then (acc.1, acc.2.map (fun g => if g.1 == ref then (g.1, g.2 ++ [n]) else g))
            else (acc.1, acc.2 ++ [(ref, [n])])) (0, [])

/-- Does a COMPACT of a piece run, or wait to? An edit of its filters follows the switch, so that no copy misses it.
DESIGN CHOICE, log 161. -/
def Pipe.compacting (p : Pipe) (r : PieceRef) : Bool :=
  (p.part r.1).comps.any (fun c => c.pc == r.2.1 && c.old == r.2.2 && c.step == 2)

/-- Does a request of this number stand in an NBU, or its end message wait in a core? -/
def Pipe.inFlight (p : Pipe) (job : Nat) : Bool :=
  p.parts.any (fun q =>
    q.nbus.any (fun n => n.2.queue.any (fun r => r.job == job) || n.2.threads.any (fun t => match t.req with | some r => r.job == job | none => false))
      || q.core.ends.any (fun m => m.req.job == job))

/-- Issue the BITMAP requests of an FLT_EDIT. -/
def Pipe.issueEdits (p : Pipe) (job filter : Nat) (on : Bool) (gs : List (PieceRef × List Nat)) : Pipe :=
  gs.foldl (fun (p : Pipe) g =>
    p.inject g.1.1 g.1.2.1 { NbuReq.zero with
      kernel := 6, cls := 3, piece := g.1.2.2, job := job, home := g.1.1, selreq := g.2.length, arg0 := filter, arg1 := b2n on,
      operand := let b := g.2.flatMap (leBytes 4); b ++ List.replicate (ceilDiv b.length 32 * 32 - b.length) 0xFF#8 }) p

/-- FLT_EDIT (R296): the ids are resolved, the BITMAPs run, and their ends are counted. DESIGN CHOICE, log 99. -/
def execFltEdit (core : Nat) (host : HostData) (s : State) : Host.Outcome State Fault Refusal :=
  .next (s.cmd core 0x0409 gateObj (fun s r late =>
    let job := 2 ^ 32 + r.seq
    let n := min (r.w 40) 65536
    if (s.progress core).1 = 1 then
      if s.pipe.inFlight job then (s, .wait)
      else
        let mine := fun (e : Nat × Nat × Bool) => e.1 == r.seq
        let done_ := ((s.pipe.edits.filter (fun e => mine e && e.2.2)).map (fun e => e.2.1)).foldl (· + ·) 0
        let absent := (s.progress core).2
        ({ s with pipe := { s.pipe with edits := s.pipe.edits.filter (fun e => !mine e) } }).endsOk
          (leBytes 4 done_ ++ leBytes 4 absent ++ leBytes 4 (n - done_ - absent))
    else match s.pipe.index (r.h 32) with
    | none => s.ends stNOTFOUND
    | some x =>
      if r.h 34 > 4095 then s.ends stNOTFOUND
      else s.unshort late s.unfencedList (
        match r.buffer host (8 * n) with
        | none => s.ends stHOST
        | some b =>
          let ids := (List.range n).map (fun i => le64 b (8 * i))
          let dirs := (ids.filter (fun i => !s.pipe.sliceFenced x i)).flatMap x.dirRanges
          if !s.pipe.rangesOpen dirs then s.waitFor dirs none
          else
            let plan := s.pipe.editPlan x ids
            let spans := (plan.2.flatMap (fun g => s.pipe.pieceSpan g.1.1 g.1.2.1 g.1.2.2)).eraseDups
            if !s.pipe.pagesHere spans then ({ s with pipe := (s.pipe.wantPages spans).1 }, .wait)
            else if plan.2.any (fun g => s.pipe.compacting g.1) then (s, .wait)
            else
              let p1 := dirs.foldl (fun (p : Pipe) a => p.countIas a.1 a.2) s.pipe
              ({ s with pipe := p1.issueEdits job (r.h 34) (fbit r.slot 288) plan.2 }, .more 1 plan.1))))

/-! ## Embedding tables (R345, R349, R350, R357) -/

/-- ETAB_LOAD (R349). -/
def execEtabLoad (core : Nat) (_host : HostData) (s : State) : Host.Outcome State Fault Refusal :=
  .next (s.cmd core 0x040A gateObj (fun s r late =>
    if r.h 32 > 63 then s.ends stNOTFOUND
    else s.unshort late s.unfencedList (
      let addr := r.d 40
      if !s.pipe.rangesOpen [(addr, 64)] then s.waitFor [(addr, 64)] none
      else
        let b := s.pipe.iasRead addr 64
        let rt := (le64 b 32, 16 * min (field b 192 7) 64)
        if !s.pipe.rangesOpen [rt] then s.waitFor [rt] none
        else
          let p1 := (s.pipe.countIas addr 64).countIas rt.1 rt.2
          let p2 := { p1 with
            nextLoad := p1.nextLoad + 1, etabHandles := p1.etabHandles.set (r.h 32) p1.nextLoad,
            etabs := p1.etabs.set p1.nextLoad (decodeETab (r.h 32) b (p1.iasRead rt.1 rt.2)) }
          let p3 := s.unfencedList.foldl (fun (p : Pipe) k => p.count k 8 2 (64 + rt.2)) p2
          ({ s with pipe := p3.sweep }).endsOk [])))

/-- POOL_CONFIG (R350, R357, R566). -/
def execPoolConfig (core : Nat) (_host : HostData) (s : State) : Host.Outcome State Fault Refusal :=
  .next (s.cmd core 0x040B (gateP true) (fun s r _ =>
    let set := fun (q : Part) => { q with ordered := fbit r.slot 256, pfDepth := min (r.b 33) 8 }
    ({ s with pipe := r.targets.foldl (fun (p : Pipe) k => p.modPart k set) s.pipe }).endsOk []))

/-! ## Programs (R140, R163, R253, R254, R573) -/

/-- A kernel in a slot of the Coelostat's copy and of every unfenced core, or none (R140, R168). -/
def Pipe.loadKernel (p : Pipe) (slot : Nat) (b : Option (List Byte)) : Pipe :=
  { p with
    kernels := p.kernels.put slot b,
    parts := p.parts.map (fun (q : Part) =>
      if q.st = .serving then { q with core := { q.core with kernels := q.core.kernels.put slot b } } else q) }

/-- KRN_LOAD (R140): HLEN 0 empties the slot. DESIGN CHOICE, log 100. -/
def execKrnLoad (core : Nat) (host : HostData) (s : State) : Host.Outcome State Fault Refusal :=
  .next (s.cmd core 0x0501 gateObj (fun s r late =>
    if r.b 32 = 0 || r.b 32 > 15 then s.ends stNOTFOUND
    else s.unshort late s.unfencedList (
      match r.buffer host (min r.hlen 16384) with
      | none => s.ends stHOST
      | some b =>
        ({ s with pipe := s.pipe.loadKernel (r.b 32) (if r.hlen = 0 then none else some b) }).endsOk [])))

/-- The image that an NBU_LOAD buffer holds: 16 entry offsets, then up to 4,096 bytes of instructions. -/
def decodeImage (hlen : Nat) (b : List Byte) : NbuImage :=
  let n := min (hlen - 64) 4096
  { words := (List.range (ceilDiv n 4)).map (fun i => BitVec.ofNat 32 (leNat (padTo 4 (((b.drop 64).take n).drop (4 * i) |>.take 4)))),
    offsets := (List.range 16).map (fun i => let o := le32 b (4 * i); if o % 4 ≠ 0 || o ≥ n then 2 ^ 32 - 1 else o) }

/-- NBU_LOAD (R253, R254): every NBU of every unfenced partition switches between requests. -/
def execNbuLoad (core : Nat) (host : HostData) (s : State) : Host.Outcome State Fault Refusal :=
  .next (s.cmd core 0x0502 gateIdx (fun s r late =>
    s.unshort late s.unfencedList (
      match r.buffer host (64 + 4096) with
      | none => s.ends stHOST
      | some b =>
        let img := decodeImage r.hlen b
        let each := fun (p : Pipe) (k : Nat) =>
          (List.range 64).foldl (fun (p : Pipe) pc => p.modNbu k pc (fun n => { n with nextImage := some img })) p
        ({ s with pipe := s.unfencedList.foldl each { s.pipe with image := img } }).endsOk [])))

/-- Elements that a set of features without QUERY and VECTOR puts in (R163). -/
def scalarInputs (f : Nat) : Nat := b2n (bitOf f 2) + b2n (bitOf f 3) + b2n (bitOf f 4)

/-- The layers of a network image from a byte on; `inRow` is the row length of the first (R163, R164). DEDUCED, log 101. -/
def imageLayers (b : List Byte) (wfmt n : Nat) (width : Nat → Nat) : Nat → Nat → Nat → Nat → List RLayer
  | 0, _, _, _ => []
  | fuel + 1, l, off, rowb =>
    let w := width l
    let base := 64 + 96 * l
    let rows := off + 4 * w
    { width := w, relu := fbit b (base + 16) && decide (l + 1 < n),
      wscale := BitVec.ofNat 32 (field b (base + 32) 32), iscale := BitVec.ofNat 32 (field b (base + 64) 32),
      bias := (List.range w).map (fun i => BitVec.ofNat 32 (le32 b (off + 4 * i))),
      rows := (List.range w).map (fun i => slice b (rows + rowb * i) rowb) }
    :: imageLayers b wfmt n width fuel (l + 1) (rows + rowb * w) (ceilDiv (fmtBytes wfmt w) 32 * 32)

/-- A network image (R163, table "Network image"). When its inputs hold a query or a vector, whose length the image does not
say, the rows of layer 0 take what the image's length leaves them. DEDUCED, log 101. -/
def decodeRNet (b : List Byte) : RNet :=
  let f := let v := field b 0 5; if v = 0 then 4 else v
  let n := let v := field b 8 3; if v = 0 then 1 else min v 4
  let wc := field b 12 2
  let wfmt := if wc = 1 then 2 else if wc = 2 then 4 else 0
  let width := fun (l : Nat) => let v := field b (64 + 96 * l) 16; if v = 0 then 1 else min v 4096
  let row := fun (d : Nat) => ceilDiv (fmtBytes wfmt d) 32 * 32
  let rest := ((List.range n).map (fun l => 4 * width l + (if l = 0 then 0 else width l * row (width (l - 1))))).foldl (· + ·) 64
  let row0 := if bitOf f 0 || bitOf f 1 then (b.length - rest) / width 0 / 32 * 32 else row (scalarInputs f)
  { features := f, wfmt := wfmt, afmt := if fbit b 14 then 4 else 2, layers := imageLayers b wfmt n width n 0 64 row0 }

/-- RNET_LOAD (R163, R573): HLEN 0 unloads the network. DESIGN CHOICE, log 95. -/
def execRnetLoad (core : Nat) (host : HostData) (s : State) : Host.Outcome State Fault Refusal :=
  .next (s.cmd core 0x0503 gateObj (fun s r late =>
    s.unshort late s.unfencedList (
      match r.buffer host r.hlen with
      | none => s.ends stHOST
      | some b =>
        let p := s.pipe
        let p1 := if r.hlen = 0 then { p with rnets := p.rnets.erase (r.b 32) }
          else s.unfencedList.foldl (fun (p : Pipe) k => p.count k 8 2 r.hlen) { p with rnets := p.rnets.set (r.b 32) (decodeRNet b) }
        ({ s with pipe := p1 }).endsOk [])))

end Sys2Proof.Machine
end

