-- ==== Sys2Proof/Machine/CmdTier.lean ====
section
/-!
DEFINITION. Sys2Proof/Machine/CmdTier.lean: the mailbox commands on the index address space and its tiers (chapter 18 table
"Memory tiers"; chapter 12).
-/
namespace Sys2Proof.Machine

/-! ## Pages that a command names -/

/-- Address of the i-th page from a base. -/
def pageStep (base i : Nat) : Nat := base / 65536 * 65536 + 65536 * i

/-- The page at an index address, if a tier entry can stand for it (R364). -/
def Pipe.pageIn (p : Pipe) (a : Nat) : Option PageId := (pagesOf p.variant64 a 1).head?

/-- The partition of a page that a command names, none for an UNMAPPED GENERAL page (R677). -/
def Pipe.pageHome (p : Pipe) (a : Nat) : Option Nat :=
  match iaddr p.variant64 a with
  | .bank k _ _ => some k
  | .general off => let e := p.tier (.gen (off / 65536)); if e.st = .unmapped then none else some e.home

/-- Base and page count of a command on a page range, and of one on a byte range. -/
def Request.pages (r : Request) : Nat × Nat := (r.d 32, count1 (r.w 40))
def Request.span (r : Request) : Nat × Nat := (r.d 32, if r.hlen = 0 then 0 else (r.d 32 + r.hlen - 1) / 65536 - r.d 32 / 65536 + 1)

/-- The partitions of its pages. -/
def Pipe.homesOf (p : Pipe) (x : Nat × Nat) : List Nat :=
  ((List.range x.2).filterMap (fun i => p.pageHome (pageStep x.1 i))).eraseDups

/-- The gate of an IAS command (R677). -/
def gateIas (store : Bool) (of_ : Request → Nat × Nat) (extra : Request → List Nat) (s : State) (r : Request) : Gate :=
  { store := store, scope := .g, targets := s.pipe.homesOf (of_ r) ++ extra r, enabled := true }

/-! ## Attributes and the plate tier (R368, R390, R391) -/

/-- The content of a GENERAL page goes to its slot in every core. -/
def Pipe.fillSlot (p : Pipe) (slot : Nat) (e : TierEnt) : Pipe :=
  let one := fun (m : Mem) (c : Nat) =>
    let key := c * 2 ^ 25 + 0x1100000 + 65536 * slot
    match e.key 0 with
    | some src => p.hbm.copyTo src 65536 m key
    | none => m.clear key 65536
  { p with plate := (List.range 16).foldl one p.plate }

/-- A page takes PLATE and a slot: none when 48 pages carry PLATE. DEDUCED, log 104. -/
def Pipe.setPlate (p : Pipe) (n : Nat) : Option Pipe :=
  let e := p.tier (.gen n)
  match p.plateSlots.findIdx? Option.isNone with
  | none => none
  | some i => some (({ p with plateSlots := setNth p.plateSlots i (some n) }.setTier (.gen n) { e with plate := true }).fillSlot i e)

/-- Clearing PLATE frees the slot. -/
def Pipe.clearPlate (p : Pipe) (n : Nat) : Pipe :=
  { p with plateSlots := p.plateSlots.map (fun s => if s = some n then none else s) }.setTier (.gen n)
    { p.tier (.gen n) with plate := false }

/-- PIN, DISCARD and PLATE of an attribute byte. -/
def attrPin (v : Nat) : Bool := bitOf v 0
def attrDiscard (v : Nat) : Bool := bitOf v 1
/-- DEDUCED, log 104. -/
def attrPlate (v : Nat) : Bool := bitOf v 2

/-! ## IAS_ALLOC (R367, R369) -/

/-- An UNMAPPED page becomes ZERO with the attributes; true when PLATE was asked for and the slots were full. -/
def Pipe.allocPage (p : Pipe) (pg : PageId) (home attr : Nat) : Pipe × Bool :=
  let e := { p.tier pg with st := .zero, pin := attrPin attr, discard := attrDiscard attr }
  match pg with
  | .bank _ _ _ => (p.setTier pg e, false)
  | .gen n =>
    let p1 := p.setTier pg { e with home := home }
    if attrPlate attr then (match p1.setPlate n with | some p2 => (p2, false) | none => (p1, true)) else (p1, false)

/-- The pages of an IAS_ALLOC in order: how many were named, allocated, already allocated, and whether PLATE found no slot. -/
structure AllocAt where
  pos : Nat
  new : Nat
  full : Bool
  deriving DecidableEq, Repr

/-- Allocate `n` pages from where the command stands: a bank page's own frame must be free of any other page (R372).
Pages without a tier entry count as neither. -/
def Pipe.allocLoop (p : Pipe) (base home attr : Nat) : Nat → AllocAt → Pipe × PageEnd × AllocAt
  | 0, x => (p, .done, x)
  | n + 1, x =>
    match p.pageIn (pageStep base x.pos) with
    | none => p.allocLoop base home attr n { x with pos := x.pos + 1 }
    | some pg =>
      if (p.tier pg).st ≠ .unmapped then p.allocLoop base home attr n { x with pos := x.pos + 1 }
      else
        let r := match pg with
          | .gen g => p.needTable (g / 65536) home 16
          | .bank k pc f => (match p.vacate k pc f with
            | (p1, .got _ _) => (p1, .done)
            | (p1, .wait) => (p1, .wait)
            | (p1, .fail) => (p1.exhausted k, .noSpace))
        match r with
        | (p1, .done) =>
          let y := p1.allocPage pg home attr
          y.1.allocLoop base home attr n { pos := x.pos + 1, new := x.new + 1, full := x.full || y.2 }
        | (p1, e) => (p1, e, x)

/-- Pages of a range that have a tier entry, among the first `n`. -/
def Pipe.pagesIn (p : Pipe) (base n : Nat) : Nat := ((List.range n).filter (fun i => (p.pageIn (pageStep base i)).isSome)).length

/-- IAS_ALLOC (R367, R369, R390): pages allocated, and pages that were already. -/
def execIasAlloc (core : Nat) (_host : HostData) (s : State) : Host.Outcome State Fault Refusal :=
  .next (s.cmd core 0x0601 (gateIas true Request.pages (fun r => [field r.slot 352 4])) (fun s r late =>
    let home := field r.slot 352 4
    let x := r.pages
    s.unshort late (s.pipe.homesOf x ++ [home]) (
      let at_ := s.progress core
      let a0 : AllocAt := { pos := at_.1, new := at_.2 / 2, full := at_.2 % 2 = 1 }
      let (p1, e, a1) := s.pipe.allocLoop x.1 home (r.b 45) (x.2 - a0.pos) a0
      let pay := leBytes 4 a1.new ++ leBytes 4 (p1.pagesIn x.1 a1.pos - a1.new)
      let s1 := { s with pipe := p1 }
      match e with
      | .wait => (s1, .more a1.pos (2 * a1.new + b2n a1.full))
      | .noSpace => (s1, .done { status := stNOSPACE, payload := pay })
      | .done => (s1, .done { status := if a1.full then stTIERFULL else stOK, payload := pay }))))

/-! ## IAS_FREE (R367, R376) -/

/-- Bank pages that a request in an NBU touches (R376). -/
def Pipe.reqPages (p : Pipe) (k pc : Nat) (r : NbuReq) : List PageId :=
  if r.kernel = 4 then
    match p.poolTab r with
    | none => []
    | some t => (List.range r.arg1).flatMap (fun i =>
        let n := le32 r.operand (8 * i)
        p.bankPages k pc (t.cbase + n * t.rowb) t.rowb ++ p.bankPages k pc (t.sbase + 4 * n) 4)
  else if r.kernel = 7 then p.bankPages k pc r.arg0 (32 * r.arg1)
  else p.pieceSpan k pc r.piece ++ (if r.kernel = 5 then p.pieceSpan k pc r.arg0 else [])

/-- Is a page held by a request that has not ended? -/
def Pipe.heldPage (p : Pipe) : PageId → Bool
  | .gen _ => false
  | .bank k pc f => let n := p.nbu k pc; (n.queue ++ n.running ++ (p.unissued.filter (fun u => u.1 == k && u.2.1 == pc)).map (fun u => u.2.2)).any (fun r =>
      (p.reqPages k pc r).contains (.bank k pc f))

/-- A page becomes UNMAPPED: its frame, its flash copy and its slot are freed, and what moved it is forgotten.
DESIGN CHOICE, log 105. -/
def Pipe.freePage (p : Pipe) (pg : PageId) : Pipe :=
  let e := p.tier pg
  let p1 := match pg with | .gen n => if e.plate then p.clearPlate n else p | .bank _ _ _ => p
  let forget := fun (f : FlashPart) => { f with
    progs := f.progs.erase (.page pg), reads := f.reads.filter (fun r => match r with | .page x _ => x != pg | _ => true) }
  let p2 := p1.modFlash e.home forget
  let p3 := match e.loc with | some (ex, _) => p2.liveDrop e.home ex 16 | none => p2
  p3.setTier pg TierEnt.none_

/-- Free `n` pages from where the command stands; the count of those freed. -/
def Pipe.freeLoop (p : Pipe) (base : Nat) : Nat → Nat → Nat → Pipe × PageEnd × Nat × Nat
  | 0, pos, k => (p, .done, pos, k)
  | n + 1, pos, k =>
    match p.pageIn (pageStep base pos) with
    | none => p.freeLoop base n (pos + 1) k
    | some pg =>
      if (p.tier pg).st = .unmapped then p.freeLoop base n (pos + 1) k
      else if p.heldPage pg then (p, .wait, pos, k)
      else (p.freePage pg).freeLoop base n (pos + 1) (k + 1)

/-- IAS_FREE: frames that become free let waiting writes go on. -/
def execIasFree (core : Nat) (_host : HostData) (s : State) : Host.Outcome State Fault Refusal :=
  .next (s.cmd core 0x0602 (gateIas true Request.pages (fun _ => [])) (fun s r late =>
    let x := r.pages
    s.unshort late (s.pipe.homesOf x) (
      let at_ := s.progress core
      let (p1, e, pos, n) := s.pipe.freeLoop x.1 (x.2 - at_.1) at_.1 at_.2
      let s1 := { s with pipe := p1.resume }
      match e with
      | .done => s1.endsOk (leBytes 4 n)
      | _ => (s1, .more pos n))))

/-! ## IAS_WRITE and IAS_READ (R367, R375, R382, R680) -/

/-- Is a write to this address dropped: an UNMAPPED page, or the Almanac share (R364, R375)? DESIGN CHOICE, log 106. -/
def Pipe.writeDropped (p : Pipe) (a : Nat) : Bool :=
  match iaddr p.variant64 a with
  | .general off => (p.tier (.gen (off / 65536))).st = .unmapped
  | .bank k pc l =>
    decide (l ≥ pcData p.variant64 + 0x100000) || (decide (l < pcData p.variant64) && (p.tier (.bank k pc (l / 65536))).st == .unmapped)

/-- Write parts page by page, counting what was handled and what was dropped. DESIGN CHOICE, log 106. -/
def Pipe.cmdWrite (p : Pipe) (who : Nat) : List (Nat × List Byte) → Nat → Nat → Pipe × WriteRes × Nat × Nat
  | [], pos, dr => (p, .done, pos, dr)
  | (a, bs) :: rest, pos, dr =>
    let d := if p.writeDropped a then bs.length else 0
    match p.iasWrite who a bs with
    | (p1, .done, _) => (if d = 0 then p1.countIas a bs.length else p1).cmdWrite who rest (pos + bs.length) (dr + d)
    | (p1, e, _) => (p1, e, pos, dr)

/-- IAS_WRITE: bytes written, and bytes dropped on UNMAPPED pages. -/
def execIasWrite (core : Nat) (host : HostData) (s : State) : Host.Outcome State Fault Refusal :=
  .next (s.cmd core 0x0603 (gateIas true Request.span (fun _ => [])) (fun s r late =>
    s.unshort late (s.pipe.homesOf r.span) (
      match r.buffer host r.hlen with
      | none => s.ends stHOST
      | some b =>
        let at_ := s.progress core
        let rest := b.drop at_.1
        let (p1, e, pos, dr) := s.pipe.cmdWrite 0 (cutPages (rest.length / 65536 + 2) (r.d 32 + at_.1) rest) at_.1 at_.2
        let pay := leBytes 4 (pos - dr) ++ leBytes 4 dr
        let s1 := { s with pipe := p1 }
        match e with
        | .wait => (s1, .more pos dr)
        | .noFrame => (s1, .done { status := stNOSPACE, payload := pay })
        | .done => s1.endsOk pay)))

/-- What a read of a range gives a command (R212, R375): the bytes, an open value for those of an uncorrectable unit, whose
error bit and fault source set. DESIGN CHOICE, log 102. -/
def Pipe.cmdFetch (p : Pipe) (a n : Nat) : Pipe × List Byte :=
  let keys := (List.range n).map (fun i => p.iasKey (a + i))
  let bad := ((keys.filterMap id).filter (fun k => p.poison.contains (k / 32))).map (fun k => k / 2 ^ 30)
  let byte := fun (k : Option Nat) => match k with
    | none => 0#8
    | some k => if p.poison.contains (k / 32) then Config.ueByte k else p.hbm.read k
  (bad.eraseDups.foldl Pipe.markUE ((p.countIas a n).ref a n), keys.map byte)

/-- Read parts into the host buffer as far as their pages are there. DESIGN CHOICE, log 102. -/
def State.cmdRead (s : State) (mb haddr : Nat) : List (Nat × Nat) → Nat → State × WriteRes × Nat
  | [], pos => (s, .done, pos)
  | (a, n) :: rest, pos =>
    if s.pipe.iasReady a n then
      let x := s.pipe.cmdFetch a n
      (({ s with pipe := x.1 }).hostWrite mb (haddr + pos) x.2).cmdRead mb haddr rest (pos + n)
    else
      let w := s.pipe.want a n
      ({ s with pipe := w.1 }, if w.2 then .noFrame else .wait, pos)

/-- IAS_READ: RLEN counts the bytes read. -/
def execIasRead (core : Nat) (host : HostData) (s : State) : Host.Outcome State Fault Refusal :=
  .next (s.cmd core 0x0604 (gateIas false Request.span (fun _ => [])) (fun s r late =>
    s.unshort late (s.pipe.homesOf r.span) (
      let pos := (s.progress core).1
      if r.hlen > pos && host.isNone then s.ends stHOST
      else
        let (s1, e, pos1) := s.cmdRead r.mb r.haddr (cutRange (r.hlen / 65536 + 2) (r.d 32 + pos) (r.hlen - pos)) pos
        match e with
        | .wait => (s1, .more pos1 0)
        | .noFrame => (s1, .done { status := stNOSPACE, rlen := pos1 })
        | .done => (s1, .done { status := stOK, rlen := pos1 }))))

/-! ## IAS_ATTR (R368, R390, R391) -/

/-- Change the attributes of one page: its new state, or none while its content must first come in; true when PLATE found no
slot. -/
def Pipe.attrPage (p : Pipe) (pg : PageId) (clr set : Nat) : Option Pipe × Pipe × Bool :=
  let e := p.tier pg
  let e1 := { e with
    pin := (e.pin && !attrPin clr) || attrPin set, discard := (e.discard && !attrDiscard clr) || attrDiscard set }
  match pg with
  | .bank _ _ _ => (some (p.setTier pg e1), p, false)
  | .gen n =>
    let p1 := p.setTier pg e1
    let p2 := if e.plate && attrPlate clr then p1.clearPlate n else p1
    if !attrPlate set || (p2.tier pg).plate then (some p2, p2, false)
    else if !(p2.plateSlots.any Option.isNone) then (some p2, p2, true)
    else if !e.here then (none, (p2.moveIn pg).1, false)
    else (p2.setPlate n, p2, false)

/-- The attributes of `n` pages from where the command stands. -/
def Pipe.attrLoop (p : Pipe) (base clr set : Nat) : Nat → Nat → Bool → Pipe × PageEnd × Nat × Bool
  | 0, pos, full => (p, .done, pos, full)
  | n + 1, pos, full =>
    match p.pageIn (pageStep base pos) with
    | none => p.attrLoop base clr set n (pos + 1) full
    | some pg =>
      if (p.tier pg).st = .unmapped then p.attrLoop base clr set n (pos + 1) full
      else match p.attrPage pg clr set with
        | (some p1, _, f) => p1.attrLoop base clr set n (pos + 1) (full || f)
        | (none, p1, _) => (p1, .wait, pos, full)

/-- IAS_ATTR: the clear is applied before the set. -/
def execIasAttr (core : Nat) (_host : HostData) (s : State) : Host.Outcome State Fault Refusal :=
  .next (s.cmd core 0x0605 (gateIas true Request.pages (fun _ => [])) (fun s r late =>
    let x := r.pages
    s.unshort late (s.pipe.homesOf x) (
      let at_ := s.progress core
      let (p1, e, pos, full) := s.pipe.attrLoop x.1 (r.b 44) (r.b 45) (x.2 - at_.1) at_.1 (at_.2 = 1)
      let s1 := { s with pipe := p1 }
      match e with
      | .done => (s1, .done (Answer.of (if full then stTIERFULL else stOK)))
      | _ => (s1, .more pos (b2n full)))))

/-! ## TIER_CONFIG and TIER_STATUS (R373, R375, R380, R382) -/

/-- TIER_CONFIG. -/
def execTierConfig (core : Nat) (_host : HostData) (s : State) : Host.Outcome State Fault Refusal :=
  .next (s.cmd core 0x0606 (gateP true) (fun s r _ =>
    let set := fun (q : Part) => { q with migres := r.w 32, lowMark := r.w 36, idle := count1 (r.w 40) }
    ({ s with pipe := r.targets.foldl (fun (p : Pipe) k => p.modPart k set) s.pipe }).endsOk []))

/-- TIER_STATUS: the free frames lie outside the migration space (R374). DEDUCED, log 107. -/
def execTierStatus (core : Nat) (_host : HostData) (s : State) : Host.Outcome State Fault Refusal :=
  .next (s.cmd core 0x0607 (gateP false) (fun s r _ =>
    let q := s.pipe.part r.part
    let sat := fun (n : Nat) => leBytes 4 (min n sat32Max)
    s.endsOk (leBytes 4 (s.pipe.free r.part - q.migresOf) ++ sat q.dropped ++ sat q.exhaust ++ sat q.movesIn ++ sat q.writeBacks)))

end Sys2Proof.Machine
end

