-- ==== Sys2Proof/Machine/CoreUnit.lean ====
section
/-!
DEFINITION. Sys2Proof/Machine/CoreUnit.lean: the scalar control unit and the vector unit of a search core: scalar
instructions, plate accesses, vector lanes, array instructions and custom kernels (R134 to R143, R153 to R156).
-/
namespace Sys2Proof.Machine

/-! ## Contexts (R134 to R137, R143) -/

/-- The kernel window in plate memory (R141): its first byte. -/
def kernelLo : Nat := 0x1400000

/-- A context of a core; one that has executed nothing is as it starts (R136). -/
def CoreSt.ctx (c : CoreSt) (x : Nat) : CoreCtx := c.ctxs.getD x CoreCtx.start

/-- A register of a context; s0 reads 0 (R136). -/
def CoreCtx.reg (c : CoreCtx) (n : Nat) : W64 := if n = 0 then 0#64 else c.s.getD n 0#64

/-- A register written; a write to s0 has no effect (R136). -/
def CoreCtx.setReg (c : CoreCtx) (n : Nat) (v : W64) : CoreCtx := if n = 0 then c else { c with s := setNth c.s n v }

/-- The next instruction: each is 8 bytes long. DESIGN CHOICE, log 32. -/
def CoreCtx.next (c : CoreCtx) : CoreCtx := { c with pc := c.pc + 8 }

/-- Change a context of core k. -/
def Pipe.setCtx (p : Pipe) (k x : Nat) (c : CoreCtx) : Pipe := p.modCore k (fun s => { s with ctxs := s.ctxs.set x c })

/-- May a context of core k run (R134, R168)? -/
def Pipe.ctxRuns (p : Pipe) (k x : Nat) : Bool := decide (k < 16) && decide (x < 4096) && !p.fenced k

/-- Does the context run the core's custom kernel? -/
def CoreSt.inKernel (c : CoreSt) (x : Nat) : Bool := match c.inv with | some v => v.ctx == x | none => false

/-- The invocation ends: its context ends and gives its vector slot back (R137, R142, R143). -/
def CoreSt.endKernel (c : CoreSt) (x : Nat) : CoreSt :=
  { c with inv := none, ctxs := c.ctxs.erase x, vslots := c.vslots.filter (fun v => v.2.ctx != x) }

/-- A kernel traps (R143): the invocation and its query end, and the core counts it. -/
def Pipe.kernelTrap (p : Pipe) (k : Nat) : Pipe :=
  match (p.core k).inv with
  | none => p
  | some v =>
    (p.modCore k (fun c => { c.endKernel v.ctx with kernelTraps := c.kernelTraps + 1 })).endJobAt v.job stABORTED 7 (some k)

/-- Is context y strictly between t and x in rotating order of context number? -/
def between (t y x : Nat) : Bool := decide ((y + 4096 - t) % 4096 < (x + 4096 - t) % 4096) && y != t

/-- May context x issue (R135)? The context that issued last goes on; once it waits or has ended, the next ready one in rotating
order does. DESIGN CHOICE, log 179. -/
def CoreSt.mayIssue (c : CoreSt) (x : Nat) : Bool :=
  match c.turn with
  | none => true
  | some t =>
    x == t || ((c.waits.contains t || !c.ctxs.has t)
      && c.ctxs.keys.all (fun y => c.waits.contains y || !between t y x))

/-- Context x has issued; it waits, or its instruction is over (R135). -/
def CoreSt.issuedBy (c : CoreSt) (x : Nat) (waits : Bool) : CoreSt :=
  let w := c.waits.filter (· ≠ x)
  { c with turn := some x, waits := if waits then w ++ [x] else w }

/-- Does a request that the context handed off still wait in the network (R220)? -/
def Pipe.inNet (p : Pipe) (c : CoreCtx) : Bool :=
  match c.sent with
  | some (h, pc, n) => ((p.nbu h pc).queue.drop 64).any (fun r => r.seq == n)
  | none => false

/-- Run one instruction of a context whose turn it is: a trapping one traps in a kernel; a stage program does not trap (R143).
`go` says whether the instruction waits (R135). DESIGN CHOICE, log 3. -/
def Pipe.runCtx (p : Pipe) (k x : Nat) (trap : Bool) (go : Pipe → CoreCtx → Pipe × Bool) : Pipe :=
  if !p.ctxRuns k x || !(p.core k).mayIssue x then p
  else if p.inNet ((p.core k).ctx x) then p.modCore k (fun c => c.issuedBy x true)
  else if trap && (p.core k).inKernel x then p.kernelTrap k
  else
    let r := go p ((p.core k).ctx x)
    r.1.modCore k (fun c => c.issuedBy x r.2)

/-! ## Scalar instructions (R136, R137 table) -/

/-- A code of each scalar operation, by which a free value is told apart. -/
def scalarCode : ScalarFn → Nat
  | .add => 0 | .sub => 1 | .mul => 2 | .divU => 3 | .divS => 4 | .remU => 5 | .remS => 6 | .and => 7 | .or => 8
  | .xor => 9 | .shl => 10 | .shr => 11 | .sar => 12 | .cmpEq => 13 | .cmpLt => 14 | .cmpLtU => 15

/-- A scalar operation on 64 bits (R137 table): a division by zero gives all ones.
DESIGN CHOICE, log 29. PRESUMED, log 31. -/
def scalarEval (f : ScalarFn) (a b : W64) : W64 :=
  let free := Config.scalarOpen (scalarCode f) a.toNat b.toNat
  match f with
  | .add => a + b
  | .sub => a - b
  | .mul => a * b
  | .divU => if b = 0 then BitVec.allOnes 64 else a / b
  | .divS =>
    if b = 0 then BitVec.allOnes 64
    else if a = BitVec.ofNat 64 (2 ^ 63) && b = BitVec.allOnes 64 then free else BitVec.sdiv a b
  | .remU => if b = 0 then BitVec.allOnes 64 else a % b
  | .remS => if b = 0 then BitVec.allOnes 64 else BitVec.srem a b
  | .and => a &&& b
  | .or => a ||| b
  | .xor => a ^^^ b
  | .shl => if b.toNat < 64 then a <<< b.toNat else free
  | .shr => if b.toNat < 64 then a >>> b.toNat else free
  | .sar => if b.toNat < 64 then BitVec.sshiftRight a b.toNat else free
  | .cmpEq => BitVec.ofNat 64 (b2n (a == b))
  | .cmpLt => BitVec.ofNat 64 (b2n (BitVec.slt a b))
  | .cmpLtU => BitVec.ofNat 64 (b2n (BitVec.ult a b))

/-- A branch condition. -/
def branchHolds (f : BranchFn) (a b : W64) : Bool :=
  match f with
  | .eq => a == b
  | .ne => a != b
  | .lt => BitVec.slt a b
  | .ge => !BitVec.slt a b
  | .ltU => BitVec.ult a b
  | .geU => !BitVec.ult a b
  | .always => true

/-- A scalar instruction on a context. -/
def runScalar (op : ScalarOp) (c : CoreCtx) : CoreCtx :=
  match op with
  | .alu f sd sa sb => (c.setReg sd (scalarEval f (c.reg sa) (c.reg sb))).next
  | .aluImm f sd sa imm => (c.setReg sd (scalarEval f (c.reg sa) (BitVec.ofInt 64 imm))).next
  | .branch f sa sb target => if branchHolds f (c.reg sa) (c.reg sb) then { c with pc := target } else c.next
  | .reserved => c.next

/-- CORE_SCALAR. DESIGN CHOICE, log 37. -/
def coreScalar (k x : Nat) (op : ScalarOp) (p : Pipe) : Pipe :=
  p.runCtx k x (op == .reserved) (fun p c => (p.setCtx k x (runScalar op c), false))

/-! ## Vector slots (R137) -/

/-- The slot that a context holds: its number and registers. -/
def CoreSt.slotOf (c : CoreSt) (x : Nat) : Option (Nat × VSlot) := c.vslots.find? (fun v => v.2.ctx == x)

/-- The slot that a vector instruction uses: the context's own, or the lowest free of 16; none while it waits. -/
def CoreSt.acquire (c : CoreSt) (x : Nat) : Option (Nat × VSlot) :=
  match c.slotOf x with
  | some v => some v
  | none => (c.vslots.freeKey 16).map (fun n => (n, VSlot.fresh x))

/-- A vector register, 1,024 bits. -/
def VSlot.reg (v : VSlot) (n : Nat) : BitVec 1024 := v.q.getD n 0

/-- Run a vector instruction: the context waits while no slot is free. -/
def Pipe.runVec (p : Pipe) (k x : Nat) (trap : Bool) (go : Pipe → CoreCtx → Nat → VSlot → Pipe × Bool) : Pipe :=
  p.runCtx k x trap (fun p c =>
    match (p.core k).acquire x with
    | none => (p, true)
    | some (n, v) => go p c n v)

/-- The slot and the context after a vector instruction. -/
def Pipe.setVec (p : Pipe) (k x n : Nat) (v : VSlot) (c : CoreCtx) : Pipe :=
  p.modCore k (fun s => { s with vslots := s.vslots.set n v, ctxs := s.ctxs.set x c })

/-! ## Plate accesses (R138, R141, R143, R264) -/

/-- Does an access of `n` bytes lie in the kernel window? -/
def inWindow (a n : Nat) : Bool := decide (kernelLo ≤ a) && decide (a + n ≤ plateEnd)

/-- The request whose record holds a plate address, and the byte of the record. -/
def recByte (b : Nat) : Option (Nat × Nat) :=
  if 0x1000000 ≤ b && b < 0x1040000 then some ((b - 0x1000000) / 64, b % 64) else none

/-- A store to byte 0 of a selection request record is a command to the unit, which clears CTL (R264, R265); one to its IDMAP field
changes the map of an OPEN request (R266). -/
def Pipe.storeByte (p : Pipe) (k b : Nat) (v : Byte) : Pipe :=
  match recByte b with
  | some (n, 0) =>
    (match v.toNat % 8 with
     | 1 => selOpen k n p
     | 2 => selClose k n false p
     | 3 => selDiscard k n p
     | 4 => selBound k n p
     | _ => p.showSel k n)
  | some (n, i) =>
    if 16 ≤ i && i < 20 then
      p.modCore k (fun c => { c with sel := c.sel.adj n (fun r =>
        { r with idmap := field (p.plateRead k (selRec n + 16) 4) 0 25 / 2048 * 2048 }) })
    else p
  | none => p

/-- A program's store (R138, R264). -/
def Pipe.plateStore (p : Pipe) (k a : Nat) (bs : List Byte) : Pipe :=
  bs.zipIdx.foldl (fun (p : Pipe) b => p.storeByte k (plateAddr (a + b.2)) b.1) (p.plateWrite k a bs)

/-- Does a store wait, because four commands wait at its request (R265)? -/
def Pipe.storeWaits (p : Pipe) (k a : Nat) (bs : List Byte) : Bool :=
  bs.zipIdx.any (fun b => match recByte (plateAddr (a + b.2)) with
    | some (n, 0) => (b.1.toNat % 8 == 2 || b.1.toNat % 8 == 4)
        && (match (p.core k).sel.get? n with | some r => r.state == .closing && decide (r.cmds ≥ 4) | none => false)
    | _ => false)

/-- Does a load wait, because it reads STATE of a request whose CLOSE is under way (R265)? -/
def Pipe.loadWaits (p : Pipe) (k a n : Nat) : Bool :=
  (List.range n).any (fun i => match recByte (plateAddr (a + i)) with
    | some (n, 0) => (match (p.core k).sel.get? n with | some r => r.state == .closing | none => false)
    | _ => false)

/-! ## Errors of plate memory (R139) -/

/-- The jobs whose data lies in the 8-byte word at a plate address: the kernel window, request records, walk pages, the places where
firmware keeps a query and its PQ8 tables, and tile outputs. DESIGN CHOICE, log 176. -/
def Pipe.plateJobs (p : Pipe) (k w : Nat) : List Nat :=
  let c := p.core k
  let lies := fun (a n : Nat) => decide (a < w + 8) && decide (w < a + n)
  (match c.inv with | some v => if kernelLo ≤ w then [v.job] else [] | none => [])
  ++ (c.sel.filter (fun r => lies (selRec r.1) 64 || (r.2.use == .user && lies r.2.list (16 * r.2.entries.length)))).map (fun r => r.2.job)
  ++ (p.walks.vals.filter (fun y => y.core == k && (match y.slot with | some s => lies (0x740000 + 0x11800 * s) 0x11800 | none => false))).map (·.job)
  ++ (p.jobs.filter (fun j => j.2.home == k && (match j.2.forms with
      | some f => lies (Config.queryPlace j.1 % 0x720000) f.bytes.length
          || lies (Config.pqPlace j.1 % 0x540000) (p.pqTabs j.1).length
      | none => false))).map Prod.fst
  ++ (c.tiles.filter (fun t => match t.out with | some o => lies o.addr ((t.m - 1) * o.stride + 4 * t.n) | none => false)).flatMap (·.jobs)

/-- The 8-byte words that an access reads: all for a load, those written in part for a store. -/
def plateWords (store : Bool) (a n : Nat) : List Nat :=
  let ws := (List.range ((a + n - 1) / 8 - a / 8 + 1)).map (fun i => 8 * (a / 8 + i))
  if store then ws.filter (fun w => decide (w < a) || decide (a + n < w + 8)) else ws

/-- An access meets errors: a single-bit one is corrected and counted, a double-bit one sets the fault source and ends the jobs whose
data lies in the word (R139). -/
def Pipe.plateErrors (p : Pipe) (k : Nat) (es : List (Nat × Bool)) : Pipe :=
  let bad := (es.filter (fun e => !e.2)).map (fun e => plateAddr e.1)
  let p1 := p.modCore k (fun c => { c with corrected := c.corrected + (es.filter (fun e => e.2)).length })
  if bad.isEmpty then p1
  else ((bad.flatMap (p1.plateJobs k)).eraseDups).foldl (fun (p : Pipe) j => p.endJob j stABORTED (some k))
    { p1 with out := p1.out ++ [.fault (16 * k + 1)] }

/-- The effective address and size of a plate access. DESIGN CHOICE, log 40. -/
def plateRange (op : PlateOp) (c : CoreCtx) : Nat × Nat :=
  let ea := fun (sa : Nat) (imm : Int) => plateAddr ((c.reg sa + BitVec.ofInt 64 imm).toNat)
  let sz := fun (n : Nat) => max 1 (min n 8)
  match op with
  | .load _ sa imm n _ => (ea sa imm, sz n)
  | .store _ sa imm n => (ea sa imm, sz n)
  | .vload _ sa imm => (ea sa imm, 128)
  | .vstore _ sa imm => (ea sa imm, 128)

/-- Is it a vector access? -/
def plateVector : PlateOp → Bool
  | .load _ _ _ _ _ => false
  | .store _ _ _ _ => false
  | .vload _ _ _ => true
  | .vstore _ _ _ => true

/-- What a load gives: the bytes, or a free value where a word of them has a double-bit error. DESIGN CHOICE, log 176. -/
def Pipe.plateLoad (p : Pipe) (k a n : Nat) (es : List (Nat × Bool)) : Nat :=
  if es.all (fun e => e.2) then leNat (p.plateRead k a n) else Config.plateOpen k a n % 2 ^ (8 * n)

/-- PLATE_ACCESS: RANGE and ALIGN trap in a kernel; an unaligned vector access of a stage program takes address bits [6:0]
as 0; `ecc` names words of the access with an error (R139). DESIGN CHOICE, log 38. DESIGN CHOICE, log 40. -/
def plateAccess (k x : Nat) (op : PlateOp) (ecc : List (Nat × Bool)) (p : Pipe) : Pipe :=
  let r := plateRange op ((p.core k).ctx x)
  let v := r.1 / 128 * 128
  let trap := !inWindow r.1 r.2 || (plateVector op && r.1 % 128 != 0)
  let met := fun (ws : List Nat) => ecc.filterMap (fun e => (ws[e.1]?).map (fun w => (w, e.2)))
  let read := fun (p : Pipe) (a n : Nat) (go : Nat → List (Nat × Bool) → Pipe) =>
    if p.loadWaits k a n then (p, true)
    else
      let es := met (plateWords false a n)
      (go (p.plateLoad k a n es) es, false)
  let store := fun (p : Pipe) (a : Nat) (bs : List Byte) (go : Pipe → Pipe) =>
    if p.storeWaits k a bs then (p, true)
    else (((go p).plateStore k a bs).plateErrors k (met (plateWords true a bs.length)), false)
  match op with
  | .load sd _ _ _ sx => p.runCtx k x trap (fun p c => read p r.1 r.2 (fun v es =>
      (p.setCtx k x (c.setReg sd (if sx then BitVec.ofInt 64 (signed (8 * r.2) v) else BitVec.ofNat 64 v)).next).plateErrors k es))
  | .store ss _ _ _ => p.runCtx k x trap (fun p c =>
      store p r.1 (leBytes r.2 (c.reg ss).toNat) (fun p => p.setCtx k x c.next))
  | .vload qd _ _ => p.runVec k x trap (fun p c n y => read p v 128 (fun w es =>
      (p.setVec k x n { y with q := setNth y.q qd (BitVec.ofNat 1024 w) } c.next).plateErrors k es))
  | .vstore qs _ _ => p.runVec k x trap (fun p c n y =>
      store p v (leBytes 128 (y.reg qs).toNat) (fun p => p.setVec k x n y c.next))

/-! ## Vector lanes (R137 table, R170 to R174) -/

/-- Bits of a lane; 0 for a code that names no lane format. -/
def laneBits (fmt : Nat) : Nat :=
  match fmt with
  | 0 => 8 | 1 => 4 | 2 => 8 | 3 => 8 | 4 => 16 | 5 => 16 | 6 => 32 | 7 => 1 | _ => 0

/-- Lanes of a register; the vector unit has no 1-bit lanes but in conversions. -/
def laneCount (fmt : Nat) : Nat := if laneBits fmt = 0 then 0 else 1024 / laneBits fmt

/-- Is it a format of the vector unit? -/
def isLaneFmt (fmt : Nat) : Bool := decide (fmt ≤ 6)

/-- The lanes of a register. -/
def lanesOf (fmt : Nat) (q : BitVec 1024) : List Nat :=
  (List.range (laneCount fmt)).map (fun i => bitsOf q.toNat (i * laneBits fmt) (laneBits fmt))

/-- A register from its lanes, lane 0 lowest. -/
def ofLanes (fmt : Nat) (l : List Nat) : BitVec 1024 := BitVec.ofNat 1024 (packNat (l.map (fun v => (laneBits fmt, v))))

/-- The float format of a lane code. -/
def laneFloat (fmt : Nat) : Option Fmt :=
  match fmt with
  | 2 => some fp8e4m3 | 3 => some fp8e5m2 | 4 => some bf16 | 5 => some fp16 | 6 => some fp32 | _ => none

/-- The value of an integer or 1-bit lane. -/
def laneInt (fmt v : Nat) : Int := if fmt = 7 then (if v % 2 = 1 then 1 else -1) else signed (laneBits fmt) v

/-- A lane's exact value. -/
def laneNum (fmt v : Nat) : Num :=
  match laneFloat fmt with
  | some f => f.decode v
  | none => numOfInt (laneInt fmt v)

/-- The lane that holds an exact value: rounded to nearest, ties to even, a fused multiply-add once; `free` where the format cannot
hold it. DESIGN CHOICE, log 180. -/
def laneEnc (fmt free : Nat) (x : Num) : Nat :=
  match laneFloat fmt with
  | some f =>
    match x with
    | .fin neg m e => let r := f.roundMag m e; if r ≤ f.maxFin then f.withSign neg r else free
    | _ => free
  | none =>
    let w := laneBits fmt
    let v := roundInt (2 ^ 40) x
    if x.isNan || v < -(2 ^ (w - 1) : Int) || v ≥ (2 ^ (w - 1) : Int) then free else twos w v

/-- A code of each element-wise operation. -/
def vecCode : VecFn → Nat
  | .add => 0 | .mul => 1 | .fma => 2 | .min => 3 | .max => 4

/-- One lane of an element-wise operation; a value that no format or order gives is free. DESIGN CHOICE, log 28. -/
def vecLane (f : VecFn) (fmt a b c : Nat) : Nat :=
  let free := Config.laneOpen (vecCode f) fmt a b c % 2 ^ laneBits fmt
  let x := laneNum fmt a
  let y := laneNum fmt b
  match f with
  | .add => laneEnc fmt free (x.add y)
  | .mul => laneEnc fmt free (x.mul y)
  | .fma => laneEnc fmt free ((x.mul y).add (laneNum fmt c))
  | .min => if x.lt y then a else if y.lt x then b else if a = b then a else free
  | .max => if x.lt y then b else if y.lt x then a else if a = b then a else free

/-- A comparison of two lanes. -/
def cmpLane (f : CmpFn) (fmt a b : Nat) : Bool :=
  let x := laneNum fmt a
  let y := laneNum fmt b
  match f with
  | .eq => x.eqv y
  | .lt => x.lt y
  | .le => x.lt y || x.eqv y

/-- A lane converted (R170, R173, R174): a value beyond an integer format saturates. DESIGN CHOICE, log 28. -/
def convertLane (src dst v : Nat) : Nat :=
  let free := Config.laneOpen 5 (16 * src + dst) v 0 0 % 2 ^ laneBits dst
  let x := laneNum src v
  match laneFloat dst with
  | some f => if x.isNan then free else (let c := f.encSat x; if c = f.withSign true 0 then 0 else c)
  | none =>
    if x.isNan then free
    else if dst = 7 then b2n (!(x.lt (numOfInt 0)))
    else
      let w := laneBits dst
      twos w (clampInt (-(2 ^ (w - 1) : Int)) ((2 ^ (w - 1) : Int) - 1) (roundInt (2 ^ 40) x))

/-- The best of a list by an order, keeping the first of equals. -/
def bestLane (lt : Nat → Nat → Bool) : List Nat → Nat
  | [] => 0
  | x :: xs => xs.foldl (fun m y => if lt y m then y else m) x

/-- A code of each reduction. -/
def redCode : RedFn → Nat
  | .sum => 0 | .min => 1 | .max => 2

/-- A reduction across lanes. Integer lanes have one exact answer; a float sum depends on its order, and so do a least and
a greatest lane where a NaN or zeros of both signs meet. DESIGN CHOICE, log 30. -/
def redEval (f : RedFn) (fmt : Nat) (q : BitVec 1024) : W64 :=
  let l := lanesOf fmt q
  let free := Config.reduceOpen (redCode f) fmt q.toNat
  let less := fun a b => (laneNum fmt a).lt (laneNum fmt b)
  match laneFloat fmt with
  | none =>
    let xs := l.map (laneInt fmt)
    match f with
    | .sum => BitVec.ofInt 64 (sumInt xs)
    | .min => BitVec.ofInt 64 (laneInt fmt (bestLane less l))
    | .max => BitVec.ofInt 64 (laneInt fmt (bestLane (fun a b => less b a) l))
  | some _ =>
    let pick := fun (m : Nat) =>
      if l.any (fun v => (laneNum fmt v).isNan || (v != m && (laneNum fmt v).eqv (laneNum fmt m))) then free
      else BitVec.ofNat 64 m
    match f with
    | .sum => free
    | .min => pick (bestLane less l)
    | .max => pick (bestLane (fun a b => less b a) l)

/-- Is a vector instruction one that the core has? -/
def vecValid : VecOp → Bool
  | .elem _ fmt _ _ _ _ => isLaneFmt fmt
  | .cmp _ fmt _ _ _ => isLaneFmt fmt
  | .select fmt _ _ _ _ => isLaneFmt fmt
  | .convert src dst _ _ => decide (src ≤ 7) && decide (dst ≤ 7)
  | .reduce _ fmt _ _ => isLaneFmt fmt

/-- A vector instruction on a slot and a context. A compare leaves the mask bits beyond its lanes as they are.
DESIGN CHOICE, log 180. -/
def runVecOp (op : VecOp) (v : VSlot) (c : CoreCtx) : VSlot × CoreCtx :=
  let put := fun (qd : Nat) (w : BitVec 1024) => ({ v with q := setNth v.q qd w }, c.next)
  match op with
  | .elem f fmt qd qa qb qc =>
    put qd (ofLanes fmt (List.zipWith (fun (x : Nat × Nat) z => vecLane f fmt x.1 x.2 z)
      (List.zip (lanesOf fmt (v.reg qa)) (lanesOf fmt (v.reg qb))) (lanesOf fmt (v.reg qc))))
  | .cmp f fmt md qa qb =>
    let bits := List.zipWith (cmpLane f fmt) (lanesOf fmt (v.reg qa)) (lanesOf fmt (v.reg qb))
    let old := (v.m.getD md 0).toNat / 2 ^ bits.length * 2 ^ bits.length
    ({ v with m := setNth v.m md (BitVec.ofNat 256 (packNat (bits.map (fun b => (1, b2n b))) + old)) }, c.next)
  | .select fmt qd qa qb ma =>
    let m := (v.m.getD ma 0).toNat
    put qd (ofLanes fmt ((List.zip (lanesOf fmt (v.reg qa)) (lanesOf fmt (v.reg qb))).mapIdx (fun i x =>
      if m.testBit i then x.1 else x.2)))
  | .convert src dst qd qa =>
    let l := lanesOf src (v.reg qa)
    put qd (ofLanes dst ((List.range (laneCount dst)).map (fun i =>
      match l[i]? with
      | some x => convertLane src dst x
      | none => Config.laneOpen 6 (16 * src + dst) (v.reg qa).toNat i 0 % 2 ^ laneBits dst)))
  | .reduce f fmt sd qa => (v, (c.setReg sd (redEval f fmt (v.reg qa))).next)

/-- CORE_VECTOR: a code that names no format is a reserved opcode. -/
def coreVector (k x : Nat) (op : VecOp) (p : Pipe) : Pipe :=
  p.runVec k x (!vecValid op) (fun p c n v =>
    (if vecValid op then (let r := runVecOp op v c; p.setVec k x n r.1 r.2) else p.setCtx k x c.next, false))

/-- VFREE (R137). -/
def coreVfree (k x : Nat) (p : Pipe) : Pipe :=
  p.runCtx k x false (fun p c =>
    ((p.setCtx k x c.next).modCore k (fun s => { s with vslots := s.vslots.filter (fun v => v.2.ctx != x) }), false))

/-! ## Array instructions (R153 to R156) -/

/-- Fields of a tile descriptor (R155 tables). -/
structure TileDesc where
  m : Nat
  n : Nat
  d : Nat
  afmt : Nat
  bfmt : Nat
  epi : Nat
  /-- outputs go to plate memory, to selection. -/
  plate : Bool
  sel : Bool
  bIndex : Bool
  csrc : Nat
  cbsrc : Nat
  qconst : Bool
  idsrc : Bool
  aaddr : Nat
  astride : Nat
  baddr : Nat
  bstride : Nat
  caddr : Nat
  qaddr : Nat
  oaddr : Nat
  ostride : Nat
  cbaddr : Nat
  idbase : Nat
  selctx : Nat
  deriving DecidableEq, Repr

/-- Decode a tile descriptor (R155 tables), reserved codes as they decode. -/
def decodeTile (b : List Byte) : TileDesc :=
  let dim := field b 16 14
  let dest := field b 44 2
  let epi := field b 40 4
  let r32 := fun (v : Nat) => v / 32 * 32
  { m := field b 0 8 + 1, n := field b 8 8 + 1, d := if dim = 0 then 1 else min dim 8192, afmt := tileFmt (field b 32 4),
    bfmt := tileFmt (field b 36 4), epi := if epi ≤ 2 then epi else 1, plate := dest != 1, sel := dest == 1 || dest == 2,
    bIndex := field b 46 2 != 0, csrc := if field b 48 2 = 3 then 0 else field b 48 2,
    cbsrc := if field b 50 2 = 3 then 0 else field b 50 2, qconst := fbit b 52, idsrc := fbit b 53,
    aaddr := r32 (field b 64 25), astride := r32 (field b 96 24), baddr := r32 (field b 128 64),
    bstride := r32 (field b 192 24), caddr := field b 256 64, qaddr := r32 (field b 320 25), oaddr := r32 (field b 352 25),
    ostride := r32 (field b 384 24), cbaddr := r32 (field b 416 25), idbase := field b 448 32, selctx := field b 480 12 }

/-- The plate areas that a tile names, (address, bytes) (R156). -/
def TileDesc.areas (t : TileDesc) : List (Nat × Nat) :=
  let rows := fun (a stride n len : Nat) => (a, (n - 1) * stride + len)
  [rows t.aaddr t.astride t.m (fmtBytes t.afmt t.d)]
  ++ (if t.bIndex then [] else [rows (t.baddr % plateEnd) t.bstride t.n (fmtBytes t.bfmt t.d)])
  ++ (if t.csrc = 1 then [(t.caddr % plateEnd, 8 * t.n)] else [])
  ++ (if t.qconst then [(t.qaddr, 12 * t.m)] else [])
  ++ (if t.plate then [rows t.oaddr t.ostride t.m (4 * t.n)] else [])
  ++ (if t.cbsrc = 1 then [(t.cbaddr, 4 * t.n)] else [])
  ++ (if t.idsrc then [(t.idbase % plateEnd, 4 * t.n)] else [])

/-- The index addresses that a tile reads, (address, bytes). -/
def TileDesc.reads (t : TileDesc) : List (Nat × Nat) :=
  (if t.bIndex then (List.range t.n).map (fun j => (t.baddr + j * t.bstride, fmtBytes t.bfmt t.d)) else [])
  ++ (if t.csrc = 2 then [(t.caddr, 4 * t.n)] else [])

/-- The tile that a descriptor enqueues, its operands as the core reads them (R155): a unit written after MTILE gives old operands.
DEDUCED, log 35. DESIGN CHOICE, log 177. -/
def Pipe.tileOf (p : Pipe) (k : Nat) (t : TileDesc) (cls : Nat) (jobs : List Nat) (kernel : Option (List (Nat × Nat))) : Tile :=
  let w32 := fun (a : Nat) => BitVec.ofNat 32 (leNat (p.plateRead k a 4))
  let stream := if t.csrc = 2 then p.iasRead t.caddr (4 * t.n) else []
  { handle := 0, cls := cls, d := t.d, afmt := t.afmt, bfmt := t.bfmt, epi := t.epi,
    arows := (List.range t.m).map (fun i => p.plateRead k (t.aaddr + i * t.astride) (fmtBytes t.afmt t.d)),
    brows := (List.range t.n).map (fun j =>
      if t.bIndex then p.iasRead (t.baddr + j * t.bstride) (fmtBytes t.bfmt t.d)
      else p.plateRead k (t.baddr + j * t.bstride) (fmtBytes t.bfmt t.d)),
    rowc := if t.qconst then (List.range t.m).map (fun i =>
      (w32 (t.qaddr + 4 * i), w32 (t.qaddr + 4 * t.m + 4 * i), w32 (t.qaddr + 8 * t.m + 4 * i))) else [],
    colc := (match t.csrc with
      | 1 => (List.range t.n).map (fun j => (w32 (t.caddr + 8 * j), w32 (t.caddr + 8 * j + 4)))
      | 2 => (List.range t.n).map (fun j => (fp16Safe (le16 stream (4 * j)), fp16Safe (le16 stream (4 * j + 2))))
      | _ => []),
    cb := (match t.cbsrc with
      | 1 => .vals ((List.range t.n).map (fun j => w32 (t.cbaddr + 4 * j)))
      | 2 => .norm
      | _ => .none),
    ids := (List.range t.n).map (fun j =>
      (if t.idsrc then leNat (p.plateRead k (t.idbase + 4 * j) 4) else (t.idbase + j) % 2 ^ 32, 0)),
    sel := if t.sel then (List.range t.m).map (fun i => (t.selctx + i) % 4096) else [],
    out := if t.plate then some ⟨t.oaddr, t.ostride⟩ else none, use := .plain, jobs := jobs, kernel := kernel, next := 0,
    acc := [] }

/-- MTILE (R153 to R156): it waits while the queue holds 64 tiles, and while a page of its index operands is away; an uncorrectable read
of them ends the query of a kernel (R212). DEDUCED, log 35. -/
def coreMtile (k x sd sa : Nat) (p : Pipe) : Pipe :=
  let c0 := (p.core k).ctx x
  let a := plateAddr ((c0.reg sa).toNat / 64 * 64)
  let t := decodeTile (p.plateRead k a 64)
  p.runCtx k x (!((a, 64) :: t.areas).all (fun r => inWindow r.1 r.2)) (fun p c =>
    if (p.core k).tiles.length ≥ 64 then (p, true)
    else
      let inv := if (p.core k).inKernel x then (p.core k).inv else none
      let job := match inv with | some v => v.job | none => 0
      if !t.reads.all (fun r => p.iasReady r.1 r.2) then
        let w := t.reads.foldl (fun (r : Pipe × Bool) x => let y := r.1.want x.1 x.2; (y.1, r.2 || y.2)) (p, false)
        (if w.2 then w.1.endJob job stABORTED none else w.1, true)
      else
        let u := p.readUnits ((t.reads.flatMap (fun r => p.iasUnits r.1 r.2)).eraseDups)
        let cls := match p.jobs.get? job with | some jb => jb.cls 1 | none => 1
        let h := (p.core k).nextHandle
        let y := p.tileOf k t cls (match inv with | some v => [v.job] | none => []) (inv.map (·.ords))
        let q := (u.1.addTile k y).setCtx k x { c.setReg sd (BitVec.ofNat 64 h) with pc := c.pc + 8, issued := c.issued ++ [h] }
        (if u.2.isSome then q.endJob job stABORTED (some k) else q, false))

/-- Has the tile of a handle completed (R154)? -/
def CoreSt.tileOver (c : CoreSt) (h : Nat) : Bool := !(c.tiles.any (fun t => t.handle == h))

/-- MWAIT (R153). DESIGN CHOICE, log 3. -/
def coreMwait (k x sa : Nat) (p : Pipe) : Pipe :=
  p.runCtx k x false (fun p c => if (p.core k).tileOver ((c.reg sa).toNat % 65536) then (p.setCtx k x c.next, false) else (p, true))

/-- MTEST (R153). -/
def coreMtest (k x sd sa : Nat) (p : Pipe) : Pipe :=
  p.runCtx k x false (fun p c =>
    (p.setCtx k x (c.setReg sd (BitVec.ofNat 64 (b2n ((p.core k).tileOver ((c.reg sa).toNat % 65536))))).next, false))

/-- MDRAIN (R153). -/
def coreMdrain (k x : Nat) (p : Pipe) : Pipe :=
  p.runCtx k x false (fun p c =>
    if c.issued.all (p.core k).tileOver then (p.setCtx k x { c.next with issued := [] }, false) else (p, true))

/-- VSEL (R137 table, R142, R266): the first `lanes` lanes of `qs` with the ids in `qi`, to the request that `sa` names. -/
def coreVsel (k x qs qi sa lanes : Nat) (p : Pipe) : Pipe :=
  p.runVec k x false (fun p c n v =>
    if p.blocksFull k then (p, true)
    else
      let target := (c.reg sa).toNat % 4096
      let inv := if (p.core k).inKernel x && (p.core k).stageSel target then (p.core k).inv else none
      let job := if (p.core k).inKernel x then (match (p.core k).inv with | some i => i.job | none => 0) else 0
      let es := ((List.zip (lanesOf 6 (v.reg qs)) (lanesOf 6 (v.reg qi))).take lanes).map (fun e =>
        match inv with
        | some i => let m := kernelId i.ords e.2; (BitVec.ofNat 32 e.1, m.1, m.2)
        | none => (BitVec.ofNat 32 e.1, 0, e.2))
      ((p.setVec k x n v c.next).deliver k target .vsel job es, false))

/-- Decode an NBU request descriptor with the operand that follows it (R214 tables). -/
def decodeReq (b : List Byte) (operand : List Byte) : NbuReq :=
  { kernel := field b 0 8, cls := field b 8 2, neg := fbit b 10, norm := fbit b 11, fcomb := fbit b 12, hamm := fbit b 13,
    piece := le32 b 4 / 64 * 64, thresh := threshOf (BitVec.ofNat 32 (le32 b 8)), smax := k16384 (field b 96 15),
    repoch := field b 128 48, filt := (List.range 4).map (fun i => field b (192 + 16 * i) 16),
    qscl := BitVec.ofNat 32 (le32 b 32), qoff := BitVec.ofNat 32 (le32 b 36), qbias := BitVec.ofNat 32 (le32 b 40),
    job := le32 b 44, home := field b 384 4, selreq := field b 388 12, arg0 := le32 b 56, arg1 := le32 b 60,
    operand := operand, seq := 0, handOff := false }

/-- Bytes of operand that QLEN gives (R214). -/
def reqOperand (b : List Byte) : Nat := 32 * min (field b 16 16) 0x200

/-- An NBU request that a context hands off (R137, R214, R220): the descriptor lies in plate memory, its operand after it. A kernel
traps where they lie outside its window. DESIGN CHOICE, log 173. -/
def coreNbuReq (k x sd sn : Nat) (p : Pipe) : Pipe :=
  let c0 := (p.core k).ctx x
  let a := plateAddr (c0.reg sd).toNat
  let b := p.plateRead k a 64
  p.runCtx k x (!inWindow a (64 + reqOperand b)) (fun p c =>
    let dest := (c.reg sn).toNat
    let h := dest / 64 % 16
    let pc := dest % 64
    let r := { decodeReq b (p.plateRead k (a + 64) (reqOperand b)) with handOff := true }
    let p1 := p.setCtx k x { c.next with sent := some (h, pc, p.nbuSeq) }
    (if p.fenced h then p1 else p1.inject h pc r, false))

/-- A hand-off of a core (R137 table). -/
def coreHandOff (k x qs qi : Nat) (target : HandTo) (lanes : Nat) : Pipe → Pipe :=
  match target with
  | .sel sa => coreVsel k x qs qi sa lanes
  | .nbu sd sn => coreNbuReq k x sd sn

/-! ## Custom kernels (R140 to R143) -/

/-- KEND (R142): the invocation ends. DESIGN CHOICE, log 36. -/
def coreKend (k x : Nat) (p : Pipe) : Pipe :=
  p.runCtx k x false (fun p c =>
    (if (p.core k).inKernel x then p.modCore k (fun s => s.endKernel x) else p.setCtx k x c.next, false))

/-- The registers of a kernel's entry (R141 table), and the address of its slot in instruction memory (R137, R140).
DEDUCED, log 33. -/
def kernelCtx (v : Invocation) (stride d : Nat) : CoreCtx :=
  let s := [0, 0x1400000, 0x1600000, v.ords.length, 0x1408000, v.selreq, stride, d, 0x1410000] ++ List.replicate 23 0
  { s := s.map (BitVec.ofNat 64), pc := 0xC0000 + 0x4000 * v.slot, issued := [], sent := none }

/-- KERNEL_INVOKE (R141): the next invocation, once the previous has ended and a context is free. DESIGN CHOICE, log 34. -/
def kernelInvoke (k : Nat) (p : Pipe) : Pipe :=
  if p.fenced k || k ≥ 16 then p
  else
    let c := p.core k
    let walks := (p.walks.filter (fun v => v.2.core == k && v.2.started)).length
    match c.inv, c.invWait, c.ctxs.freeKey (4096 - walks) with
    | none, v :: rest, some x =>
      match p.jobs.get? v.job with
      | none => p.modCore k (fun c => { c with invWait := rest })
      | some jb =>
        match p.idxOf jb, jb.forms with
        | some ix, some f =>
          let d := ix.desc.dim
          let stride := ceilDiv ix.fullBytes 32 * 32
          let p1 := p.plateWrite k 0x1400000 ((qvecElems f.plain d).flatMap (fun w => leBytes 4 w.toNat))
          let p2 := p1.plateWrite k 0x1408000 (v.ords.flatMap (fun o => leBytes 4 o.2))
          let p3 := v.vectors.zipIdx.foldl (fun (p : Pipe) y => p.plateWrite k (0x1600000 + stride * y.2) (padTo stride y.1)) p2
          p3.modCore k (fun c => { c with
            inv := some { v with ctx := x }, invWait := rest, ctxs := c.ctxs.set x (kernelCtx v stride d) })
        | _, _ => p.modCore k (fun c => { c with invWait := rest })
    | _, _, _ => p

/-- LIMIT (R143): the kernel of the context has run more than 1,000,000 cycles. -/
def kernelLimit (k x : Nat) (p : Pipe) : Pipe :=
  if p.ctxRuns k x && (p.core k).inKernel x then p.kernelTrap k else p

end Sys2Proof.Machine
end

