-- ==== Sys2Proof/Machine/CoreRows.lean ====
section
/-!
DEFINITION. Sys2Proof/Machine/CoreRows.lean: the rows of the search cores' instructions (chapter 04).
-/
namespace Sys2Proof.Machine

/-- MTILE (R153 to R156). -/
def execMtile (core ctx sd sa : Nat) (s : State) : Host.Outcome State Fault Refusal :=
  .next (s.onCore core (coreMtile core ctx sd sa))

/-- MWAIT (R153). -/
def execMwait (core ctx sa : Nat) (s : State) : Host.Outcome State Fault Refusal :=
  .next (s.onCore core (coreMwait core ctx sa))

/-- MTEST (R153). -/
def execMtest (core ctx sd sa : Nat) (s : State) : Host.Outcome State Fault Refusal :=
  .next (s.onCore core (coreMtest core ctx sd sa))

/-- MDRAIN (R153). -/
def execMdrain (core ctx : Nat) (s : State) : Host.Outcome State Fault Refusal :=
  .next (s.onCore core (coreMdrain core ctx))

/-- VSEL and the hand-off of an NBU request (R137). -/
def execVsel (core ctx qs qi : Nat) (target : HandTo) (lanes : Nat) (s : State) : Host.Outcome State Fault Refusal :=
  .next (s.onCore core (coreHandOff core ctx qs qi target lanes))

/-- VFREE (R137). -/
def execVfree (core ctx : Nat) (s : State) : Host.Outcome State Fault Refusal :=
  .next (s.onCore core (coreVfree core ctx))

/-- KEND (R142). -/
def execKend (core ctx : Nat) (s : State) : Host.Outcome State Fault Refusal :=
  .next (s.onCore core (coreKend core ctx))

/-- CORE_SCALAR (R136, R137). -/
def execCoreScalar (core ctx : Nat) (op : ScalarOp) (s : State) : Host.Outcome State Fault Refusal :=
  .next (s.onCore core (coreScalar core ctx op))

/-- PLATE_ACCESS (R138). -/
def execPlateAccess (core ctx : Nat) (op : PlateRow) (s : State) : Host.Outcome State Fault Refusal :=
  .next (s.onCore core (plateAccess core ctx op.op op.ecc))

/-- CORE_VECTOR (R137). -/
def execCoreVector (core ctx : Nat) (op : VecOp) (s : State) : Host.Outcome State Fault Refusal :=
  .next (s.onCore core (coreVector core ctx op))

/-- KERNEL_INVOKE (R141). -/
def execKernelInvoke (core : Nat) (s : State) : Host.Outcome State Fault Refusal :=
  .next (s.onCore core (kernelInvoke core))

/-- LIMIT (R143). -/
def execLimit (core ctx : Nat) (s : State) : Host.Outcome State Fault Refusal :=
  .next (s.onCore core (kernelLimit core ctx))

end Sys2Proof.Machine
end

