-- ==== Sys2Proof/Machine/Limits.lean ====
section
/-!
DEFINITION. Sys2Proof/Machine/Limits.lean: what the board and the sensors report: temperatures, currents, rails, reference
clocks, die-to-die lanes, margins and PCIe events (chapters 17, 19 and 21).
-/
namespace Sys2Proof.Machine

/-- The collector and the limits work once PWR_GOOD is high (R590, R657). -/
def State.onPower (s : State) (ok : Bool) (srcs : List Nat) (f : Power → Power) : State :=
  if s.pwr.good && ok then ({ s with pwr := f s.pwr }.raise srcs).settle else s

/-- A source set for a cause outside the limits block. -/
def State.onFault (s : State) (ok : Bool) (srcs : List Nat) : State := s.onPower ok srcs (fun p => p)

/-! ## Temperature and current (R606, R607) -/

/-- THERMTRIP (R607): die d at 115 C. -/
def execThermtrip (d t : Nat) (s : State) : Host.Outcome State Fault Refusal :=
  .next (s.onPower (decide (d < 6) && decide (t ≥ 115)) [398 + d] (fun p => { p.throttle d t with trip := true }))

/-- THROTTLE (R606): die d at 105 C. -/
def execThrottle (d t : Nat) (s : State) : Host.Outcome State Fault Refusal :=
  .next (s.onPower (decide (d < 6) && decide (t ≥ 105)) [388 + d] (fun p => p.throttle d t))

/-- THROTTLE_STEP (R606): the 100 us step of die d. -/
def execThrottleStep (d t amps : Nat) (s : State) : Host.Outcome State Fault Refusal :=
  .next (s.onPower (s.pwr.thr.getD d false || s.pwr.ilim.getD d false) [] (fun p => p.throttleStep d t amps))

/-- CURRENT_LIMIT (R606): VDD_CORE of search die d above 330 A. -/
def execCurrentLimit (d amps : Nat) (s : State) : Host.Outcome State Fault Refusal :=
  .next (s.onPower (decide (d < 4) && decide (amps > 330)) [394 + d] (fun p => { p with ilim := setNth p.ilim d true }))

/-- HBM_TEMP (R606): stack Hk at 95 C. -/
def execHbmTemp (k t : Nat) (s : State) : Host.Outcome State Fault Refusal :=
  .next (s.onPower (decide (k < 16) && decide (t ≥ 95)) [16 * k + 7] (fun p => { p with hot := setNth p.hot k true }))

/-- HBM_TEMP_CLEAR (R606): stack Hk below 93 C. -/
def execHbmTempClear (k t : Nat) (s : State) : Host.Outcome State Fault Refusal :=
  .next (s.onPower (decide (t < 93)) [] (fun p => { p with hot := setNth p.hot k false }))

/-! ## Rails and reference clocks (R581, R608, R649, R656, R657) -/

/-- UNDERVOLT (R608): a rail other than VDD_AON. -/
def execUndervolt (rail : Nat) (s : State) : Host.Outcome State Fault Refusal :=
  .next (s.onFault (decide (rail < 9)) [404])

/-- RAIL_FAULT (R656). -/
def execRailFault (rail : Nat) (s : State) : Host.Outcome State Fault Refusal :=
  .next (s.onFault (decide (rail < 10)) [378 + rail])

/-- PWR_GOOD (R657): the always-on block leaves reset; rails outside 5 % set RAIL_FAULT at once. -/
def execPwrGood (bad : List Nat) (s : State) : Host.Outcome State Fault Refusal :=
  .next (if s.pwr.good then s
    else ({ s with pwr := { s.pwr with good := true } }.raise ((bad.filter (· < 10)).map (· + 378))).settle)

/-- DOMAIN_POWER (R581): power-good of partition k is lost while its domain is on; in training the partition has failed a
step (R619). DEDUCED, log 79. -/
def execDomainPower (k : Nat) (s : State) : Host.Outcome State Fault Refusal :=
  let on := decide (k < 16) && (s.pipe.part k).power && s.boot.stage ≠ .reset
  let s1 := if on && s.coel.state ≠ .ready && !s.coel.dpen && s.pwr.good then s.failTraining [k] else s
  .next (s1.onFault on [16 * k + 9])

/-- PCIE_REFCLK_LOSS (R544, R649): the PLLs take CD_HOLD, and the PCIe link drops. -/
def execPcieRefclkLoss (s : State) : Host.Outcome State Fault Refusal :=
  .next (if !s.pwr.pcieClk then s
    else
      let s1 := { s with pwr := { s.pwr with pcieClk := false, onHold := true } }
      if s1.pcieUp && s1.pcie.trained then s1.linkReset.settle else s1)

/-- PCIE_REFCLK_RETURN (R649): the PLLs take PCIE_REFCLK back. -/
def execPcieRefclkReturn (s : State) : Host.Outcome State Fault Refusal :=
  .next { s with pwr := { s.pwr with pcieClk := true, onHold := false } }

/-- FAB_REFCLK_LOSS (R488, R531, R649): every link that is up is declared down. -/
def execFabRefclkLoss (s : State) : Host.Outcome State Fault Refusal :=
  .next (if !s.pwr.fabClk then s
    else
      let ups := (List.range 32).filter (fun n => (s.fab.link n).up)
      let s1 := ups.foldl State.dropLink { s with pwr := { s.pwr with fabClk := false } }
      (s1.raise (ups.map (· + 320))).settle)

/-! ## Die-to-die links and margins (R599 to R603) -/

/-- LANE_FAIL (R599 to R602): a lane of module m of link l. DEDUCED, log 77. -/
def execLaneFail (l m lane : Nat) (s : State) : Host.Outcome State Fault Refusal :=
  .next (match s.d2d[l]? with
    | none => s
    | some x =>
      let fresh := decide (lane < 66) && (match x.failed[m]? with | some fs => !fs.contains lane | none => false)
      if !x.trained || !fresh then s
      else
        let y := x.failLane m lane
        let s1 := { s with d2d := setNth s.d2d l y }
        let srcs := if y.up then (if (x.failed[m]?).any (fun fs => moduleState fs != .down) then [264 + l] else [])
          else if x.up then [276 + l] ++ unreachSources s1.d2d else []
        s1.onFault true srcs)

/-- D2D_DOWN (R601, R602): one flit has failed 8 replays in a row. -/
def execD2dDown (l : Nat) (s : State) : Host.Outcome State Fault Refusal :=
  .next (match s.d2d[l]? with
    | none => s
    | some x =>
      if !x.up then s
      else
        let s1 := { s with d2d := setNth s.d2d l { x with dead := true } }
        s1.onFault true ([276 + l] ++ unreachSources s1.d2d))

/-- MARGIN_MEASURE (R603, R605): a margin measured while the package serves. -/
def execMarginMeasure (kind idx : Nat) (value : Int) (s : State) : Host.Outcome State Fault Refusal :=
  .next (match marginInfo kind idx with
    | none => s
    | some (point, src) =>
      if !s.works || s.boot.stage ≠ .serving || (kind = 1 && s.pipe.fenced (idx / 64)) then s
      else
        let low := match point, src with | some sp, some x => if value < sp then [x] else [] | _, _ => []
        s.onPower true low (fun p =>
          { p with
            margins := p.margins.set (kind * 65536 + idx) value,
            vcore := if kind = 2 && idx < 4 then setNth p.vcore idx (675 + value).toNat else p.vcore }))

/-! ## The safe state (R426, R596) -/

/-- SAFE_STATE_FLASH_IDLE (R426, R596): programs and erases already started have ended, and the clocks are gated. -/
def execSafeStateFlashIdle (s : State) : Host.Outcome State Fault Refusal :=
  let stop := fun (p : Pipe) (k : Nat) =>
    let p1 := p.finishPrograms k (p.flash k).progs.length
    match (p1.flash k).erases with
    | [] => p1
    | e :: rest => p1.erased k e rest
  .next (if s.fcu.safe && !s.fcu.safeIdle then
      { s with fcu := { s.fcu with safeIdle := true }, pwr := s.pwr.gateSafe, pipe := (List.range 16).foldl stop s.pipe }
    else s)

/-! ## Entropy (R623, R624) -/

/-- ENTROPY_READY (R623): the start-up tests pass. -/
def execEntropyReady (s : State) : Host.Outcome State Fault Refusal :=
  .next (if s.works && s.coel.state ≠ .rom then { s with boot := { s.boot with entropy := true } } else s)

/-- ENTROPY_FAIL (R624): a continuous health test fails. -/
def execEntropyFail (s : State) : Host.Outcome State Fault Refusal :=
  .next (if s.works && s.coel.state ≠ .rom then { s with boot := { s.boot with entropy := false } }.onFault true [262] else s)

/-! ## PCIe (R537 to R542, R589) -/

/-- PCIE_FATAL (R589 table). -/
def execPcieFatal (s : State) : Host.Outcome State Fault Refusal := .next (s.onFault s.pcieUp [259])

/-- PCIE_LINK_TRAINED (R52, R618): configuration and BAR0 answer. -/
def execPcieLinkTrained (s : State) : Host.Outcome State Fault Refusal :=
  .next (if s.pcieUp && !s.pwr.perst && s.pwr.good && s.pwr.pcieClk && !s.pcie.detect then
      { s with pcie := { s.pcie with trained := true } }.release
    else s)

/-- VF_ENABLE_SET (R538): the 16 VFs exist. -/
def execVfEnableSet (s : State) : Host.Outcome State Fault Refusal :=
  .next (s.doWrite (fun s => { s with pcie := { s.pcie with vfEnable := true } }.release))

/-- BUS_MASTER_ENABLE (R539): Bus Master Enable and D3hot of a function. -/
def execBusMasterEnable (func : Nat) (bme d3 : Bool) (s : State) : Host.Outcome State Fault Refusal :=
  .next (s.doWrite (fun s =>
    if func > 16 || (func ≠ 0 && !s.pcie.vfEnable) then s
    else { s with pcie := { s.pcie with bme := setNth s.pcie.bme func bme, d3 := setNth s.pcie.d3 func d3 } }.release))

/-- MSIX_VECTOR_UNMASK (R539, R541): a pending message of the vector is sent. -/
def execMsixVectorUnmask (func vec : Nat) (s : State) : Host.Outcome State Fault Refusal :=
  .next (s.doWrite (fun s =>
    if func > 16 || (func ≠ 0 && !s.pcie.vfEnable) || vec ≥ (if func = 0 then 256 else 112) || s.pcie.unmasked.contains (func, vec) then s
    else { s with pcie := { s.pcie with unmasked := s.pcie.unmasked ++ [(func, vec)] } }.release))

end Sys2Proof.Machine
end

