-- ==== Sys2Proof/Machine/NbuRows.lean ====
section
/-!
DEFINITION. Sys2Proof/Machine/NbuRows.lean: the rows of the near-bank units and of the graph walkers (chapters 06, 07 and 10):
each applies its operation of NbuOps or Walk while the package works.
-/
namespace Sys2Proof.Machine

/-- NBU_REQUEST_TAKE (R219, R304 to R306). -/
def execNbuRequestTake (thr : ThrId) (s : State) : Host.Outcome State Fault Refusal :=
  .next (if s.coel.dpen then s.onNbu (nbuTake thr.part thr.pc thr.th) else s)

/-- SCAN (R104, R215 to R218). -/
def execScan (thr : ThrId) (errs : RawErrs) (s : State) : Host.Outcome State Fault Refusal :=
  .next (s.onNbu (nbuScan thr.part thr.pc thr.th errs))

/-- BLOCK (R336 to R338). -/
def execBlock (thr : ThrId) (errs : RawErrs) (s : State) : Host.Outcome State Fault Refusal :=
  .next (s.onNbu (nbuBlock thr.part thr.pc thr.th errs))

/-- APPEND (R225). -/
def execAppend (thr : ThrId) (errs : RawErrs) (s : State) : Host.Outcome State Fault Refusal :=
  .next (s.onNbu (nbuAppend thr.part thr.pc thr.th errs))

/-- STAMP (R226). -/
def execStamp (thr : ThrId) (errs : RawErrs) (s : State) : Host.Outcome State Fault Refusal :=
  .next (s.onNbu (nbuStamp thr.part thr.pc thr.th errs))

/-- POOL (R352). -/
def execPool (thr : ThrId) (errs : RawErrs) (s : State) : Host.Outcome State Fault Refusal :=
  .next (s.onNbu (nbuPool thr.part thr.pc thr.th errs))

/-- COMPACT (R311, R312). -/
def execCompact (thr : ThrId) (errs : RawErrs) (s : State) : Host.Outcome State Fault Refusal :=
  .next (s.onNbu (nbuCompact thr.part thr.pc thr.th errs))

/-- BITMAP (R296). -/
def execBitmap (thr : ThrId) (errs : RawErrs) (s : State) : Host.Outcome State Fault Refusal :=
  .next (s.onNbu (nbuBitmap thr.part thr.pc thr.th errs))

/-- SCRUB (R227). -/
def execScrub (thr : ThrId) (errs : RawErrs) (s : State) : Host.Outcome State Fault Refusal :=
  .next (s.onNbu (nbuScrub thr.part thr.pc thr.th errs))

/-- NOP (R214, R253): it reads nothing. -/
def execNop (thr : ThrId) (s : State) : Host.Outcome State Fault Refusal :=
  .next (s.onNbu (nbuNop thr.part thr.pc thr.th))

/-- NBU_PROGRAM (R252, R253): `count` instructions of the loaded program. -/
def execNbuProgram (thr : ThrId) (count : Nat) (errs : RawErrs) (s : State) : Host.Outcome State Fault Refusal :=
  .next (s.onNbu (nbuProgram thr.part thr.pc thr.th errs count))

/-- NBU_IMAGE_SWITCH (R254). -/
def execNbuImageSwitch (k pc : Nat) (s : State) : Host.Outcome State Fault Refusal :=
  .next (s.onNbu (nbuSwitch k pc))

/-- EPOCH_MARKER (R304). -/
def execEpochMarker (k pc src : Nat) (s : State) : Host.Outcome State Fault Refusal :=
  .next (if s.coel.dpen then s.onNbu (nbuMarker k pc src) else s)

/-- CANCEL (R228, R259). -/
def execCancel (k pc job : Nat) (s : State) : Host.Outcome State Fault Refusal :=
  .next (s.onNbu (nbuCancel k pc job))

/-- CANCELLED (R228, R259). -/
def execCancelled (stop : ThrStop) (s : State) : Host.Outcome State Fault Refusal :=
  .next (s.onNbu (nbuCancelled stop.thr.part stop.thr.pc stop.thr.th stop.n))

/-- NBU_LIMIT (R257). -/
def execNbuLimit (thr : ThrId) (s : State) : Host.Outcome State Fault Refusal :=
  .next (s.onNbu (nbuLimit thr.part thr.pc thr.th))

/-- ALU (R240). -/
def execAlu (thr : ThrId) (fn fa fb fc : Nat) (s : State) : Host.Outcome State Fault Refusal :=
  .next (s.onNbu (nbuInstr thr.part thr.pc thr.th RawErrs.none (.alu fn fa fb fc)))

/-- ADDI (R238). -/
def execAddi (thr : ThrId) (fa fb : Nat) (imm : Int) (s : State) : Host.Outcome State Fault Refusal :=
  .next (s.onNbu (nbuInstr thr.part thr.pc thr.th RawErrs.none (.imm .add fa fb imm)))

/-- ANDI (R238). -/
def execAndi (thr : ThrId) (fa fb : Nat) (imm : Int) (s : State) : Host.Outcome State Fault Refusal :=
  .next (s.onNbu (nbuInstr thr.part thr.pc thr.th RawErrs.none (.imm .and fa fb imm)))

/-- ORI (R238). -/
def execOri (thr : ThrId) (fa fb : Nat) (imm : Int) (s : State) : Host.Outcome State Fault Refusal :=
  .next (s.onNbu (nbuInstr thr.part thr.pc thr.th RawErrs.none (.imm .or fa fb imm)))

/-- XORI (R238). -/
def execXori (thr : ThrId) (fa fb : Nat) (imm : Int) (s : State) : Host.Outcome State Fault Refusal :=
  .next (s.onNbu (nbuInstr thr.part thr.pc thr.th RawErrs.none (.imm .xor fa fb imm)))

/-- SHLI (R238). -/
def execShli (thr : ThrId) (fa fb : Nat) (imm : Int) (s : State) : Host.Outcome State Fault Refusal :=
  .next (s.onNbu (nbuInstr thr.part thr.pc thr.th RawErrs.none (.imm .shl fa fb imm)))

/-- SHRI (R238). -/
def execShri (thr : ThrId) (fa fb : Nat) (imm : Int) (s : State) : Host.Outcome State Fault Refusal :=
  .next (s.onNbu (nbuInstr thr.part thr.pc thr.th RawErrs.none (.imm .shr fa fb imm)))

/-- SRAI (R238). -/
def execSrai (thr : ThrId) (fa fb : Nat) (imm : Int) (s : State) : Host.Outcome State Fault Refusal :=
  .next (s.onNbu (nbuInstr thr.part thr.pc thr.th RawErrs.none (.imm .sra fa fb imm)))

/-- LUI (R238). -/
def execLui (thr : ThrId) (fa : Nat) (imm : Int) (s : State) : Host.Outcome State Fault Refusal :=
  .next (s.onNbu (nbuInstr thr.part thr.pc thr.th RawErrs.none (.lui fa imm)))

/-- LD (R235, R236). -/
def execLd (thr : ThrId) (errs : RawErrs) (fa fb width : Nat) (loc : Bool) (imm : Int) (s : State) : Host.Outcome State Fault Refusal :=
  .next (s.onNbu (nbuInstr thr.part thr.pc thr.th errs (.ld fa fb width loc imm)))

/-- ST (R235, R236). -/
def execSt (thr : ThrId) (errs : RawErrs) (fa fb width : Nat) (loc : Bool) (imm : Int) (s : State) : Host.Outcome State Fault Refusal :=
  .next (s.onNbu (nbuInstr thr.part thr.pc thr.th errs (.st fa fb width loc imm)))

/-- VLD (R235, R238, R243). -/
def execVld (thr : ThrId) (errs : RawErrs) (fa fb : Nat) (loc : Bool) (imm : Int) (s : State) : Host.Outcome State Fault Refusal :=
  .next (s.onNbu (nbuInstr thr.part thr.pc thr.th errs (.vld fa fb loc imm)))

/-- VST (R235, R238, R243). -/
def execVst (thr : ThrId) (errs : RawErrs) (fa fb : Nat) (loc : Bool) (imm : Int) (s : State) : Host.Outcome State Fault Refusal :=
  .next (s.onNbu (nbuInstr thr.part thr.pc thr.th errs (.vst fa fb loc imm)))

/-- TLD (R235, R238, R243). -/
def execTld (thr : ThrId) (errs : RawErrs) (fa fb : Nat) (loc : Bool) (imm : Int) (s : State) : Host.Outcome State Fault Refusal :=
  .next (s.onNbu (nbuInstr thr.part thr.pc thr.th errs (.tld fa fb loc imm)))

/-- FENCE_INSTR (R255). -/
def execFenceInstr (thr : ThrId) (s : State) : Host.Outcome State Fault Refusal :=
  .next (s.onNbu (nbuInstr thr.part thr.pc thr.th RawErrs.none .fence))

/-- BEQ (R238). -/
def execBeq (thr : ThrId) (fa fb : Nat) (imm : Int) (s : State) : Host.Outcome State Fault Refusal :=
  .next (s.onNbu (nbuInstr thr.part thr.pc thr.th RawErrs.none (.br .eq fa fb imm)))

/-- BNE (R238). -/
def execBne (thr : ThrId) (fa fb : Nat) (imm : Int) (s : State) : Host.Outcome State Fault Refusal :=
  .next (s.onNbu (nbuInstr thr.part thr.pc thr.th RawErrs.none (.br .ne fa fb imm)))

/-- BLT (R238). -/
def execBlt (thr : ThrId) (fa fb : Nat) (imm : Int) (s : State) : Host.Outcome State Fault Refusal :=
  .next (s.onNbu (nbuInstr thr.part thr.pc thr.th RawErrs.none (.br .lt fa fb imm)))

/-- BGE (R238). -/
def execBge (thr : ThrId) (fa fb : Nat) (imm : Int) (s : State) : Host.Outcome State Fault Refusal :=
  .next (s.onNbu (nbuInstr thr.part thr.pc thr.th RawErrs.none (.br .ge fa fb imm)))

/-- BLTU (R238). -/
def execBltu (thr : ThrId) (fa fb : Nat) (imm : Int) (s : State) : Host.Outcome State Fault Refusal :=
  .next (s.onNbu (nbuInstr thr.part thr.pc thr.th RawErrs.none (.br .ltu fa fb imm)))

/-- BGEU (R238). -/
def execBgeu (thr : ThrId) (fa fb : Nat) (imm : Int) (s : State) : Host.Outcome State Fault Refusal :=
  .next (s.onNbu (nbuInstr thr.part thr.pc thr.th RawErrs.none (.br .geu fa fb imm)))

/-- JAL (R238). -/
def execJal (thr : ThrId) (fa : Nat) (imm : Int) (s : State) : Host.Outcome State Fault Refusal :=
  .next (s.onNbu (nbuInstr thr.part thr.pc thr.th RawErrs.none (.jal fa imm)))

/-- JALR (R238). -/
def execJalr (thr : ThrId) (fa fb : Nat) (s : State) : Host.Outcome State Fault Refusal :=
  .next (s.onNbu (nbuInstr thr.part thr.pc thr.th RawErrs.none (.jalr fa fb)))

/-- END (R251). -/
def execEndProg (thr : ThrId) (s : State) : Host.Outcome State Fault Refusal :=
  .next (s.onNbu (nbuInstr thr.part thr.pc thr.th RawErrs.none .fin))

/-- VALU (R242). -/
def execValu (thr : ThrId) (fn fa fb fc : Nat) (s : State) : Host.Outcome State Fault Refusal :=
  .next (s.onNbu (nbuInstr thr.part thr.pc thr.th RawErrs.none (.valu fn fa fb fc)))

/-- VRED (R242). -/
def execVred (thr : ThrId) (fn fa fb fc : Nat) (s : State) : Host.Outcome State Fault Refusal :=
  .next (s.onNbu (nbuInstr thr.part thr.pc thr.th RawErrs.none (.vred fn fa fb fc)))

/-- VLUT (R243). -/
def execVlut (thr : ThrRaw) (fa fb : Nat) (s : State) : Host.Outcome State Fault Refusal :=
  .next (s.onNbu (nbuInstr thr.thr.part thr.thr.pc thr.thr.th thr.errs (.vlut fa fb)))

/-- VMOVG (R238). -/
def execVmovg (thr : ThrId) (fn fa fb : Nat) (s : State) : Host.Outcome State Fault Refusal :=
  .next (s.onNbu (nbuInstr thr.part thr.pc thr.th RawErrs.none (.vmovg fn fa fb)))

/-- PSET (R245). -/
def execPset (thr : ThrId) (errs : RawErrs) (fn fa fb fc : Nat) (s : State) : Host.Outcome State Fault Refusal :=
  .next (s.onNbu (nbuInstr thr.part thr.pc thr.th errs (.eu .pset fn fa fb fc)))

/-- ENEXT (R248). -/
def execEnext (thr : ThrId) (errs : RawErrs) (fn fa fb fc : Nat) (s : State) : Host.Outcome State Fault Refusal :=
  .next (s.onNbu (nbuInstr thr.part thr.pc thr.th errs (.eu .enext fn fa fb fc)))

/-- ESCORE (R248). -/
def execEscore (thr : ThrId) (errs : RawErrs) (fn fa fb fc : Nat) (s : State) : Host.Outcome State Fault Refusal :=
  .next (s.onNbu (nbuInstr thr.part thr.pc thr.th errs (.eu .escore fn fa fb fc)))

/-- EACC (R248). -/
def execEacc (thr : ThrId) (errs : RawErrs) (fn fa fb fc : Nat) (s : State) : Host.Outcome State Fault Refusal :=
  .next (s.onNbu (nbuInstr thr.part thr.pc thr.th errs (.eu .eacc fn fa fb fc)))

/-- EPIL (R248). -/
def execEpil (thr : ThrId) (errs : RawErrs) (fn fa fb fc : Nat) (s : State) : Host.Outcome State Fault Refusal :=
  .next (s.onNbu (nbuInstr thr.part thr.pc thr.th errs (.eu .epil fn fa fb fc)))

/-- EFILT (R249). -/
def execEfilt (thr : ThrId) (errs : RawErrs) (fn fa fb fc : Nat) (s : State) : Host.Outcome State Fault Refusal :=
  .next (s.onNbu (nbuInstr thr.part thr.pc thr.th errs (.eu .efilt fn fa fb fc)))

/-- EVIS (R248). -/
def execEvis (thr : ThrId) (errs : RawErrs) (fn fa fb fc : Nat) (s : State) : Host.Outcome State Fault Refusal :=
  .next (s.onNbu (nbuInstr thr.part thr.pc thr.th errs (.eu .evis fn fa fb fc)))

/-- ELAST (R248). -/
def execElast (thr : ThrId) (errs : RawErrs) (fn fa fb fc : Nat) (s : State) : Host.Outcome State Fault Refusal :=
  .next (s.onNbu (nbuInstr thr.part thr.pc thr.th errs (.eu .elast fn fa fb fc)))

/-- ETHR (R248). -/
def execEthr (thr : ThrId) (errs : RawErrs) (fn fa fb fc : Nat) (s : State) : Host.Outcome State Fault Refusal :=
  .next (s.onNbu (nbuInstr thr.part thr.pc thr.th errs (.eu .ethr fn fa fb fc)))

/-- EMIT (R251). -/
def execEmit (thr : ThrId) (errs : RawErrs) (fn fa fb fc : Nat) (s : State) : Host.Outcome State Fault Refusal :=
  .next (s.onNbu (nbuInstr thr.part thr.pc thr.th errs (.eu .emit fn fa fb fc)))

/-- STTAIL (R256). -/
def execSttail (thr : ThrId) (errs : RawErrs) (fb fc : Nat) (s : State) : Host.Outcome State Fault Refusal :=
  .next (s.onNbu (nbuInstr thr.part thr.pc thr.th errs (.sttail fb fc)))

/-- WALK_START (R326, R329, R331). -/
def execWalkStart (w : Nat) (s : State) : Host.Outcome State Fault Refusal :=
  .next (s.onWalk w (walkStart w))

/-- WALK_HOP (R332, R340). -/
def execWalkHop (w : RawAt) (s : State) : Host.Outcome State Fault Refusal :=
  .next (s.onWalk w.n (fun p => walkHop w.n (p.rawErrors w.raw)))

/-- WALK_PAGE_LOAD (R329). -/
def execWalkPageLoad (w : Nat) (s : State) : Host.Outcome State Fault Refusal :=
  .next (s.onWalk w (walkPageLoad w))

end Sys2Proof.Machine
end

