-- ==== Sys2Proof/Machine/PipeRows.lean ====
section
/-!
DEFINITION. Sys2Proof/Machine/PipeRows.lean: rows of the pipeline: Derotator, pooling, arrays, selection, ingest, pages and
flash media (chapters 04, 05, 08, 09, 11 to 13); each applies its operation while the package works.
-/
namespace Sys2Proof.Machine

/-- DEROTATOR (R179, R180, R192). -/
def execDerotator (core : Nat) (parity : Bool) (s : State) : Host.Outcome State Fault Refusal :=
  .next (s.onCore core (derotator core parity))

/-- POOL_ISSUE (R351, R355, R356, R359, R360). -/
def execPoolIssue (job : Nat) (s : State) : Host.Outcome State Fault Refusal :=
  .next (s.onPipe (poolIssue s.connDead job))

/-- POOL_PARTIAL (R353, R354). -/
def execPoolPartial (job : Nat) (s : State) : Host.Outcome State Fault Refusal :=
  .next (s.onPipe (poolPartial job))

/-- TILE_PASS (R151, R160 to R162, R169). -/
def execTilePass (core : Nat) (parity : Bool) (s : State) : Host.Outcome State Fault Refusal :=
  .next (s.onCore core (tilePass core parity))

/-- OPEN (R265). -/
def execOpenReq (core n : Nat) (s : State) : Host.Outcome State Fault Refusal :=
  .next (s.onCore core (selOpen core n))

/-- CLOSE (R209, R273, R276, R278). -/
def execCloseReq (core : Nat) (req : CloseAt) (s : State) : Host.Outcome State Fault Refusal :=
  .next (s.onCore core (fun p => selClose core req.n req.parity (p.rawErrors req.raw)))

/-- DISCARD (R265, R277). -/
def execDiscard (core n : Nat) (s : State) : Host.Outcome State Fault Refusal :=
  .next (s.onCore core (selDiscard core n))

/-- BOUND (R272). -/
def execBound (core n : Nat) (s : State) : Host.Outcome State Fault Refusal :=
  .next (s.onCore core (selBound core n))

/-- SEL_BLOCK_SERVED (R266, R267, R278). -/
def execSelBlockServed (core : Nat) (parity : Bool) (s : State) : Host.Outcome State Fault Refusal :=
  .next (s.onCore core (selServe core parity))

/-- END_MESSAGE (R222, R223). -/
def execEndMessage (core : Nat) (s : State) : Host.Outcome State Fault Refusal :=
  .next (s.onCore core (endMessage core))

/-- DIR_LOCK (R209, R301, R302). -/
def execDirLock (k : RawAt) (s : State) : Host.Outcome State Fault Refusal :=
  .next (s.onPipe (fun p => dirLock k.n (p.rawErrors k.raw)))

/-- A row that needs firmware (R554): it waits while the Coelostat does not serve. DESIGN CHOICE, log 3. DEDUCED, log 90. -/
def State.onFirmware (s : State) (f : Pipe → Pipe) : State := if s.coel.state = .ready then s.onPipe f else s

/-- Such a row on index objects: none is read or written before the data path is enabled (R320). -/
def State.onObjects (s : State) (f : Pipe → Pipe) : State := if s.coel.dpen then s.onFirmware f else s

/-- PIECE_GROW (R289, R342). -/
def execPieceGrow (job : Nat) (s : State) : Host.Outcome State Fault Refusal :=
  .next (s.onObjects (pieceGrow job))

/-- STAMP_RETRY (R307). -/
def execStampRetry (k : Nat) (s : State) : Host.Outcome State Fault Refusal :=
  .next (s.onObjects (stampRetry k))

/-- PIECE_COMPACT (R310, R311): `idx` is the handle. -/
def execPieceCompact (k idx cluster piece : Nat) (s : State) : Host.Outcome State Fault Refusal :=
  .next (s.onObjects (pieceCompact k idx cluster piece s.mer.now))

/-- PIECE_RETIRE (R311). -/
def execPieceRetire (k : Nat) (s : State) : Host.Outcome State Fault Refusal :=
  .next (s.onObjects (pieceRetire k))

/-- CHECKPOINT (R317). -/
def execCheckpoint (s : State) : Host.Outcome State Fault Refusal :=
  .next (s.onFirmware (checkpoint s.mer.pub s.mer.now))

/-- CKPT (R317, R421). -/
def execCkpt (s : State) : Host.Outcome State Fault Refusal :=
  .next (s.onFirmware ckptDone)

/-- PAGE_MOVE_IN (R377, R408, R409). -/
def execPageMoveIn (k i retries rebuilds : Nat) (lost : Bool) (s : State) : Host.Outcome State Fault Refusal :=
  .next (s.onPipe (pageMoveIn k i retries rebuilds lost))

/-- WRITE_BACK (R379). -/
def execWriteBack (k : Nat) (s : State) : Host.Outcome State Fault Refusal :=
  .next (s.onPipe (writeBack k))

/-- SPILL (R380). -/
def execSpill (k pc piece : Nat) (s : State) : Host.Outcome State Fault Refusal :=
  .next (s.onObjects (spill k pc piece s.mer.now))

/-- FLASH_READ_DONE (R404, R408, R409). -/
def execFlashReadDone (k i retries rebuilds : Nat) (lost : Bool) (s : State) : Host.Outcome State Fault Refusal :=
  .next (s.onPipe (flashReadDone k i retries rebuilds lost))

/-- An end of a flash operation of partition k: none comes once a fence has deasserted its chip enables (R584 step 4). -/
def atFlash (k : Nat) (f : Pipe → Pipe) (p : Pipe) : Pipe := if (p.part k).flashIdle then p else f p

/-- PROGRAM_DONE (R399, R413, R415). -/
def execProgramDone (k : Nat) (s : State) : Host.Outcome State Fault Refusal :=
  .next (s.onPipe (atFlash k (programDone k)))

/-- ERASE_DONE (R412, R415, R416). -/
def execEraseDone (k : Nat) (s : State) : Host.Outcome State Fault Refusal :=
  .next (s.onPipe (atFlash k (eraseDone k)))

/-- EXTENT_RETIRE (R412). -/
def execExtentRetire (k e : Nat) (s : State) : Host.Outcome State Fault Refusal :=
  .next (s.onFirmware (extentRetire k e))

/-- EXTENT_COMPACT (R413). -/
def execExtentCompact (k src : Nat) (s : State) : Host.Outcome State Fault Refusal :=
  .next (s.onFirmware (extentCompact k src s.mer.now))

/-- RELOCATION (R415, R418). -/
def execRelocation (k src target : Nat) (s : State) : Host.Outcome State Fault Refusal :=
  .next (s.onFirmware (relocation k src target s.mer.now))

/-- SCRUB_PERIOD (R410). -/
def execScrubPeriod (k : ScrubAt) (s : State) : Host.Outcome State Fault Refusal :=
  .next (s.onFirmware (scrubPeriod k.k s.mer.now k.found))

/-- A failure of the media during the flush latches its alarm and does not stop it (R411, R425). -/
def State.onMedia (s : State) (alarm : BitVec 8) (f : Pipe → Pipe) : State :=
  if s.flush.state = .flushing then
    { s with pipe := f s.pipe, flush := { s.flush with alarms := s.flush.alarms ||| alarm } }.settle
  else s.onPipe f

/-- PROGRAM_FAIL (R411, R425). -/
def execProgramFail (k : Nat) (s : State) : Host.Outcome State Fault Refusal :=
  .next (s.onMedia 0x04#8 (atFlash k (programFail k)))

/-- ERASE_FAIL (R411, R425). -/
def execEraseFail (k pos : Nat) (s : State) : Host.Outcome State Fault Refusal :=
  .next (s.onMedia 0x40#8 (atFlash k (eraseFail k pos)))

/-- The log pages of a batch that ended early are put together, so that they can be programmed (R424). DEDUCED, log 158. -/
def Pipe.forceLog (p : Pipe) (j k : Nat) : Pipe :=
  let (p1, n) := p.pageLog k true
  p1.charge j k 3 n

/-- COMPLETION (R118, R424, R441): the first job of its completion queue. With DIRTY 0 a batch waits for its log pages. -/
def execCompletion (job : Nat) (s : State) : Host.Outcome State Fault Refusal :=
  .next (if s.works then
    match s.pipe.jobs.get? job with
    | none => s
    | some jb =>
      let waits := jb.batch && s.pipe.dirtyMax == 0
        && (s.pipe.flash jb.home).log.any (fun e => e.queue == jb.queue && e.tag == jb.tag && !e.programmed)
      if !s.pipe.firstAt job || s.pipe.fenced jb.home then s
      else if waits then { s with pipe := s.pipe.forceLog job jb.home }
      else s.completeJob job true
  else s)

/-- The WRITE that replicates a log entry (R525): into the ring of REPLSIZE bytes from REPLOFF, starting again at REPLOFF
where it would cross the end. -/
def State.replicate (s : State) (k n : Nat) (e : LogEnt) : State :=
  match s.fab.conns.get? n with
  | none => s
  | some c =>
    let body := e.image
    let bytes := packBytes 16 [(64, e.seq), (32, body.length)] ++ body
    let pos := if c.replPos + bytes.length > c.cfg.replSize then 0 else c.replPos
    let m : PkgMsg :=
      { write := true, final := true, mkind := 0, rkey := c.cfg.replKey, roff := c.cfg.replOff + pos, payload := bytes, act := 7,
        part := k, purpose := .log k e.seq }
    { s with fab := (s.fab.modConn n (fun c => { c with replPos := pos + bytes.length })).queueMsg n m }

/-- INGEST_RECORD (R302 step 1, R477, R525): the next record of a batch enters the log; a replicated one waits there until
its WRITE counts as posted; the others go on at once. -/
def execIngestRecord (job : Nat) (s : State) : Host.Outcome State Fault Refusal :=
  .next (if s.works then
    match s.pipe.jobAt job .records with
    | none => s
    | some jb =>
      match s.pipe.recOf jb.home job with
      | some r =>
        if r.replWait && s.connDead jb.b.rconn then s.onPipe (fun p => p.failRec job stABORTED 1 none)
        else s.onPipe (fun p => (p.afterLog job).chooseFringe job)
      | none =>
        if !s.pipe.mayRecord job jb then s
        else if !jb.b.repl then s.onPipe (fun p => (p.logRecord job jb false).1.afterLog job)
        else if (s.pipe.part jb.home).sched.short s.mer.now 7 then s
        else if s.connDead jb.b.rconn then s.onPipe (fun p => p.failRec job stABORTED 1 none)
        else
          let r := s.pipe.logRecord job jb true
          ({ s with pipe := r.1 }.replicate jb.home jb.b.rconn r.2).settle
  else s)

end Sys2Proof.Machine
end

