-- ==== Sys2Proof/Machine/Dispatch.lean ====
section
/-!
DEFINITION. Sys2Proof/Machine/Dispatch.lean: one arm for each constructor of Instr.
-/
namespace Sys2Proof.Machine

/-- DESIGN CHOICE, log 4. -/
def exec (i : Instr) (s : State) : Host.Outcome State Fault Refusal :=
  match i with
  | .powerOnReset vddAon => Sys2Proof.Machine.execPowerOnReset vddAon s
  | .packageReset => Sys2Proof.Machine.execPackageReset s
  | .rstCtl v => Sys2Proof.Machine.execRstCtl v s
  | .pcieLinkReset => Sys2Proof.Machine.execPcieLinkReset s
  | .functionLevelReset k => Sys2Proof.Machine.execFunctionLevelReset k s
  | .pfFunctionLevelReset => Sys2Proof.Machine.execPfFunctionLevelReset s
  | .vfEnableClear => Sys2Proof.Machine.execVfEnableClear s
  | .bootStart => Sys2Proof.Machine.execBootStart s
  | .norRead present => Sys2Proof.Machine.execNorRead present s
  | .fwStart => Sys2Proof.Machine.execFwStart s
  | .clocks lanes => Sys2Proof.Machine.execClocks lanes s
  | .hbm bad => Sys2Proof.Machine.execHbm bad s
  | .flash bad found => Sys2Proof.Machine.execFlash bad found s
  | .restore => Sys2Proof.Machine.execRestore s
  | .ready => Sys2Proof.Machine.execReady s
  | .trialExpired => Sys2Proof.Machine.execTrialExpired s
  | .activationWindow => Sys2Proof.Machine.execActivationWindow s
  | .activated => Sys2Proof.Machine.execActivated s
  | .watchdogRestart => Sys2Proof.Machine.execWatchdogRestart s
  | .coelRestart => Sys2Proof.Machine.execCoelRestart s
  | .holdup asserted => Sys2Proof.Machine.execHoldup asserted s
  | .flushPartDone k => Sys2Proof.Machine.execFlushPartDone k s
  | .flushRecord => Sys2Proof.Machine.execFlushRecord s
  | .pulseEdge => Sys2Proof.Machine.execPulseEdge s
  | .merClkLoss => Sys2Proof.Machine.execMerClkLoss s
  | .merSyncLoss => Sys2Proof.Machine.execMerSyncLoss s
  | .holdLimit => Sys2Proof.Machine.execHoldLimit s
  | .ptpSync port domain head twoStep seqNo t1 sub => Sys2Proof.Machine.execPtpSync port domain head twoStep seqNo t1 sub s
  | .ptpAnnounce port domain head rank => Sys2Proof.Machine.execPtpAnnounce port domain head rank s
  | .ptpDelayResp port domain head t4 => Sys2Proof.Machine.execPtpDelayResp port domain head t4 s
  | .announceTimeout => Sys2Proof.Machine.execAnnounceTimeout s
  | .watchEnd => Sys2Proof.Machine.execWatchEnd s
  | .transitTakeover => Sys2Proof.Machine.execTransitTakeover s
  | .transitWindow k => Sys2Proof.Machine.execTransitWindow k s
  | .epochPublish => Sys2Proof.Machine.execEpochPublish s
  | .wheelDrain k => Sys2Proof.Machine.execWheelDrain k s
  | .bucketMove k => Sys2Proof.Machine.execBucketMove k s
  | .merNowLo => Sys2Proof.Machine.execMerNowLo s
  | .merPubLo => Sys2Proof.Machine.execMerPubLo s
  | .merStat v => Sys2Proof.Machine.execMerStat v s
  | .merLateCnt => Sys2Proof.Machine.execMerLateCnt s
  | .merSkipCnt => Sys2Proof.Machine.execMerSkipCnt s
  | .fcuStat w v => Sys2Proof.Machine.execFcuStat w v s
  | .nbuUe k hi v => Sys2Proof.Machine.execNbuUe k hi v s
  | .nbuCe k => Sys2Proof.Machine.execNbuCe k s
  | .nbuTrapcnt k => Sys2Proof.Machine.execNbuTrapcnt k s
  | .nbuTrapcause k v => Sys2Proof.Machine.execNbuTrapcause k v s
  | .flsHoldstat v => Sys2Proof.Machine.execFlsHoldstat v s
  | .flsUe k => Sys2Proof.Machine.execFlsUe k s
  | .almDbdrop k => Sys2Proof.Machine.execAlmDbdrop k s
  | .almOrphan k => Sys2Proof.Machine.execAlmOrphan k s
  | .almMiss k => Sys2Proof.Machine.execAlmMiss k s
  | .schFinder k => Sys2Proof.Machine.execSchFinder k s
  | .schForgive k => Sys2Proof.Machine.execSchForgive k s
  | .fabLink n v => Sys2Proof.Machine.execFabLink n v s
  | .bftRnr => Sys2Proof.Machine.execBftRnr s
  | .bftBadpkt => Sys2Proof.Machine.execBftBadpkt s
  | .bftAuthfail => Sys2Proof.Machine.execBftAuthfail s
  | .bftEvdrop => Sys2Proof.Machine.execBftEvdrop s
  | .bftOrphan => Sys2Proof.Machine.execBftOrphan s
  | .bftDbdrop => Sys2Proof.Machine.execBftDbdrop s
  | .coelWdcnt => Sys2Proof.Machine.execCoelWdcnt s
  | .mbxCfg m v => Sys2Proof.Machine.execMbxCfg m v s
  | .mbxDoorbell m v => Sys2Proof.Machine.execMbxDoorbell m v s
  | .mbxStat m v => Sys2Proof.Machine.execMbxStat m v s
  | .almDoorbell k vf nbytes v ringData => Sys2Proof.Machine.execAlmDoorbell k vf nbytes v ringData s
  | .sendRingDoorbell vf nbytes v => Sys2Proof.Machine.execSendRingDoorbell vf nbytes v s
  | .receiveRingDoorbell vf nbytes v => Sys2Proof.Machine.execReceiveRingDoorbell vf nbytes v s
  | .errorRingDoorbell vf nbytes v => Sys2Proof.Machine.execErrorRingDoorbell vf nbytes v s
  | .eventRingDoorbell vf nbytes v => Sys2Proof.Machine.execEventRingDoorbell vf nbytes v s
  | .sbFunc v => Sys2Proof.Machine.execSbFunc v s
  | .sbInertEnd n => Sys2Proof.Machine.execSbInertEnd n s
  | .dbgInject v => Sys2Proof.Machine.execDbgInject v s
  | .registerWrite func off size v => Sys2Proof.Machine.execRegisterWrite func off size v s
  | .tapInstruction ir ext => Sys2Proof.Machine.execTapInstruction ir ext s
  | .thermtrip d t => Sys2Proof.Machine.execThermtrip d t s
  | .throttle d t => Sys2Proof.Machine.execThrottle d t s
  | .throttleStep d t amps => Sys2Proof.Machine.execThrottleStep d t amps s
  | .currentLimit d amps => Sys2Proof.Machine.execCurrentLimit d amps s
  | .hbmTemp k t => Sys2Proof.Machine.execHbmTemp k t s
  | .undervolt rail => Sys2Proof.Machine.execUndervolt rail s
  | .railFault rail => Sys2Proof.Machine.execRailFault rail s
  | .domainPower k => Sys2Proof.Machine.execDomainPower k s
  | .pcieRefclkLoss => Sys2Proof.Machine.execPcieRefclkLoss s
  | .fabRefclkLoss => Sys2Proof.Machine.execFabRefclkLoss s
  | .laneFail l m lane => Sys2Proof.Machine.execLaneFail l m lane s
  | .d2dDown l => Sys2Proof.Machine.execD2dDown l s
  | .marginMeasure kind idx value => Sys2Proof.Machine.execMarginMeasure kind idx value s
  | .safeStateFlashIdle => Sys2Proof.Machine.execSafeStateFlashIdle s
  | .fencePowerOff k => Sys2Proof.Machine.execFencePowerOff k s
  | .fenceCompletions k => Sys2Proof.Machine.execFenceCompletions k s
  | .unfence k => Sys2Proof.Machine.execUnfence k s
  | .entropyReady => Sys2Proof.Machine.execEntropyReady s
  | .entropyFail => Sys2Proof.Machine.execEntropyFail s
  | .mbxRequestTake m slot => Sys2Proof.Machine.execMbxRequestTake m slot s
  | .cmdStart core => Sys2Proof.Machine.execCmdStart core s
  | .deferredStart => Sys2Proof.Machine.execDeferredStart s
  | .dpEnable core host => Sys2Proof.Machine.execDpEnable core host s
  | .pkgStatus core host => Sys2Proof.Machine.execPkgStatus core host s
  | .coreStatus core host => Sys2Proof.Machine.execCoreStatus core host s
  | .cmdResult core host => Sys2Proof.Machine.execCmdResult core host s
  | .merLoadNext core host => Sys2Proof.Machine.execMerLoadNext core host s
  | .merConfig core host => Sys2Proof.Machine.execMerConfig core host s
  | .ptpConfig core host => Sys2Proof.Machine.execPtpConfig core host s
  | .ephWrite core host => Sys2Proof.Machine.execEphWrite core host s
  | .ephRead core host => Sys2Proof.Machine.execEphRead core host s
  | .queCreate core host => Sys2Proof.Machine.execQueCreate core host s
  | .queModify core host => Sys2Proof.Machine.execQueModify core host s
  | .quePause core host => Sys2Proof.Machine.execQuePause core host s
  | .queResume core host => Sys2Proof.Machine.execQueResume core host s
  | .queDestroy core host => Sys2Proof.Machine.execQueDestroy core host s
  | .queReset core host => Sys2Proof.Machine.execQueReset core host s
  | .queRead core host => Sys2Proof.Machine.execQueRead core host s
  | .qryAbort core host => Sys2Proof.Machine.execQryAbort core host s
  | .shpSet core host => Sys2Proof.Machine.execShpSet core host s
  | .shpRead core host => Sys2Proof.Machine.execShpRead core host s
  | .trnWrite core host => Sys2Proof.Machine.execTrnWrite core host s
  | .trnRead core host => Sys2Proof.Machine.execTrnRead core host s
  | .budSet core host => Sys2Proof.Machine.execBudSet core host s
  | .budRead core host => Sys2Proof.Machine.execBudRead core host s
  | .idxLoad core host => Sys2Proof.Machine.execIdxLoad core host s
  | .idxUnload core host => Sys2Proof.Machine.execIdxUnload core host s
  | .idxTier core host => Sys2Proof.Machine.execIdxTier core host s
  | .idxCompact core host => Sys2Proof.Machine.execIdxCompact core host s
  | .epochRetain core host => Sys2Proof.Machine.execEpochRetain core host s
  | .ckptConfig core host => Sys2Proof.Machine.execCkptConfig core host s
  | .fltLoad core host => Sys2Proof.Machine.execFltLoad core host s
  | .fltDrop core host => Sys2Proof.Machine.execFltDrop core host s
  | .fltEdit core host => Sys2Proof.Machine.execFltEdit core host s
  | .etabLoad core host => Sys2Proof.Machine.execEtabLoad core host s
  | .poolConfig core host => Sys2Proof.Machine.execPoolConfig core host s
  | .krnLoad core host => Sys2Proof.Machine.execKrnLoad core host s
  | .nbuLoad core host => Sys2Proof.Machine.execNbuLoad core host s
  | .rnetLoad core host => Sys2Proof.Machine.execRnetLoad core host s
  | .iasAlloc core host => Sys2Proof.Machine.execIasAlloc core host s
  | .iasFree core host => Sys2Proof.Machine.execIasFree core host s
  | .iasWrite core host => Sys2Proof.Machine.execIasWrite core host s
  | .iasRead core host => Sys2Proof.Machine.execIasRead core host s
  | .iasAttr core host => Sys2Proof.Machine.execIasAttr core host s
  | .tierConfig core host => Sys2Proof.Machine.execTierConfig core host s
  | .tierStatus core host => Sys2Proof.Machine.execTierStatus core host s
  | .flsConfig core host => Sys2Proof.Machine.execFlsConfig core host s
  | .flsStatus core host => Sys2Proof.Machine.execFlsStatus core host s
  | .fabPortConfig core host => Sys2Proof.Machine.execFabPortConfig core host s
  | .fabStatus core host => Sys2Proof.Machine.execFabStatus core host s
  | .bftPdCreate core host => Sys2Proof.Machine.execBftPdCreate core host s
  | .bftPdDestroy core host => Sys2Proof.Machine.execBftPdDestroy core host s
  | .bftRegCreate core host => Sys2Proof.Machine.execBftRegCreate core host s
  | .bftRegDestroy core host => Sys2Proof.Machine.execBftRegDestroy core host s
  | .bftRrCreate core host => Sys2Proof.Machine.execBftRrCreate core host s
  | .bftRrDestroy core host => Sys2Proof.Machine.execBftRrDestroy core host s
  | .bftConnCreate core host => Sys2Proof.Machine.execBftConnCreate core host s
  | .bftConnReset core host => Sys2Proof.Machine.execBftConnReset core host s
  | .bftKeyLoad core host => Sys2Proof.Machine.execBftKeyLoad core host s
  | .bftKeyAgreeGenerate core host => Sys2Proof.Machine.execBftKeyAgreeGenerate core host s
  | .bftKeyAgreeComplete core host => Sys2Proof.Machine.execBftKeyAgreeComplete core host s
  | .partFence core host => Sys2Proof.Machine.execPartFence core host s
  | .partUnfence core host => Sys2Proof.Machine.execPartUnfence core host s
  | .fcuReact core host => Sys2Proof.Machine.execFcuReact core host s
  | .marginRead core host => Sys2Proof.Machine.execMarginRead core host s
  | .fwChunk core host => Sys2Proof.Machine.execFwChunk core host s
  | .fwVerify core host => Sys2Proof.Machine.execFwVerify core host s
  | .fwActivate core host => Sys2Proof.Machine.execFwActivate core host s
  | .fwConfirm core host => Sys2Proof.Machine.execFwConfirm core host s
  | .fwStatus core host => Sys2Proof.Machine.execFwStatus core host s
  | .fwDiscard core host => Sys2Proof.Machine.execFwDiscard core host s
  | .schedVisit k => Sys2Proof.Machine.execSchedVisit k s
  | .descriptorFetch k q desc data => Sys2Proof.Machine.execDescriptorFetch k q desc data s
  | .ringAccessError k q job => Sys2Proof.Machine.execRingAccessError k q job s
  | .derotator core parity => Sys2Proof.Machine.execDerotator core parity s
  | .poolIssue job => Sys2Proof.Machine.execPoolIssue job s
  | .poolPartial job => Sys2Proof.Machine.execPoolPartial job s
  | .mtile core ctx sd sa => Sys2Proof.Machine.execMtile core ctx sd sa s
  | .mwait core ctx sa => Sys2Proof.Machine.execMwait core ctx sa s
  | .mtest core ctx sd sa => Sys2Proof.Machine.execMtest core ctx sd sa s
  | .mdrain core ctx => Sys2Proof.Machine.execMdrain core ctx s
  | .vsel core ctx qs qi target lanes => Sys2Proof.Machine.execVsel core ctx qs qi target lanes s
  | .vfree core ctx => Sys2Proof.Machine.execVfree core ctx s
  | .kend core ctx => Sys2Proof.Machine.execKend core ctx s
  | .coreScalar core ctx op => Sys2Proof.Machine.execCoreScalar core ctx op s
  | .plateAccess core ctx op => Sys2Proof.Machine.execPlateAccess core ctx op s
  | .coreVector core ctx op => Sys2Proof.Machine.execCoreVector core ctx op s
  | .kernelInvoke core => Sys2Proof.Machine.execKernelInvoke core s
  | .limit core ctx => Sys2Proof.Machine.execLimit core ctx s
  | .tilePass core parity => Sys2Proof.Machine.execTilePass core parity s
  | .openReq core n => Sys2Proof.Machine.execOpenReq core n s
  | .closeReq core req => Sys2Proof.Machine.execCloseReq core req s
  | .discard core n => Sys2Proof.Machine.execDiscard core n s
  | .bound core n => Sys2Proof.Machine.execBound core n s
  | .selBlockServed core parity => Sys2Proof.Machine.execSelBlockServed core parity s
  | .nbuRequestTake thr => Sys2Proof.Machine.execNbuRequestTake thr s
  | .scan thr errs => Sys2Proof.Machine.execScan thr errs s
  | .block thr errs => Sys2Proof.Machine.execBlock thr errs s
  | .append thr errs => Sys2Proof.Machine.execAppend thr errs s
  | .stamp thr errs => Sys2Proof.Machine.execStamp thr errs s
  | .pool thr errs => Sys2Proof.Machine.execPool thr errs s
  | .compact thr errs => Sys2Proof.Machine.execCompact thr errs s
  | .bitmap thr errs => Sys2Proof.Machine.execBitmap thr errs s
  | .scrub thr errs => Sys2Proof.Machine.execScrub thr errs s
  | .nop thr => Sys2Proof.Machine.execNop thr s
  | .nbuProgram thr count errs => Sys2Proof.Machine.execNbuProgram thr count errs s
  | .nbuImageSwitch k pc => Sys2Proof.Machine.execNbuImageSwitch k pc s
  | .epochMarker k pc src => Sys2Proof.Machine.execEpochMarker k pc src s
  | .cancel k pc job => Sys2Proof.Machine.execCancel k pc job s
  | .cancelled stop => Sys2Proof.Machine.execCancelled stop s
  | .endMessage core => Sys2Proof.Machine.execEndMessage core s
  | .alu thr fn fa fb fc => Sys2Proof.Machine.execAlu thr fn fa fb fc s
  | .addi thr fa fb imm => Sys2Proof.Machine.execAddi thr fa fb imm s
  | .andi thr fa fb imm => Sys2Proof.Machine.execAndi thr fa fb imm s
  | .ori thr fa fb imm => Sys2Proof.Machine.execOri thr fa fb imm s
  | .xori thr fa fb imm => Sys2Proof.Machine.execXori thr fa fb imm s
  | .shli thr fa fb imm => Sys2Proof.Machine.execShli thr fa fb imm s
  | .shri thr fa fb imm => Sys2Proof.Machine.execShri thr fa fb imm s
  | .srai thr fa fb imm => Sys2Proof.Machine.execSrai thr fa fb imm s
  | .lui thr fa imm => Sys2Proof.Machine.execLui thr fa imm s
  | .ld thr errs fa fb width loc imm => Sys2Proof.Machine.execLd thr errs fa fb width loc imm s
  | .st thr errs fa fb width loc imm => Sys2Proof.Machine.execSt thr errs fa fb width loc imm s
  | .vld thr errs fa fb loc imm => Sys2Proof.Machine.execVld thr errs fa fb loc imm s
  | .vst thr errs fa fb loc imm => Sys2Proof.Machine.execVst thr errs fa fb loc imm s
  | .tld thr errs fa fb loc imm => Sys2Proof.Machine.execTld thr errs fa fb loc imm s
  | .fenceInstr thr => Sys2Proof.Machine.execFenceInstr thr s
  | .beq thr fa fb imm => Sys2Proof.Machine.execBeq thr fa fb imm s
  | .bne thr fa fb imm => Sys2Proof.Machine.execBne thr fa fb imm s
  | .blt thr fa fb imm => Sys2Proof.Machine.execBlt thr fa fb imm s
  | .bge thr fa fb imm => Sys2Proof.Machine.execBge thr fa fb imm s
  | .bltu thr fa fb imm => Sys2Proof.Machine.execBltu thr fa fb imm s
  | .bgeu thr fa fb imm => Sys2Proof.Machine.execBgeu thr fa fb imm s
  | .jal thr fa imm => Sys2Proof.Machine.execJal thr fa imm s
  | .jalr thr fa fb => Sys2Proof.Machine.execJalr thr fa fb s
  | .endProg thr => Sys2Proof.Machine.execEndProg thr s
  | .valu thr fn fa fb fc => Sys2Proof.Machine.execValu thr fn fa fb fc s
  | .vred thr fn fa fb fc => Sys2Proof.Machine.execVred thr fn fa fb fc s
  | .vlut thr fa fb => Sys2Proof.Machine.execVlut thr fa fb s
  | .vmovg thr fn fa fb => Sys2Proof.Machine.execVmovg thr fn fa fb s
  | .pset thr errs fn fa fb fc => Sys2Proof.Machine.execPset thr errs fn fa fb fc s
  | .enext thr errs fn fa fb fc => Sys2Proof.Machine.execEnext thr errs fn fa fb fc s
  | .escore thr errs fn fa fb fc => Sys2Proof.Machine.execEscore thr errs fn fa fb fc s
  | .eacc thr errs fn fa fb fc => Sys2Proof.Machine.execEacc thr errs fn fa fb fc s
  | .epil thr errs fn fa fb fc => Sys2Proof.Machine.execEpil thr errs fn fa fb fc s
  | .efilt thr errs fn fa fb fc => Sys2Proof.Machine.execEfilt thr errs fn fa fb fc s
  | .evis thr errs fn fa fb fc => Sys2Proof.Machine.execEvis thr errs fn fa fb fc s
  | .elast thr errs fn fa fb fc => Sys2Proof.Machine.execElast thr errs fn fa fb fc s
  | .ethr thr errs fn fa fb fc => Sys2Proof.Machine.execEthr thr errs fn fa fb fc s
  | .emit thr errs fn fa fb fc => Sys2Proof.Machine.execEmit thr errs fn fa fb fc s
  | .sttail thr errs fb fc => Sys2Proof.Machine.execSttail thr errs fb fc s
  | .nbuLimit thr => Sys2Proof.Machine.execNbuLimit thr s
  | .walkStart w => Sys2Proof.Machine.execWalkStart w s
  | .walkHop w => Sys2Proof.Machine.execWalkHop w s
  | .walkPageLoad w => Sys2Proof.Machine.execWalkPageLoad w s
  | .completion job => Sys2Proof.Machine.execCompletion job s
  | .ingestRecord job => Sys2Proof.Machine.execIngestRecord job s
  | .dirLock k => Sys2Proof.Machine.execDirLock k s
  | .pieceGrow job => Sys2Proof.Machine.execPieceGrow job s
  | .stampRetry k => Sys2Proof.Machine.execStampRetry k s
  | .pieceCompact k idx cluster piece => Sys2Proof.Machine.execPieceCompact k idx cluster piece s
  | .pieceRetire k => Sys2Proof.Machine.execPieceRetire k s
  | .checkpoint => Sys2Proof.Machine.execCheckpoint s
  | .ckpt => Sys2Proof.Machine.execCkpt s
  | .pageMoveIn k n retries rebuilds lost => Sys2Proof.Machine.execPageMoveIn k n retries rebuilds lost s
  | .writeBack k => Sys2Proof.Machine.execWriteBack k s
  | .spill k pc piece => Sys2Proof.Machine.execSpill k pc piece s
  | .flashReadDone k n retries rebuilds lost => Sys2Proof.Machine.execFlashReadDone k n retries rebuilds lost s
  | .programDone k => Sys2Proof.Machine.execProgramDone k s
  | .programFail k => Sys2Proof.Machine.execProgramFail k s
  | .eraseDone k => Sys2Proof.Machine.execEraseDone k s
  | .eraseFail k pos => Sys2Proof.Machine.execEraseFail k pos s
  | .extentRetire k e => Sys2Proof.Machine.execExtentRetire k e s
  | .extentCompact k src => Sys2Proof.Machine.execExtentCompact k src s
  | .relocation k src target => Sys2Proof.Machine.execRelocation k src target s
  | .scrubPeriod k => Sys2Proof.Machine.execScrubPeriod k s
  | .sendEntry conn entry payload => Sys2Proof.Machine.execSendEntry conn entry payload s
  | .packetSend link => Sys2Proof.Machine.execPacketSend link s
  | .data link frame slots => Sys2Proof.Machine.execData link frame slots s
  | .query link frame slots => Sys2Proof.Machine.execQuery link frame slots s
  | .abortMsg link frame slots => Sys2Proof.Machine.execAbortMsg link frame slots s
  | .abortreply link frame slots => Sys2Proof.Machine.execAbortreply link frame slots s
  | .qctlRead link frame slots => Sys2Proof.Machine.execQctlRead link frame slots s
  | .qctlModify link frame slots => Sys2Proof.Machine.execQctlModify link frame slots s
  | .qctlPause link frame slots => Sys2Proof.Machine.execQctlPause link frame slots s
  | .qctlResume link frame slots => Sys2Proof.Machine.execQctlResume link frame slots s
  | .qctlreply link frame slots => Sys2Proof.Machine.execQctlreply link frame slots s
  | .poolMessage link frame slots => Sys2Proof.Machine.execPoolMessage link frame slots s
  | .poolreply link frame slots => Sys2Proof.Machine.execPoolreply link frame slots s
  | .cqdb link frame slots => Sys2Proof.Machine.execCqdb link frame slots s
  | .write link frame slots => Sys2Proof.Machine.execWrite link frame slots s
  | .writePlace conn => Sys2Proof.Machine.execWritePlace conn s
  | .ack link frame => Sys2Proof.Machine.execAck link frame s
  | .nakSeq link frame => Sys2Proof.Machine.execNakSeq link frame s
  | .nakRnr link frame => Sys2Proof.Machine.execNakRnr link frame s
  | .credit link frame => Sys2Proof.Machine.execCredit link frame s
  | .keepalive link frame => Sys2Proof.Machine.execKeepalive link frame s
  | .errorPacket link frame => Sys2Proof.Machine.execErrorPacket link frame s
  | .arpRequest link frame => Sys2Proof.Machine.execArpRequest link frame s
  | .neighborSolicitation link frame => Sys2Proof.Machine.execNeighborSolicitation link frame s
  | .retransmitTimeout conn => Sys2Proof.Machine.execRetransmitTimeout conn s
  | .ackTimer conn => Sys2Proof.Machine.execAckTimer conn s
  | .gapTimer conn => Sys2Proof.Machine.execGapTimer conn s
  | .creditTimer conn => Sys2Proof.Machine.execCreditTimer conn s
  | .keepaliveTimer conn => Sys2Proof.Machine.execKeepaliveTimer conn s
  | .silent conn => Sys2Proof.Machine.execSilent conn s
  | .rnrDelay conn => Sys2Proof.Machine.execRnrDelay conn s
  | .linkDown n => Sys2Proof.Machine.execLinkDown n s
  | .linkUp n => Sys2Proof.Machine.execLinkUp n s
  | .counterAdvance => Sys2Proof.Machine.execCounterAdvance s
  | .merClkReturn => Sys2Proof.Machine.execMerClkReturn s
  | .pcieRefclkReturn => Sys2Proof.Machine.execPcieRefclkReturn s
  | .pwrGood bad => Sys2Proof.Machine.execPwrGood bad s
  | .pcieLinkTrained => Sys2Proof.Machine.execPcieLinkTrained s
  | .vfEnableSet => Sys2Proof.Machine.execVfEnableSet s
  | .busMasterEnable func bme d3 => Sys2Proof.Machine.execBusMasterEnable func bme d3 s
  | .msixVectorUnmask func vec => Sys2Proof.Machine.execMsixVectorUnmask func vec s
  | .nonBftFrame link frame => Sys2Proof.Machine.execNonBftFrame link frame s
  | .followUp port domain head seqNo t1 => Sys2Proof.Machine.execFollowUp port domain head seqNo t1 s
  | .delayReq sub => Sys2Proof.Machine.execDelayReq sub s
  | .localFault link local_ remote blockLoss => Sys2Proof.Machine.execLocalFault link local_ remote blockLoss s
  | .tapReset => Sys2Proof.Machine.execTapReset s
  | .hbmTempClear k t => Sys2Proof.Machine.execHbmTempClear k t s
  | .pcieFatal => Sys2Proof.Machine.execPcieFatal s

end Sys2Proof.Machine
end

