-- ==== Sys2Proof/Safety.lean ====
section
/-!
DEFINITION. Sys2Proof/Safety.lean: what counts as a safe run of the block: every step answers a next state, and every state
keeps what the spec says always holds of the time base, the mailboxes and the links.
-/
namespace Sys2Proof.Machine

/-- What holds of a state whatever commands it has taken: the counter stays on its grid of 10 ns below its last value (R58),
the pending epoch follows the published one (R81), the servo's run counters, its domain and MER_CFG stay within their fields
(R71, R73, R89), Ephemeris slots are distinct (R79), and there are 17 mailboxes and 12 die-to-die links (R545, R599). -/
abbrev Kept (s : State) : Prop :=
  s.mer.now % 10 = 0 ∧ s.mer.now ≤ merMax ∧ s.mer.pend = s.mer.pub + 1 ∧ s.mer.ptp.good ≤ 16 ∧ s.mer.ptp.bad ≤ 4 ∧
    s.mer.ptp.domain ≤ 127 ∧ s.mer.holdLim < 16384 ∧ s.mer.watchN < 16 ∧ s.mer.nextN.getD 0 < 16 ∧
    s.mer.eph.rising = true ∧ s.mbx.length = 17 ∧ s.d2d.length = 12

/-- The state after n steps, while each answers a next state. -/
def run : Nat → State → Option State
  | 0, s => some s
  | n + 1, s => match step s with
    | .next t => run n t
    | _ => none

/-- A run of n steps is safe when no step stops and the states it reaches keep `Kept`. -/
def SafeRun (n : Nat) (s : State) : Prop := ∀ m, m ≤ n → ∃ t, run m s = some t ∧ Kept t

end Sys2Proof.Machine
end

