-- ==== Sys2Proof/Certificates/Slice0/Obligations.lean ====
section
/-!
DEFINITION. Sys2Proof/Certificates/Slice0/Obligations.lean: the statements about the model, with the few words that they
share.
-/

/-! ## Words -/

namespace Sys2Proof.Claims

open Sys2Proof.Machine

/-- The package works and no effect of an earlier row waits to be performed. -/
abbrev Calm (s : State) : Prop := s.works = true ∧ s.pipe.out = []

/-- The state with another pipeline: every other field is unchanged. -/
def withPipe (s : State) (p : Pipe) : State := { s with pipe := p }

/-- The state with another pipeline, once the effects that it lists (host writes, messages, faults) have been performed. -/
def perform (s : State) (p : Pipe) : State := (withPipe s p).settle

/-- Core k can work: its clock runs and it is not fenced (R38, R134, R168). -/
abbrev CoreOn (s : State) (k : Nat) : Prop :=
  Calm s ∧ s.pwr.coreRuns k = true ∧ k < 16 ∧ s.pipe.fenced k = false

/-- Context x of core k can execute an instruction: it is its turn, and no request that it sent still waits in the network
(R134, R135, R220). -/
abbrev CtxOn (s : State) (k x : Nat) : Prop :=
  CoreOn s k ∧ x < 4096 ∧ (s.pipe.core k).mayIssue x = true ∧ s.pipe.inNet ((s.pipe.core k).ctx x) = false

/-- Context x of core k. The pipeline once it has issued (R135); the package after an instruction of it, with every other
context, core and field unchanged; and the package after an instruction that waits. -/
def ctxOf (s : State) (k x : Nat) : CoreCtx := (s.pipe.core k).ctx x
def ran (p : Pipe) (k x : Nat) : Pipe := p.modCore k (fun y => y.issuedBy x false)
def putCtx (s : State) (k x : Nat) (c : CoreCtx) : State := withPipe s (ran (s.pipe.setCtx k x c) k x)
def waits (s : State) (k x : Nat) : State := withPipe s (s.pipe.modCore k (fun y => y.issuedBy x true))

/-- The state after a vector instruction that used slot n. -/
def putVec (s : State) (k x n : Nat) (v : VSlot) (c : CoreCtx) : State := withPipe s (ran (s.pipe.setVec k x n v c) k x)

/-- The words of an access that meet an error, and whether it is a single-bit one (R139). -/
def metBy (ecc : List (Nat × Bool)) (ws : List Nat) : List (Nat × Bool) :=
  ecc.filterMap (fun e => (ws[e.1]?).map (fun w => (w, e.2)))

/-- No entry of a list precedes the one before it by the key of R260. -/
def KeyOrder : List SelEnt → Prop
  | a :: b :: t => entBefore b a = false ∧ KeyOrder (b :: t)
  | _ => True

/-- Thread thr runs request r of an NBU whose clock runs, no cancel names it, and it has instructions left (R38, R257, R259). -/
abbrev Issues (s : State) (thr : ThrId) (r : NbuReq) : Prop :=
  Calm s ∧ s.pwr.nbuRuns = true ∧ s.pipe.running thr.part thr.pc thr.th (fun _ => true) = some r ∧
    (s.pipe.thread thr.part thr.pc thr.th).cancel = none ∧ (s.pipe.thread thr.part thr.pc thr.th).issued < 4194304

/-- The thread with the instruction counted, and the state after an instruction that touches nothing but its thread. -/
def thrOf (s : State) (thr : ThrId) : Thread :=
  { s.pipe.thread thr.part thr.pc thr.th with issued := (s.pipe.thread thr.part thr.pc thr.th).issued + 1 }
def putThr (s : State) (thr : ThrId) (t : Thread) : State :=
  withPipe s (s.pipe.modThread thr.part thr.pc thr.th (fun _ => t))

/-- Is the program a loaded one (R253); the fetch port that the thread's accesses use (R200, R235, R237); and the package after an
instruction with the outcome o: the port's counts are charged to the request, and its faults are performed. -/
def loadedProg (s : State) (thr : ThrId) : Bool := (s.pipe.thread thr.part thr.pc thr.th).prog.isSome
def portOf (s : State) (thr : ThrId) (errs : RawErrs) : Bank :=
  s.pipe.bankOf thr.part thr.pc errs (if loadedProg s thr then some thr.th else none)
def afterOut (s : State) (thr : ThrId) (r : NbuReq) (o : NOut) : State :=
  perform s (s.pipe.afterInstr thr.part thr.pc thr.th r { o with
    th := { o.th with bytes := o.th.bytes + o.bank.bytes, fetched := o.th.fetched + o.bank.fetched } })

/-- The outcome of an instruction whose fetches a loaded program may not all make: RANGE (R235). -/
def guarded (t : Thread) (o : NOut) : NOut :=
  if o.bank.deny then nTrap { t with scanned := o.th.scanned } { o.bank with deny := false } .range else o

/-- What a kernel that answers its status alone ends with. -/
def endedBy (e : KernelEnd) : Ended :=
  { status := e.status, scanned := e.scanned, tailRead := e.tailRead, bytes := e.bank.bytes }

/-- The scoring environment and the piece context of the thread's entry unit (R234, R245). -/
def euEnv (s : State) (thr : ThrId) (r : NbuReq) : ScoreEnv :=
  scoreEnv (s.pipe.isaEnv thr.part thr.pc thr.th r) (thrOf s thr) r
def euHdr (s : State) (thr : ThrId) : PieceHdr := (thrOf s thr).eu.hdr.getD PieceHdr.none

/-- Core `core` holds command x of opcode op, which has not begun, is served, and passes the tests of R563 with the gate g. -/
abbrev Served (s : State) (core op : Nat) (x : Running) (g : Gate) : Prop :=
  s.coel.running.get? core = some x ∧ x.req.opcode = op ∧ s.serves = true ∧ x.late = false ∧ x.begun = false ∧
    s.gate x.req false g = none

/-- The package after a command whose effect leaves t: the core is free, the response is written, and what follows is done. -/
def answers (t : State) (core : Nat) (x : Running) (a : Answer) : State := ((t.freeCore core).answer x.req a).settle

/-- No partition of a list that is not fenced has MANAGEMENT short (R568). -/
abbrev Ample (s : State) (ps : List Nat) : Prop :=
  ∀ k ∈ ps, s.pipe.fenced k = false → (s.pipe.part k).sched.short s.mer.now 8 = false

/-- The pages of a range that have a tier entry, in order (R364, R369). -/
def pagesNamed (p : Pipe) (x : Nat × Nat) : List PageId := (List.range x.2).filterMap (fun i => p.pageIn (pageStep x.1 i))

/-- What IAS_ALLOC, IAS_FREE and IAS_ATTR do to one page of their range after another (R367, R369, R390): a page that is UNMAPPED is
allocated, and every other one freed or changed; how many were, and whether PLATE found no slot. -/
def allocEach (home attr : Nat) (a : Pipe × Nat × Bool) (pg : PageId) : Pipe × Nat × Bool :=
  if (a.1.tier pg).st = .unmapped then ((a.1.allocPage pg home attr).1, a.2.1 + 1, a.2.2 || (a.1.allocPage pg home attr).2) else a
def freeEach (a : Pipe × Nat) (pg : PageId) : Pipe × Nat :=
  if (a.1.tier pg).st = .unmapped then a else (a.1.freePage pg, a.2 + 1)
def attrEach (clr set : Nat) (p : Pipe) (pg : PageId) : Pipe :=
  if (p.tier pg).st = .unmapped then p else (p.attrPage pg clr set).1.getD p

/-- The entry of a page with PIN and DISCARD cleared and then set (R367). -/
def marked (e : TierEnt) (clr set : Nat) : TierEnt :=
  { e with pin := (e.pin && !attrPin clr) || attrPin set, discard := (e.discard && !attrDiscard clr) || attrDiscard set }

/-- A page can be mapped at once: the table of a GENERAL page holds its frames, and the frame of a bank page is free (R369, R372). -/
def mayMap (p : Pipe) (home : Nat) : PageId → Prop
  | .gen g => 16 ≤ (p.tables.getD (g / 65536) (home, [])).2.length
  | .bank k pc f => f < pcFrames p.variant64 - reservedFrames k ∧ f ∉ p.tableFrames k pc ∧ p.holder k pc f = none

/-- No request that has not ended can touch a page (R376). -/
def untouched (p : Pipe) : PageId → Prop
  | .gen _ => True
  | .bank k pc _ => (p.nbu k pc).queue = [] ∧ (p.nbu k pc).running = [] ∧ ∀ u ∈ p.unissued, ¬(u.1 = k ∧ u.2.1 = pc)

end Sys2Proof.Claims

open Sys2Proof Sys2Proof.Machine Sys2Proof.Claims

/-! ## The queue of commands, decoding and reset -/

/-- A step takes the command at the front of the queue and runs it on the state with the queue's rest. -/
def Obligations.StepRunsFront : Prop :=
  ∀ (c : Instr) (rest : List Instr) (s : State),
    step { s with pending := c :: rest } = exec c { s with pending := rest }

/-- With no command waiting the block idles (the model's choice, log entry 1). The table gives no row any bits, so that no
word spells a command (log entry 2). -/
def Obligations.IdleAndWords : Prop :=
  (∀ s : State, s.pending = [] → step s = .next s) ∧
  (∀ (nbits w : Nat) (s : State), decodeTableWord nbits w = none ∧ s.withFetchWord nbits w = s)

/-- Every command answers a next state: no command ends in a fault or is refused. That a row whose condition does not hold
changes nothing is the model's choice (log entry 3). -/
def Obligations.EveryCommandAnswers : Prop :=
 ∀ (c : Instr) (s : State), ∃ t, exec c s = .next t

/-! ## Search cores: scalar instructions (R136, R137) -/

/-- R136, and the scalar instructions of a context: the result goes to sd, which a write to s0 leaves alone, and the pc
advances or takes the branch; nothing else of the package changes but whose turn it is (R135). A reserved opcode traps in a kernel (R143), and does not
elsewhere. The results of the scalar operations (R137 table) that the spec states: two's complement arithmetic, all ones for
a division by zero, and 1 or 0 for a comparison. The pc counts 8 bytes an instruction, and a reserved opcode outside a kernel
only advances: the model's choices (log entries 32 and 37). -/
def Obligations.CoreScalarResults : Prop :=
  (∀ (s : State) (k x : Nat), CtxOn s k x →
     let c := ctxOf s k x
     (∀ f sd sa sb, exec (.coreScalar k x (.alu f sd sa sb)) s =
         .next (putCtx s k x (c.setReg sd (scalarEval f (c.reg sa) (c.reg sb))).next)) ∧
     (∀ f sd sa imm, exec (.coreScalar k x (.aluImm f sd sa imm)) s =
         .next (putCtx s k x (c.setReg sd (scalarEval f (c.reg sa) (BitVec.ofInt 64 imm))).next)) ∧
     (∀ f sa sb target, branchHolds f (c.reg sa) (c.reg sb) = true →
         exec (.coreScalar k x (.branch f sa sb target)) s = .next (putCtx s k x { c with pc := target })) ∧
     (∀ f sa sb target, branchHolds f (c.reg sa) (c.reg sb) = false →
         exec (.coreScalar k x (.branch f sa sb target)) s = .next (putCtx s k x c.next)) ∧
     (∀ f sa sb, exec (.coreScalar k x (.alu f 0 sa sb)) s = .next (putCtx s k x c.next)) ∧
     ((s.pipe.core k).inKernel x = false → exec (.coreScalar k x .reserved) s = .next (putCtx s k x c.next)) ∧
     ((s.pipe.core k).inKernel x = true → exec (.coreScalar k x .reserved) s = .next (perform s (s.pipe.kernelTrap k)))) ∧
  (∀ a b : W64,
     scalarEval .add a b = a + b ∧ scalarEval .sub a b = a - b ∧ scalarEval .mul a b = a * b ∧
     (b ≠ 0 → scalarEval .divU a b = BitVec.ofNat 64 (a.toNat / b.toNat)) ∧
     scalarEval .divU a 0 = BitVec.allOnes 64 ∧ scalarEval .divS a 0 = BitVec.allOnes 64 ∧
     scalarEval .and a b = a &&& b ∧ scalarEval .or a b = a ||| b ∧ scalarEval .xor a b = a ^^^ b ∧
     (b.toNat < 64 → scalarEval .shl a b = a <<< b.toNat ∧ scalarEval .shr a b = a >>> b.toNat
       ∧ scalarEval .sar a b = a.sshiftRight b.toNat) ∧
     scalarEval .cmpEq a b = (if a = b then 1 else 0) ∧
     scalarEval .cmpLt a b = (if a.toInt < b.toInt then 1 else 0) ∧
     scalarEval .cmpLtU a b = (if a.toNat < b.toNat then 1 else 0))

/-- R136: s0 reads 0 and a write to it has no effect; s1 to s31 hold what is written and read 0 when a context starts. -/
def Obligations.ScalarRegisterZero : Prop :=
  (∀ c : CoreCtx, c.reg 0 = 0) ∧
  (∀ (c : CoreCtx) (v : W64), c.setReg 0 v = c) ∧
  (∀ (c : CoreCtx) (n m : Nat) (v : W64), c.s.length = 32 → 0 < n → n < 32 →
    (c.setReg n v).reg m = if m = n then v else c.reg m) ∧
  (∀ n : Nat, CoreCtx.start.reg n = 0)

/-! ## Search cores: plate accesses, vectors, tiles and kernels (R137 to R143, R153 to R156) -/

/-- PLATE_ACCESS (R138, R139, R143, R264, R265): a load takes the bytes at the effective address, which wraps at 32 MiB, extended
as the instruction says; a store writes the register's low bytes, and in the kernel window does nothing else. A load of STATE
waits while a CLOSE is under way, and a store of a command while four wait. In a kernel an access outside the kernel window, or an
unaligned one of a vector, traps; elsewhere a vector access takes its low 7 address bits as 0 (the model's choice, log entry
40). A word read with a single-bit error is corrected and counted; one with a double-bit error sets the core's memory source (the
value read is then a free one, log entry 176). The pc counts 8 bytes, a wait marks the context alone, and an access that is both
outside the window and unaligned traps once: the model's choices (log entries 32, 3 and 38). -/
def Obligations.PlateAccessResults : Prop :=
  (∀ (s : State) (k x : Nat) (ecc : List (Nat × Bool)), CtxOn s k x →
    let c := ctxOf s k x
    let kern := (s.pipe.core k).inKernel x
    let at_ := fun (sa : Nat) (imm : Int) => (c.reg sa + BitVec.ofInt 64 imm).toNat % 2 ^ 25
    let may := fun (a n : Nat) => kern = true → 0x1400000 ≤ a ∧ a + n ≤ 0x2000000
    let met := fun (a n : Nat) => metBy ecc (plateWords false a n)
    let after := fun (p : Pipe) (a n : Nat) => perform s (ran (p.plateErrors k (met a n)) k x)
    let kept := fun (p : Pipe) (a : Nat) (bs : List Byte) =>
      perform s (ran ((p.plateStore k a bs).plateErrors k (metBy ecc (plateWords true a bs.length))) k x)
    (∀ sd sa imm n, 1 ≤ n → n ≤ 8 → may (at_ sa imm) n →
      let a := at_ sa imm
      let v := s.pipe.plateLoad k a n (met a n)
      (s.pipe.loadWaits k a n = false →
        exec (.plateAccess k x ⟨.load sd sa imm n false, ecc⟩) s =
          .next (after (s.pipe.setCtx k x (c.setReg sd (BitVec.ofNat 64 v)).next) a n) ∧
        exec (.plateAccess k x ⟨.load sd sa imm n true, ecc⟩) s =
          .next (after (s.pipe.setCtx k x (c.setReg sd (BitVec.ofInt 64 (signed (8 * n) v))).next) a n)) ∧
      (s.pipe.loadWaits k a n = true → ∀ sx, exec (.plateAccess k x ⟨.load sd sa imm n sx, ecc⟩) s = .next (waits s k x)) ∧
      ∀ ss, let bs := leBytes n (c.reg ss).toNat
        (s.pipe.storeWaits k a bs = false →
          exec (.plateAccess k x ⟨.store ss sa imm n, ecc⟩) s = .next (kept (s.pipe.setCtx k x c.next) a bs)) ∧
        (s.pipe.storeWaits k a bs = true → exec (.plateAccess k x ⟨.store ss sa imm n, ecc⟩) s = .next (waits s k x))) ∧
    (∀ q sa imm n v, (s.pipe.core k).acquire x = some (n, v) → may (at_ sa imm) 128 → (kern = true → at_ sa imm % 128 = 0) →
      let a := at_ sa imm / 128 * 128
      let bs := leBytes 128 (v.reg q).toNat
      (s.pipe.loadWaits k a 128 = false → exec (.plateAccess k x ⟨.vload q sa imm, ecc⟩) s =
        .next (after (s.pipe.setVec k x n
          { v with q := setNth v.q q (BitVec.ofNat 1024 (s.pipe.plateLoad k a 128 (met a 128))) } c.next) a 128)) ∧
      (s.pipe.storeWaits k a bs = false → exec (.plateAccess k x ⟨.vstore q sa imm, ecc⟩) s =
        .next (kept (s.pipe.setVec k x n v c.next) a bs))) ∧
    (∀ op, kern = true → (inWindow (plateRange op c).1 (plateRange op c).2 = false ∨
        (plateVector op = true ∧ (plateRange op c).1 % 128 ≠ 0)) →
      exec (.plateAccess k x ⟨op, ecc⟩) s = .next (perform s (s.pipe.kernelTrap k)))) ∧
  (∀ (p : Pipe) (k a n : Nat) (bs : List Byte) (es : List (Nat × Bool)),
    (0x1400000 ≤ a → a + bs.length ≤ 0x2000000 →
      p.plateStore k a bs = p.plateWrite k a bs ∧ p.storeWaits k a bs = false) ∧
    (0x1400000 ≤ a → a + n ≤ 0x2000000 → p.loadWaits k a n = false) ∧
    ((∀ e ∈ es, e.2 = true) → p.plateLoad k a n es = leNat (p.plateRead k a n) ∧
      p.plateErrors k es = p.modCore k (fun c => { c with corrected := c.corrected + es.length })) ∧
    ((∃ e ∈ es, e.2 = false) → PipeOut.fault (16 * k + 1) ∈ (p.plateErrors k es).out))

/-- CORE_VECTOR and VFREE: the operation's result goes to its destination in the context's slot, or to a scalar register for
a reduction; a context that finds every slot held waits; VFREE gives the slot back. That a waiting instruction only
marks its context is the model's choice (log entry 3); the lanes that the spec leaves open are free values (log entries 28 and
30). -/
def Obligations.CoreVectorResults : Prop :=
  ∀ (s : State) (k x : Nat), CtxOn s k x →
    let c := ctxOf s k x
    (∀ n v, (s.pipe.core k).acquire x = some (n, v) →
      (∀ f fmt qd qa qb qc, fmt ≤ 6 → exec (.coreVector k x (.elem f fmt qd qa qb qc)) s =
        .next (putVec s k x n { v with q := setNth v.q qd (ofLanes fmt (List.zipWith (fun (y : Nat × Nat) z =>
          vecLane f fmt y.1 y.2 z) (List.zip (lanesOf fmt (v.reg qa)) (lanesOf fmt (v.reg qb))) (lanesOf fmt (v.reg qc)))) }
          c.next)) ∧
      (∀ f fmt sd qa, fmt ≤ 6 → exec (.coreVector k x (.reduce f fmt sd qa)) s =
        .next (putVec s k x n v (c.setReg sd (redEval f fmt (v.reg qa))).next)) ∧
      (∀ op, vecValid op = true → exec (.coreVector k x op) s =
        .next (putVec s k x n (runVecOp op v c).1 (runVecOp op v c).2))) ∧
    (∀ op, (s.pipe.core k).acquire x = none → vecValid op = true → exec (.coreVector k x op) s = .next (waits s k x)) ∧
    exec (.vfree k x) s = .next (withPipe s (ran ((s.pipe.setCtx k x c.next).modCore k (fun y =>
      { y with vslots := y.vslots.filter (fun v => v.2.ctx != x) })) k x))

/-- MWAIT, MTEST and MDRAIN (R153, R154): a handle reads as complete when no tile of the queue carries it; MWAIT and MDRAIN
go on only then, and MTEST writes 1 or 0. MTILE (R153 to R156): the tile that the descriptor names joins the queue under the
class of its job, its handle goes to sd, and the next handle follows; with 64 tiles in the queue MTILE waits (R154). In a
kernel the descriptor and the areas that the tile names lie in the kernel window, or the kernel traps (R143). An uncorrectable
unit among the index rows that the tile reads ends the query (R212).
Waits only mark their context, the class of a tile is the model's reading, and the pc counts 8 bytes (log entries 3, 35 and 32). -/
def Obligations.TileInstructions : Prop :=
  (∀ (s : State) (k x : Nat), CtxOn s k x →
     let c := ctxOf s k x
     let ended := fun (h : Nat) => ∀ t ∈ (s.pipe.core k).tiles, t.handle ≠ h
     (∀ sa, ended ((c.reg sa).toNat % 65536) → exec (.mwait k x sa) s = .next (putCtx s k x c.next)) ∧
     (∀ sa, ¬ ended ((c.reg sa).toNat % 65536) → exec (.mwait k x sa) s = .next (waits s k x)) ∧
     (∀ sd sa, ended ((c.reg sa).toNat % 65536) →
       exec (.mtest k x sd sa) s = .next (putCtx s k x (c.setReg sd 1).next)) ∧
     (∀ sd sa, ¬ ended ((c.reg sa).toNat % 65536) →
       exec (.mtest k x sd sa) s = .next (putCtx s k x (c.setReg sd 0).next)) ∧
     ((∀ h ∈ c.issued, ended h) → exec (.mdrain k x) s = .next (putCtx s k x { c.next with issued := [] })) ∧
     ((∃ h ∈ c.issued, ¬ ended h) → exec (.mdrain k x) s = .next (waits s k x))) ∧
  (∀ (s : State) (k x sd sa : Nat), CtxOn s k x →
     let c := ctxOf s k x
     let a := (c.reg sa).toNat / 64 * 64 % 2 ^ 25
     let d := decodeTile (s.pipe.plateRead k a 64)
     let h := (s.pipe.core k).nextHandle
     let inside := ∀ r ∈ (a, 64) :: d.areas, 0x1400000 ≤ r.1 ∧ r.1 + r.2 ≤ 0x2000000
     let inv := if (s.pipe.core k).inKernel x then (s.pipe.core k).inv else none
     let cls := match s.pipe.jobs.get? (match inv with | some v => v.job | none => 0) with | some jb => jb.cls 1 | none => 1
     let tile := s.pipe.tileOf k d cls (match inv with | some v => [v.job] | none => []) (inv.map (·.ords))
     ((s.pipe.core k).inKernel x = true → ¬inside → exec (.mtile k x sd sa) s = .next (perform s (s.pipe.kernelTrap k))) ∧
     (((s.pipe.core k).inKernel x = true → inside) →
       ((s.pipe.core k).tiles.length < 64 → (∀ r ∈ d.reads, s.pipe.iasReady r.1 r.2 = true) →
         let u := s.pipe.readUnits ((d.reads.flatMap (fun r => s.pipe.iasUnits r.1 r.2)).eraseDups)
         let q := (u.1.addTile k tile).setCtx k x
           { c.setReg sd (BitVec.ofNat 64 h) with pc := c.pc + 8, issued := c.issued ++ [h] }
         (u.2 = none → exec (.mtile k x sd sa) s = .next (perform s (ran q k x))) ∧
         (u.2 ≠ none → exec (.mtile k x sd sa) s = .next (perform s (ran (q.endJob
           (match inv with | some v => v.job | none => 0) stABORTED (some k)) k x)))) ∧
       (64 ≤ (s.pipe.core k).tiles.length → exec (.mtile k x sd sa) s = .next (waits s k x))))

/-- KERNEL_INVOKE, KEND and LIMIT (R141 to R143): the next invocation starts with the registers of the entry table; KEND ends
it and frees its context and slot; outside a kernel KEND only advances; LIMIT traps: the invocation ends, the core counts it
and the query ends with ABORTED at RERANK. VSEL (R137, R142): the first lanes of the score register, with the ids of the
other, go to the selection request that the scalar register names; from a kernel to a request of the query's, an id names a
candidate by its place. While the unit has no room for the block it waits. The other hand-off (R137, R214, R220) sends the NBU
request whose descriptor lies in plate memory, with the operand after it, to the pseudo-channel that the second register names. The
start of the program at its slot, KEND outside a kernel, the waits and where a hand-off finds its request are the model's readings
and choices (log entries 33, 36, 3 and 173). -/
def Obligations.KernelRuns : Prop :=
  (∀ (s : State) (k x : Nat), CtxOn s k x →
     let c := s.pipe.core k
     (c.inKernel x = true → exec (.kend k x) s = .next (withPipe s (ran (s.pipe.modCore k (fun y =>
       { y with inv := none, ctxs := y.ctxs.erase x, vslots := y.vslots.filter (fun v => v.2.ctx != x) })) k x))) ∧
     (c.inKernel x = false → exec (.kend k x) s = .next (putCtx s k x (ctxOf s k x).next))) ∧
  (∀ (s : State) (k x : Nat), CoreOn s k → x < 4096 →
     let c := s.pipe.core k
     let walks := (s.pipe.walks.filter (fun v => v.2.core == k && v.2.started)).length
     (∀ v, c.inv = some v → v.ctx = x → exec (.limit k x) s = .next (perform s ((s.pipe.modCore k (fun y =>
         { y.endKernel x with kernelTraps := y.kernelTraps + 1 })).endJobAt v.job stABORTED 7 (some k)))) ∧
     (∀ v rest jb ix f, c.inv = none → c.invWait = v :: rest → c.ctxs.freeKey (4096 - walks) = some x →
       s.pipe.jobs.get? v.job = some jb → s.pipe.idxOf jb = some ix → jb.forms = some f →
       ∃ t, exec (.kernelInvoke k) s = .next t ∧ t = withPipe s t.pipe ∧
         (t.pipe.core k).inv = some { v with ctx := x } ∧ (t.pipe.core k).invWait = rest ∧
         (let e := ctxOf t k x
          e.pc = 0xC0000 + 0x4000 * v.slot ∧ e.reg 1 = 0x1400000 ∧ e.reg 2 = 0x1600000 ∧
          e.reg 3 = BitVec.ofNat 64 v.ords.length ∧ e.reg 5 = BitVec.ofNat 64 v.selreq ∧
          e.reg 7 = BitVec.ofNat 64 ix.desc.dim))) ∧
  (∀ (s : State) (k x qs qi sa lanes n : Nat) (v : VSlot), CtxOn s k x → (s.pipe.core k).acquire x = some (n, v) →
     let c := ctxOf s k x
     let dst := (c.reg sa).toNat % 4096
     let pairs := (List.zip (lanesOf 6 (v.reg qs)) (lanesOf 6 (v.reg qi))).take lanes
     let sent := fun (job : Nat) (es : List (W32 × Nat × Nat)) =>
       withPipe s (ran ((s.pipe.setVec k x n v c.next).deliver k dst .vsel job es) k x)
     ((s.pipe.core k).blocks.length < 256 → (s.pipe.core k).inKernel x = false → exec (.vsel k x qs qi (.sel sa) lanes) s =
       .next (sent 0 (pairs.map (fun e => (BitVec.ofNat 32 e.1, 0, e.2))))) ∧
     (∀ i, (s.pipe.core k).blocks.length < 256 → (s.pipe.core k).inv = some i → i.ctx = x →
       ((s.pipe.core k).stageSel dst = true → exec (.vsel k x qs qi (.sel sa) lanes) s =
         .next (sent i.job (pairs.map (fun e => (BitVec.ofNat 32 e.1, (kernelId i.ords e.2).1, (kernelId i.ords e.2).2))))) ∧
       ((s.pipe.core k).stageSel dst = false → exec (.vsel k x qs qi (.sel sa) lanes) s =
         .next (sent i.job (pairs.map (fun e => (BitVec.ofNat 32 e.1, 0, e.2)))))) ∧
     (256 ≤ (s.pipe.core k).blocks.length → exec (.vsel k x qs qi (.sel sa) lanes) s = .next (waits s k x))) ∧
  (∀ (s : State) (k x qs qi sd sn lanes : Nat), CtxOn s k x →
     let c := ctxOf s k x
     let a := (c.reg sd).toNat % 2 ^ 25
     let b := s.pipe.plateRead k a 64
     let r := { decodeReq b (s.pipe.plateRead k (a + 64) (reqOperand b)) with handOff := true }
     let h := (c.reg sn).toNat / 64 % 16
     let pc := (c.reg sn).toNat % 64
     let p1 := s.pipe.setCtx k x { c.next with sent := some (h, pc, s.pipe.nbuSeq) }
     let inside := 0x1400000 ≤ a ∧ a + (64 + reqOperand b) ≤ 0x2000000
     (((s.pipe.core k).inKernel x = true → inside) →
       (s.pipe.fenced h = false → exec (.vsel k x qs qi (.nbu sd sn) lanes) s = .next (withPipe s (ran (p1.inject h pc r) k x))) ∧
       (s.pipe.fenced h = true → exec (.vsel k x qs qi (.nbu sd sn) lanes) s = .next (withPipe s (ran p1 k x)))) ∧
     ((s.pipe.core k).inKernel x = true → ¬inside →
       exec (.vsel k x qs qi (.nbu sd sn) lanes) s = .next (perform s (s.pipe.kernelTrap k))))

/-- What a row of the pipeline lists is performed before the row ends; a row that lists nothing changes the pipeline alone.
The list of effects is the model's own (log entry 17). -/
def Obligations.EffectsPerformed : Prop :=
  (∀ (s : State) (p : Pipe), p.out = [] → perform s p = withPipe s p) ∧
  (∀ (s : State) (p : Pipe) (f a : Nat) (bs : List Byte) (rlx : Option Bool), s.pwr.perst = false → s.canMaster f = true →
    p.out = [.write f a bs rlx] →
    perform s p = { s with pipe := { p with out := [] }, out := s.out ++ [.write f a bs rlx] }) ∧
  (∀ (s : State) (p : Pipe), (∀ o ∈ p.out, (∃ f a bs rlx, o = .write f a bs rlx) ∨ ∃ f v, o = .msix f v) →
    (perform s p).pipe = { p with out := [] })

/-! ## Selection, tiles and the Derotator (chapters 04, 05 and 08) -/

/-- OPEN, CLOSE, BOUND and DISCARD of a program's request (R265, R268, R272, R273): OPEN reads the record and starts the
request anew, discarding what it held; CLOSE selects and leaves the output, which wraps at 32 MiB (R138), or forwards it; blocks
that have reached the unit before it are taken first, the request CLOSING, and commands then wait behind it; BOUND brings the bound
up to date; DISCARD returns the request to IDLE. SEL_BLOCK_SERVED (R266, R267, R278): the block of the lowest class leaves the
queue and its request takes the entries, mapped where no map has been applied; the last that a CLOSE awaits completes it; an IDLE
request counts them as stray, and one that is over as late. A parity error in either row sets the core's array source and ends the
job. The record is shown in the plate memory at each change, ids map as the entries reach the unit, and rows of a core that is
fenced or has no clock wait without effect: the model's choices (log entries 149, 148 and 3). -/
def Obligations.SelectionRows : Prop :=
  (∀ (s : State) (k n : Nat), CoreOn s k → n < 4096 →
     let c := s.pipe.core k
     let q := if c.sel.has n then s.pipe.dropSel k n else s.pipe
     exec (.openReq k n) s = .next (withPipe s ((q.modCore k (fun y =>
       { y with sel := y.sel.set n (selFromRecord (q.plateRead k (0x1000000 + 64 * n) 24)) })).showSel k n)) ∧
     exec (.discard k n) s = .next (withPipe s (s.pipe.dropSel k n)) ∧
     (∀ r, c.sel.get? n = some r → r.state ≠ .closing →
       exec (.bound k n) s = .next (withPipe s (((s.pipe.modCore k (fun y =>
         { y with sel := y.sel.set n r.makeBound })).keepList k r.makeBound).showSel k n)))) ∧
  (∀ (s : State) (k : Nat) (cl : CloseAt) (r : SelReq), CoreOn s k →
     let q := s.pipe.rawErrors cl.raw
     let n := cl.n
     let w := ((q.core k).blocks.filter (fun b => b.target == n)).length
     let e := { r.close with owed := 0, cmds := 0 }
     let q1 := (q.modCore k (fun y => { y with sel := y.sel.set n e, resident := y.resident.filter (· ≠ n) })).showSel k n
     (q.core k).sel.get? n = some r →
       (cl.parity = true → exec (.closeReq k cl) s =
         .next (perform s (({ q with out := [.fault (16 * k + 2)] } : Pipe).endJob r.job stABORTED (some k)))) ∧
       (cl.parity = false → r.use = .user →
         (r.state = .opened → w = 0 →
           (r.compact = false → r.fwd = false → exec (.closeReq k cl) s =
             .next (withPipe s (q1.plateWrite k e.out (e.result.flatMap selOutBytes)))) ∧
           (r.compact = true → r.fwd = false → exec (.closeReq k cl) s =
             .next (withPipe s (q1.plateWrite k e.list (e.result.flatMap selOutBytes)))) ∧
           (r.fwd = true → exec (.closeReq k cl) s = .next (withPipe s (q1.forward e)))) ∧
         (r.state = .opened → w ≠ 0 → exec (.closeReq k cl) s =
           .next (withPipe s (q.putSel k n { r with state := .closing, owed := w }))) ∧
         (r.state = .closing → exec (.closeReq k cl) s =
           .next (withPipe s (q.putSel k n { r with cmds := min 4 (r.cmds + 1) }))))) ∧
  (∀ (s : State) (k : Nat) (b : SelBlock), CoreOn s k → (s.pipe.core k).nextBlock = some b →
     let p1 := s.pipe.modCore k (fun c => { c with blocks := c.blocks.erase b })
     let stray := p1.modCore k (fun c => { c with stray := c.stray + b.entries.length })
     let parity := fun (j : Nat) => ({ p1 with out := [.fault (16 * k + 2)] } : Pipe).endJob j stABORTED (some k)
     ((s.pipe.core k).sel.get? b.target = none →
       exec (.selBlockServed k false) s = .next (withPipe s stray) ∧
       exec (.selBlockServed k true) s = .next (perform s (parity b.job))) ∧
     (∀ r, (s.pipe.core k).sel.get? b.target = some r →
       let mine := r.use = .user ∨ b.job = r.job ∨ b.job = 0
       let b1 := if r.use = .user ∧ (b.src = .tile ∨ b.src = .vsel) ∧ b.mapped = false
         then { b with entries := b.entries.map (p1.mapId k r) } else b
       let r1 := r.takeBlock b1
       let p2 := (p1.reside k b.target).putSel k b.target { r1 with owed := r1.owed - 1 }
       (¬mine → exec (.selBlockServed k false) s = .next (withPipe s stray)) ∧
       (mine → b.job ≠ 0 → exec (.selBlockServed k true) s = .next (perform s (parity b.job))) ∧
       (¬mine ∨ b.job = 0 → exec (.selBlockServed k true) s = .next (perform s (parity r.job))) ∧
       (mine → r.state = .opened → exec (.selBlockServed k false) s = .next (withPipe s p2)) ∧
       (mine → r.state = .closing → r.owed > 1 → exec (.selBlockServed k false) s = .next (withPipe s p2)) ∧
       (mine → r.state = .closing → r.owed = 1 → exec (.selBlockServed k false) s =
         .next (withPipe s (p2.closeUser k b.target r1))) ∧
       (mine → r.state = .idle ∨ r.state = .done ∨ (r.state = .closing ∧ r.owed = 0) →
         exec (.selBlockServed k false) s = .next (withPipe s ((p1.modCore k (fun c =>
           { c with sel := c.sel.adj b.target (fun r => { r with late := min (r.late + b.entries.length) (2 ^ 32 - 1) }) })).showSel
             k b.target)))))

/-- A selection of at most 256 entries that does not compact keeps its entries in the order of the key and never more than K
of them, whatever entries it takes (R260, R268). -/
def Obligations.SelectionKeepsOrder : Prop :=
  ∀ (r : SelReq) (canon : Bool) (score : W32) (part id : Nat), r.compact = false → r.k ≤ 256 → 1 ≤ r.k →
    r.entries.length ≤ r.k → KeyOrder r.entries →
    let t := r.takeEntry canon score part id
    t.k = r.k ∧ t.entries.length ≤ r.k ∧ KeyOrder t.entries ∧
    (∀ e ∈ t.entries, e ∈ r.entries ∨ (e.part = part ∧ e.id = id))

/-- TILE_PASS and DEROTATOR (R151, R159 to R162, R169, R179, R180): the last pass of a tile whose outputs go to selection
charges its cycles, delivers its rows (those of a job that has left it count as stray) and takes the tile
from the queue; a parity error ends the jobs concerned and sets the
array source of the core. The Derotator takes the first vector of the first group; an ingest vector goes on to its record. -/
def Obligations.ArrayRows : Prop :=
  ∀ (s : State) (k : Nat), CoreOn s k →
    (∀ t, (s.pipe.core k).coarse = [] → (s.pipe.core k).blocks.length < 256 → (s.pipe.core k).nextTile = some t →
      (t.out = none → t.use = .plain → t.sel ≠ [] → t.next + 1 ≥ t.passes →
        let cells := (t.passCells t.next).map (fun c => (c.1, c.2, (t.output c.1 c.2).1, (t.output c.1 c.2).2))
        exec (.tilePass k false) s = .next (perform s (((cells.map (fun c => c.1)).eraseDups.foldl (fun (p : Pipe) i =>
          let es := t.rowEntries ((s.pipe.core k).stageSel (t.sel.getD i 0)) cells i
          let j := t.jobs.getD i (t.jobs.headD 0)
          if j = 0 ∧ t.jobs ≠ [] then p.modCore k (fun c => { c with stray := c.stray + es.length })
          else p.deliver k (t.sel.getD i 0) .tile j es) (s.pipe.chargePass k t)).modCore k (fun c =>
              { c with tiles := c.tiles.filter (fun x => x.handle != t.handle) })))) ∧
      (let p1 := ((t.jobs.filter (· ≠ 0)).eraseDups).foldl (fun p j => p.endJob j stABORTED (some k)) s.pipe
       exec (.tilePass k true) s = .next (perform s { p1.modCore k (fun c =>
        { c with tiles := c.tiles.filter (fun x => x.handle != t.handle) }) with out := p1.out ++ [.fault (16 * k + 2)] }))) ∧
    (∀ w, [0, 1, 2].findSome? (fun g => (s.pipe.core k).derot.find? (fun w => w.group == g)) = some w →
      let p1 := s.pipe.modCore k (fun c => { c with derot := c.derot.erase w })
      (w.group = 2 → exec (.derotator k false) s = .next (perform s (p1.derotIngest w.job))) ∧
      (w.group ≠ 2 → (p1.derotQuery w.job).jobAt w.job .derot = none →
        exec (.derotator k false) s = .next (perform s (p1.derotQuery w.job))) ∧
      exec (.derotator k true) s =
        .next (perform s (({ p1 with out := [.fault (16 * k + 2)] } : Pipe).endJob w.job stABORTED (some k))))

/-! ## Instructions of the near-bank units (chapter 07) -/

/-- The scalar instructions (R238 to R240): the result goes to ga, where g0 takes none, and the pc moves on by 4, or to the
target of a branch or jump that is relative to its own address; nothing but the thread changes. The integer functions of ALU
(R240 table) as numbers. -/
def Obligations.NbuScalarResults : Prop :=
  (∀ (s : State) (thr : ThrId) (r : NbuReq), Issues s thr r →
     let t := thrOf s thr
     let imm := fun (x : Int) => (BitVec.ofInt 64 x : W64)
     let go := fun (fa : Nat) (x : W64) => putThr s thr (t.gw fa x).adv
     let jump := fun (t : Thread) (x : Int) => putThr s thr { t with pc := (((thrOf s thr).pc : Int) + 4 * x).toNat % 2 ^ 32 }
     (∀ fn fa fb fc x, aluFn fn (t.gr fb) (t.gr fc) = some x → exec (.alu thr fn fa fb fc) s = .next (go fa x)) ∧
     (∀ fa fb i,
       exec (.addi thr fa fb i) s = .next (go fa (t.gr fb + imm i)) ∧ exec (.andi thr fa fb i) s = .next (go fa (t.gr fb &&& imm i)) ∧
       exec (.ori thr fa fb i) s = .next (go fa (t.gr fb ||| imm i)) ∧ exec (.xori thr fa fb i) s = .next (go fa (t.gr fb ^^^ imm i)) ∧
       exec (.shli thr fa fb i) s = .next (go fa (t.gr fb <<< ((imm i).toNat % 64))) ∧
       exec (.shri thr fa fb i) s = .next (go fa (t.gr fb >>> ((imm i).toNat % 64))) ∧
       exec (.srai thr fa fb i) s = .next (go fa ((t.gr fb).sshiftRight ((imm i).toNat % 64))) ∧
       exec (.lui thr fa i) s = .next (go fa (imm i <<< 17)) ∧
       exec (.fenceInstr thr) s = .next (putThr s thr t.adv)) ∧
     (∀ fa fb i, 0 ≤ (t.pc : Int) + 4 * i →
       exec (.beq thr fa fb i) s = .next (if t.gr fa = t.gr fb then jump t i else putThr s thr t.adv) ∧
       exec (.bne thr fa fb i) s = .next (if t.gr fa ≠ t.gr fb then jump t i else putThr s thr t.adv) ∧
       exec (.blt thr fa fb i) s = .next (if (t.gr fa).toInt < (t.gr fb).toInt then jump t i else putThr s thr t.adv) ∧
       exec (.bge thr fa fb i) s = .next (if (t.gr fb).toInt ≤ (t.gr fa).toInt then jump t i else putThr s thr t.adv) ∧
       exec (.bltu thr fa fb i) s = .next (if (t.gr fa).toNat < (t.gr fb).toNat then jump t i else putThr s thr t.adv) ∧
       exec (.bgeu thr fa fb i) s = .next (if (t.gr fb).toNat ≤ (t.gr fa).toNat then jump t i else putThr s thr t.adv) ∧
       exec (.jal thr fa i) s = .next (jump (t.gw fa (BitVec.ofNat 64 (t.pc + 4))) i)) ∧
     (∀ fa fb, exec (.jalr thr fa fb) s =
       .next (putThr s thr { t.gw fa (BitVec.ofNat 64 (t.pc + 4)) with pc := (t.gr fb).toNat }))) ∧
  (∀ a b : W64,
     aluFn 0x00 a b = some (a + b) ∧ aluFn 0x01 a b = some (a - b) ∧ aluFn 0x02 a b = some (a &&& b) ∧
     aluFn 0x03 a b = some (a ||| b) ∧ aluFn 0x04 a b = some (a ^^^ b) ∧
     aluFn 0x05 a b = some (BitVec.ofNat 64 (a.toNat * 2 ^ (b.toNat % 64))) ∧
     aluFn 0x06 a b = some (BitVec.ofNat 64 (a.toNat / 2 ^ (b.toNat % 64))) ∧
     aluFn 0x07 a b = some (BitVec.ofInt 64 (a.toInt / 2 ^ (b.toNat % 64))) ∧
     aluFn 0x08 a b = some (BitVec.ofNat 64 (a.toNat * b.toNat)) ∧
     aluFn 0x09 a b = some (if a.toInt < b.toInt then 1 else 0) ∧ aluFn 0x0A a b = some (if a.toNat < b.toNat then 1 else 0) ∧
     aluFn 0x0B a b = some (BitVec.ofInt 64 (min a.toInt b.toInt)) ∧ aluFn 0x0C a b = some (BitVec.ofInt 64 (max a.toInt b.toInt)) ∧
     aluFn 0x0D a b = some (BitVec.ofNat 64 (min a.toNat b.toNat)) ∧ aluFn 0x0E a b = some (BitVec.ofNat 64 (max a.toNat b.toNat)) ∧
     (∀ fn, 0x17 ≤ fn → aluFn fn a b = none))

/-- R231: each thread of an NBU has its own pc, registers and entry unit: what changes one thread leaves the others as they
are. g0 reads 0 and a write to it has no effect; the other registers hold what is written. -/
def Obligations.NbuRegisterZero : Prop :=
  (∀ t : Thread, t.gr 0 = 0) ∧ (∀ (t : Thread) (v : W64), t.gw 0 v = t) ∧
  (∀ (t : Thread) (n m : Nat) (v : W64), t.g.length = 16 → 0 < n → n < 16 → m < 16 →
    (t.gw n v).gr m = if m = n then v else t.gr m) ∧
  (∀ (t : Thread) (n m : Nat) (v : BitVec 512), t.v.length = 8 → n < 8 → m < 8 →
    (t.vw n v).vr m = if m = n then v else t.vr m) ∧
  (∀ (p : Pipe) (k pc th other : Nat) (f : Thread → Thread), other ≠ th →
    (p.modThread k pc th f).thread k pc other = p.thread k pc other)

/-- The vector instructions (R238, R241 to R243): VALU, VRED, VLUT and the three directions of VMOVG. -/
def Obligations.NbuVectorResults : Prop :=
  ∀ (s : State) (thr : ThrId) (r : NbuReq), Issues s thr r →
    let t := thrOf s thr
    (∀ fn fa fb fc x, valuFn fn (t.vr fb) (t.vr fc) = some x →
      exec (.valu thr fn fa fb fc) s = .next (putThr s thr (t.vw fa x).adv)) ∧
    (∀ fn fa fb fc x, vredFn fn (t.vr fb) (t.vr fc) = some x →
      exec (.vred thr fn fa fb fc) s = .next (putThr s thr (t.gw fa (BitVec.ofInt 64 x)).adv)) ∧
    (∀ fa fb errs, errs.parity = false → exec (.vlut ⟨thr, errs⟩ fa fb) s = .next (putThr s thr (t.gw fa (BitVec.ofNat 64
      (((List.range 64).map (fun i => (t.tabs.read (256 * i + (vlane (t.vr fb) i).toNat)).toNat)).foldl (· + ·) 0))).adv)) ∧
    (∀ fn fa fb, fn < 8 →
      exec (.vmovg thr fn fa fb) s = .next (putThr s thr (t.gw fa ((t.vr fb >>> (64 * fn)).setWidth 64)).adv) ∧
      exec (.vmovg thr (fn + 8) fa fb) s = .next (putThr s thr (t.vw fa (vpack (overlay (vbytes (t.vr fa)) (8 * fn)
        (leBytes 8 (t.gr fb).toNat)))).adv)) ∧
    (∀ fa fb, exec (.vmovg thr 16 fa fb) s = .next (putThr s thr (t.vw fa (vpack ((List.replicate 8
      (leBytes 8 (t.gr fb).toNat)).flatten))).adv))

/-- Loads and stores of a loaded program in its scratch area (R235, R241): the bytes at an aligned address within 16 KiB;
nothing but the thread changes. Loads and stores of a loaded program in its pseudo-channel (R235): they go through the fetch
port, in the index data region for a read and in the thread area for either. A parity error of the scratch area or of the lookup
tables ends the request with UE, and sets the pseudo-channel's bit and the fault source (R237). -/
def Obligations.NbuMemoryAccess : Prop :=
  (∀ (s : State) (thr : ThrId) (r : NbuReq) (errs : RawErrs) (fa fb : Nat) (i : Int), Issues s thr r →
     let t := thrOf s thr
     let a := (t.gr fb + BitVec.ofInt 64 i).toNat
     let v := (t.gr fb + BitVec.ofInt 64 (64 * i)).toNat
     loadedProg s thr = true → errs.parity = false →
     (∀ w, w ∈ [1, 2, 4, 8] → a + w ≤ 0x4000 → a % w = 0 →
       exec (.ld thr errs fa fb w false i) s = .next (putThr s thr (t.gw fa (BitVec.ofNat 64 (leNat (t.scr a w)))).adv) ∧
       exec (.st thr errs fa fb w false i) s =
         .next (putThr s thr { t with scratch := t.scratch.writeN a (leBytes w (t.gr fa).toNat) }.adv)) ∧
     (v + 64 ≤ 0x4000 → v % 64 = 0 →
       exec (.vld thr errs fa fb false i) s = .next (putThr s thr (t.vw fa (vpack (t.scr v 64))).adv) ∧
       exec (.vst thr errs fa fb false i) s =
         .next (putThr s thr { t with scratch := t.scratch.writeN v (vbytes (t.vr fa)) }.adv)) ∧
     (v + 4096 ≤ 0x4000 → v % 64 = 0 →
       exec (.tld thr errs fa fb false i) s =
         .next (putThr s thr { t with tabs := t.tabs.writeN (4096 * (fa % 4)) (t.scr v 4096) }.adv))) ∧
  (∀ (s : State) (thr : ThrId) (r : NbuReq) (errs : RawErrs) (fa fb w : Nat) (i : Int), Issues s thr r →
     let t := thrOf s thr
     let b := portOf s thr errs
     let a := (t.gr fb + BitVec.ofInt 64 i).toNat
     let v := (t.gr fb + BitVec.ofInt 64 (64 * i)).toNat
     loadedProg s thr = true →
     (w ∈ [1, 2, 4, 8] → a % w = 0 →
       (b.mayRead thr.th a w = true → exec (.ld thr errs fa fb w true i) s =
         .next (afterOut s thr r (nOk (t.gw fa (BitVec.ofNat 64 (leNat (b.bytesAt a w)))) (b.touch 0 a w)))) ∧
       (b.mayWrite thr.th a w = true → exec (.st thr errs fa fb w true i) s =
         .next (afterOut s thr r (nOk t (b.write a (leBytes w (t.gr fa).toNat)))))) ∧
     (v % 64 = 0 → b.mayRead thr.th v 64 = true → exec (.vld thr errs fa fb true i) s =
         .next (afterOut s thr r (nOk (t.vw fa (vpack (b.bytesAt v 64))) (b.touch 0 v 64)))) ∧
     (v % 64 = 0 → b.mayWrite thr.th v 64 = true → exec (.vst thr errs fa fb true i) s =
         .next (afterOut s thr r (nOk t (b.write v (vbytes (t.vr fa)))))) ∧
     (v % 64 = 0 → b.mayRead thr.th v 4096 = true → exec (.tld thr errs fa fb true i) s =
         .next (afterOut s thr r (nOk { t with tabs := t.tabs.writeN (4096 * (fa % 4)) (b.bytesAt v 4096) } (b.touch 0 v 4096))))) ∧
  (∀ (s : State) (thr : ThrId) (r : NbuReq) (errs : RawErrs) (fa fb : Nat), Issues s thr r → errs.parity = true →
     let t := thrOf s thr
     exec (.vlut ⟨thr, errs⟩ fa fb) s = .next (perform s (((s.pipe.markUE (64 * thr.part + thr.pc)).modThread thr.part thr.pc thr.th
       (fun _ => (t.gw fa (BitVec.ofNat 64 (((List.range 64).map (fun i =>
         (t.tabs.read (256 * i + (vlane (t.vr fb) i).toNat)).toNat)).foldl (· + ·) 0))).adv)).endReq thr.part thr.pc thr.th
       { status := .ue, count := t.sent, scanned := t.scanned, tailRead := t.tailRead, bytes := t.bytes })))

/-- The traps of a loaded program (R239, R241, R257, R258): a reserved function, an access outside the scratch area and an
unaligned one end the request with TRAP, and the partition counts the trap and sets its cause. -/
def Obligations.NbuTraps : Prop :=
  ∀ (s : State) (thr : ThrId) (r : NbuReq), Issues s thr r → loadedProg s thr = true →
    let k := thr.part
    let t := thrOf s thr
    let trapped := fun (t : Thread) (bit : Nat) => (perform s
      (((s.pipe.modThread k thr.pc thr.th (fun _ => t)).modPart k (fun q =>
        { q with trapCnt := satAdd q.trapCnt 1, trapCause := q.trapCause ||| (1#32 <<< bit) })).endReq k thr.pc thr.th
          { status := .trap, count := t.sent, scanned := t.scanned, tailRead := t.tailRead, bytes := t.bytes }))
    (∀ fn fa fb fc, 0x17 ≤ fn → exec (.alu thr fn fa fb fc) s = .next (trapped t 0)) ∧
    (∀ fb fc, exec (.sttail thr RawErrs.none fb fc) s = .next (trapped t 0)) ∧
    (∀ fa fb i, 0x4000 < (t.gr fb + BitVec.ofInt 64 i).toNat + 8 → exec (.ld thr RawErrs.none fa fb 8 false i) s = .next (trapped t 1)) ∧
    (∀ fa fb i, (t.gr fb + BitVec.ofInt 64 i).toNat + 8 ≤ 0x4000 → (t.gr fb + BitVec.ofInt 64 i).toNat % 8 ≠ 0 →
      exec (.st thr RawErrs.none fa fb 8 false i) s = .next (trapped t 2))

/-! ## The entry unit and the kernels of the near-bank units (chapters 06 and 07) -/

/-- The entry-unit instructions (R245 to R251): PSET takes a piece context, and its TAIL is the bound; ESCORE, EFILT, EVIS
and EACC answer for the entry that gb names below the bound; EPIL applies the epilogue to an accumulation; ELAST and ETHR
read the last score and set the local threshold. Units fetched are counted. ENEXT (R248): from the entry that gb names on,
the first below the bound that passes the tests of a scan; its number goes to ga and its score is kept; with none, ga takes
the bound; a unit that the ENEXT before it fetched last on a stream is not fetched again (R250).
PSET takes the low 6 address bits as 0, the model's choice (log entry 146). -/
def Obligations.EntryUnitResults : Prop :=
  (∀ (s : State) (thr : ThrId) (r : NbuReq) (errs : RawErrs) (fn fa fb fc : Nat), Issues s thr r →
     let t := thrOf s thr
     let b := portOf s thr errs
     let h := euHdr s thr
     let e := euEnv s thr r
     let n := (t.gr fb).toNat
     let go := guarded t
     (let h' := (b.hdr ((t.gr fb).toNat / 64 * 64)).1
      let o := go (nOk (({ t with
        eu := { t.eu with hdr := some h', qfmt := queryFmt fn h'.codeb h'.sfmt (t.gr 7).toNat, bound := h'.tail, lth := f32PosInf },
        tailRead := h'.tail }).gw fa (BitVec.ofNat 64 h'.tail)) (b.hdr ((t.gr fb).toNat / 64 * 64)).2)
      exec (.pset thr errs fn fa fb fc) s = .next (afterOut s thr r { o with th := { o.th with seen := [] } })) ∧
     (n < t.eu.bound →
       exec (.escore thr errs fn fa fb fc) s = .next (afterOut s thr r (go (nOk ({ t with scanned := t.scanned + 1 }.gw fa
         ((b.score e h n).2.1 ++ (b.score e h n).1)) (b.score e h n).2.2))) ∧
       exec (.efilt thr errs fn fa fb fc) s = .next (afterOut s thr r (go (nOk (t.gw fa (BitVec.ofNat 64 (b2n
         (b.filterTest h t.resident r.fcomb n r.filt false false).1)))
         (b.filterTest h t.resident r.fcomb n r.filt false false).2))) ∧
       exec (.evis thr errs fn fa fb fc) s = .next (afterOut s thr r (go (nOk (t.gw fa (BitVec.ofNat 64 (b2n
         (visible (recBirth (b.record h n).1) (recDeath (b.record h n).1) r.repoch)))) (b.record h n).2))) ∧
       (h.sfmt ≠ 8 → exec (.eacc thr errs fn fa fb fc) s = .next (afterOut s thr r (go (nOk ({ t with scanned := t.scanned + 1 }.gw fa
         (BitVec.ofInt 64 (accumulate e h (b.bytesAt (h.codes + n * h.codeb) h.codeb)).1))
         (b.touch 1 (h.codes + n * h.codeb) h.codeb)))))) ∧
     ((t.gr fc).toNat < t.eu.bound →
       let sc := b.scaleEntry h r.hamm (t.gr fc).toNat
       let y := entryScore e h (t.gr fb).toInt 0 0 sc.1
       exec (.epil thr errs fn fa fb fc) s =
         .next (afterOut s thr r (go (nOk (t.gw fa (scoreOrder r.neg y ++ y)) sc.2)))) ∧
     (errs.parity = false → exec (.elast thr errs fn fa fb fc) s = .next (putThr s thr (t.gw fa t.eu.last).adv) ∧
     exec (.ethr thr errs fn fa fb fc) s =
       .next (putThr s thr { t with eu := { t.eu with lth := threshOf ((t.gr fb).setWidth 32) } }.adv))) ∧
  (∀ (s : State) (thr : ThrId) (r : NbuReq) (errs : RawErrs) (fn fa fb fc : Nat), Issues s thr r →
     let t := thrOf s thr
     let n := (t.gr fb).toNat
     let x := enextLoop (euEnv s thr r) (euHdr s thr) t.eu.lth (t.eu.bound - n) n
       { portOf s thr errs with seen := t.seen }
     let u := { t with scanned := t.scanned + x.2.1, seen := x.2.2.seen }
     x.2.2.deny = false →
     (∀ m y sc, x.1 = some (m, y, sc) →
       (n ≤ m ∧ m < t.eu.bound) ∧
       exec (.enext thr errs fn fa fb fc) s = .next (afterOut s thr r (nOk
         ({ u with eu := { t.eu with last := sc ++ y } }.gw fa (BitVec.ofNat 64 m)) x.2.2))) ∧
     (x.1 = none → exec (.enext thr errs fn fa fb fc) s =
       .next (afterOut s thr r (nOk (u.gw fa (BitVec.ofNat 64 t.eu.bound)) x.2.2))))

/-- EMIT and END (R251): an entry joins the survivor block while fewer than SMAX have been emitted; every 32 entries the
block leaves; END sends the rest and the end message DONE. STTAIL in a firmware kernel (R225, R256): the whole unit of TAIL
is written with the new tail. -/
def Obligations.EntryUnitEmit : Prop :=
  (∀ (s : State) (thr : ThrId) (r : NbuReq) (errs : RawErrs) (fn fa fb fc : Nat), Issues s thr r →
     let t := thrOf s thr
     let n := (t.gr fb).toNat
     let ent : W32 × Nat := ((t.gr fc).setWidth 32, ((euHdr s thr).ordbase + n) % 2 ^ 32)
     (n < t.eu.bound → errs.parity = false → (∀ m, t.lastEmit = some m → m < n) →
       (r.smax ≤ t.sent + t.block.length →
         exec (.emit thr errs fn fa fb fc) s = .next (putThr s thr { t with lastEmit := some n }.adv)) ∧
       (t.sent + t.block.length < r.smax → t.block.length < 31 →
         exec (.emit thr errs fn fa fb fc) s =
           .next (putThr s thr { t with block := t.block ++ [ent], lastEmit := some n }.adv)) ∧
       (t.sent + t.block.length < r.smax → t.block.length = 31 →
         exec (.emit thr errs fn fa fb fc) s = .next (withPipe s ((s.pipe.modThread thr.part thr.pc thr.th (fun _ =>
           { t with block := [], sent := t.sent + 32, lastEmit := some n }.adv)).survivors thr.part r (t.block ++ [ent]))))) ∧
     exec (.endProg thr) s = .next (withPipe s (((s.pipe.modThread thr.part thr.pc thr.th (fun _ =>
       { t with sent := t.sent + t.block.length, block := [] })).survivors thr.part r t.block).endReq thr.part thr.pc thr.th
         { status := .done, count := t.sent + t.block.length, scanned := t.scanned, tailRead := t.tailRead, bytes := t.bytes }))) ∧
  (∀ (s : State) (thr : ThrId) (r : NbuReq) (errs : RawErrs) (fb fc : Nat), Issues s thr r →
     loadedProg s thr = false →
     exec (.sttail thr errs fb fc) s = .next (afterOut s thr r (nOk (thrOf s thr) ((portOf s thr errs).write
       (((thrOf s thr).gr fb).toNat / 64 * 64 + 32) (leBytes 32 (((thrOf s thr).gr fc).setWidth 32 : W32).toNat)))))

/-- The standard kernels (R215 to R227, R296, R311, R336, R352): each runs on the request's piece through the fetch port, and
its end message goes to the home core with its status, counts and bytes; SCAN sends its survivors only when it ends with
DONE; BLOCK its replies; POOL its partial sum; a kernel that is not loaded answers NOP. What SCAN and BLOCK leave in the thread's
scratch area follows R218 where the spec gives it, and is free elsewhere (the model's choice, log entry 147). -/
def Obligations.StandardKernels : Prop :=
  ∀ (s : State) (thr : ThrId) (errs : RawErrs) (r : NbuReq) (kn : Nat), Calm s → s.pwr.nbuRuns = true →
    s.pipe.running thr.part thr.pc thr.th (· == kn) = some r →
    let k := thr.part
    let b := s.pipe.bankOf k thr.pc errs none
    let env := s.pipe.envOf (s.pipe.thread k thr.pc thr.th).resident r
    let long := s.pipe.longPq k thr.pc r
    let fin := fun (bank : Bank) (f : Thread → Thread) (e : Ended) =>
      perform s (((s.pipe.putBank k thr.pc bank).modThread k thr.pc thr.th f).endReq k thr.pc thr.th e)
    let plain := fun (e : KernelEnd) => perform s ((s.pipe.putBank k thr.pc e.bank).endReq k thr.pc thr.th (endedBy e))
    (kn = 0 → (s.pipe.core r.home).blocks.length < 256 →
      let x := kernelScan env thr.th b
      let out := if x.1.status = .done then x.1.survivors else []
      exec (.scan thr errs) s = .next (perform s ((((s.pipe.putBank k thr.pc x.1.bank).modThread k thr.pc thr.th (fun t =>
        t.leaves r long x.2)).survivors k r out).endReq k thr.pc thr.th { endedBy x.1 with count := out.length }))) ∧
    (kn = 1 → let e := kernelBlock env thr.th b
      exec (.block thr errs) s = .next (fin e.1.bank (fun t => if long then t.leaves { r with smax := 512 } true ⟨[], 0⟩ else t)
        { endedBy e.1 with count := e.2.length, replies := e.2 })) ∧
    (kn = 2 → exec (.append thr errs) s = .next (plain (kernelAppend r b))) ∧
    (kn = 3 → exec (.stamp thr errs) s = .next (plain (kernelStamp r
      (((s.pipe.nbu k thr.pc).links.find? (fun l => l.1 == r.piece)).map (fun l => l.2)) b))) ∧
    (∀ tab, kn = 4 → s.pipe.poolTab r = some tab → let e := kernelPool r tab b
      exec (.pool thr errs) s = .next (perform s ((s.pipe.putBank k thr.pc e.1.bank).endReq k thr.pc thr.th
        { status := e.1.status, count := r.arg1, bytes := e.1.bank.bytes, partial_ := e.2 }))) ∧
    (kn = 5 → (kernelCompact r b).status = .done → let e := kernelCompact r b
      exec (.compact thr errs) s = .next (perform s (((s.pipe.putBank k thr.pc e.bank).endReq k thr.pc thr.th
        (endedBy e)).modNbu k thr.pc (fun n => { n with links := (n.links ++ [(r.piece, r.arg0)]).take 64 })))) ∧
    (kn = 6 → let e := kernelBitmap r b
      exec (.bitmap thr errs) s = .next (perform s ((s.pipe.putBank k thr.pc e.1.bank).endReq k thr.pc thr.th
        { status := e.1.status, bytes := e.1.bank.bytes, noRoom := !e.2 }))) ∧
    (kn = 7 → exec (.scrub thr errs) s = .next (plain (kernelScrub r b))) ∧
    (8 ≤ kn → loadedProg s thr = false →
      exec (.nop thr) s = .next (perform s (s.pipe.endReq k thr.pc thr.th { status := .nop })))

/-- R216, R217: a SCAN takes TAIL from the header, and tests no entry at or above it; and it returns at most SMAX entries,
each below TAIL. -/
def Obligations.ScanStopsAtTail : Prop :=
  ∀ (e : ScoreEnv) (w : Nat) (b : Bank),
    let x := (kernelScan e w b).1
    let h := (b.hdr e.req.piece).1
    x.tailRead = h.tail ∧ x.scanned ≤ h.tail ∧ x.survivors.length ≤ e.req.smax ∧
    ∀ y ∈ x.survivors, ∃ n, n < h.tail ∧ y.2 = (h.ordbase + n) % 2 ^ 32

/-- R292: an item is visible to an epoch at or after its birth and before its death, and to none when the two are equal. -/
def Obligations.VisibleBetween : Prop :=
  (∀ birth death e : Nat, visible birth death e = true ↔ birth ≤ e ∧ e < death) ∧
  (∀ birth e : Nat, visible birth birth e = false) ∧
  (∀ birth death : Nat, death < 2 ^ 48 → visible birth death 0xFFFFFFFFFFFF = false)

/-- NBU_REQUEST_TAKE, NBU_PROGRAM, NBU_IMAGE_SWITCH, EPOCH_MARKER, CANCEL, CANCELLED and NBU_LIMIT (R219, R228, R230, R232, R252 to
R259, R294, R304, R305): once the data path is enabled a free thread takes the request chosen and starts it with the program and
the filters of that moment; a program runs its instructions from its pc one by one; an image waits for running programs; markers
only rise; a cancel marks the requests of its job that run, and each stops at its next boundary, a kernel at a multiple of 4 KiB
fetched with the bytes up to there charged. That a program which cannot fetch traps RANGE is the model's reading (log entry
145). -/
def Obligations.NbuRequests : Prop :=
  ∀ (s : State) (k pc th : Nat), Calm s → s.pwr.nbuRuns = true → k < 16 → pc < 64 → th < 4 → s.pipe.fenced k = false →
    let n := s.pipe.nbu k pc
    let t := s.pipe.thread k pc th
    let thr : ThrId := { part := k, pc := pc, th := th }
    (∀ r, s.coel.dpen = true → t.req = none → n.choose (s.pipe.markersAt n) th = some r →
      exec (.nbuRequestTake thr) s = .next (perform s ((s.pipe.modNbu k pc (fun n =>
        { n with queue := n.queue.erase r, threads := setNth n.threads th (t.enter r th
            (pcBytes s.pipe.variant64) (pcData s.pipe.variant64) (n.offset r.kernel) (s.pipe.part k).resident
            (r.kernel ≤ 1 && (s.pipe.hdrAt k pc r.piece).sfmt = 8)) })).unblock))) ∧
    (∀ r errs, t.req = some r → loadedProg s thr = true →
      exec (.nbuProgram thr 1 errs) s = .next (perform s (s.pipe.afterInstr k pc th r
        (nFetchIssue (s.pipe.isaEnv k pc th r) n.image r t (s.pipe.bankOf k pc errs (some th)))))) ∧
    (∀ i, n.nextImage = some i → (∀ x ∈ n.threads, x.req = none ∨ x.prog = none) →
      exec (.nbuImageSwitch k pc) s =
        .next (withPipe s (s.pipe.modNbu k pc (fun n => { n with image := i, nextImage := none })))) ∧
    (∀ src, s.coel.dpen = true → src < 16 → s.pipe.fenced src = false → exec (.epochMarker k pc src) s =
      .next (withPipe s (s.pipe.modNbu k pc (fun n =>
        { n with markers := setNth n.markers src (max (n.markers.getD src 0) (s.pipe.part src).pub) })))) ∧
    (∀ job, s.pipe.jobs.get? job = none → (∀ r ∈ n.queue, r.job ≠ job) →
      exec (.cancel k pc job) s = .next (perform s ((s.pipe.modNbu k pc (fun n =>
        { n with threads := n.threads.map (fun t => match t.req with
          | some r => if r.job = job && (r.kernel = 0 || r.kernel = 1 || r.kernel = 4 || t.prog.isSome) && t.cancel.isNone then
              { t with cancel := some (t.fetched, t.issued) } else t
          | none => t) })).unblock))) ∧
    (∀ r m, t.req = some r → t.cancel.isSome = true →
      (loadedProg s thr = true → t.cancelDue = true → exec (.cancelled ⟨thr, m⟩) s = .next (perform s (s.pipe.endReq k pc th
        { status := .cancelled, count := t.sent, scanned := t.scanned, tailRead := t.tailRead, bytes := t.bytes }))) ∧
      (let x := s.pipe.haltedAt k pc th r { s.pipe.bankOf k pc RawErrs.none none with stop := some (4096 * m) }
       loadedProg s thr = false → x.2.2.halted = true → x.2.2.ue = false →
         exec (.cancelled ⟨thr, m⟩) s = .next (perform s ((s.pipe.putBank k pc x.2.2).endReq k pc th
           { status := .cancelled, scanned := x.1, tailRead := x.2.1, bytes := 4096 * m + (x.2.2.bytes - x.2.2.fetched) })))) ∧
    (∀ r, t.req = some r → loadedProg s thr = true → 4194304 ≤ t.issued →
      exec (.nbuLimit thr) s = .next (perform s (s.pipe.trapReq k pc th .limit)))

/-! ## Graph walkers (chapter 10) -/

/-- WALK_START, WALK_HOP and WALK_PAGE_LOAD (R326 to R334, R339): with its objects there and a page slot, a walk begins and issues
its entry blocks and fringe scans; one whose subgraphs all lie in fenced partitions is counted and over; with the replies of a hop
in, it takes them, hands the admitted nodes over in groups and expands the next node; a walk whose page is away takes a slot
before it goes on. How a fenced node without a prefetched link record counts is the model's reading (log entry 152). -/
def Obligations.WalkerRows : Prop :=
  ∀ (s : State) (w : Nat) (wk : Walk), Calm s → s.pipe.walks.get? w = some wk → CoreOn s wk.core →
    (∀ jb x p0, wk.started = false → s.pipe.jobAt wk.job .walking = some jb → s.pipe.idxOf jb = some x →
      s.pipe.pagesHere (s.pipe.headPages x (wk.parts ++ wk.lost)) = true →
      s.pipe.readFor wk.job (s.pipe.headUnits x (wk.parts ++ wk.lost)) = (p0, true) →
      (wk.parts = [] → exec (.walkStart w) s = .next (perform s (p0.countLost w wk x))) ∧
      (∀ p1 slot, wk.parts ≠ [] → s.pipe.mayStart w wk = true → jb.mode ≠ 1 →
        (let ss := wk.parts.map (fun k => (k, p0.starts x k))
         p0.pagesHere (ss.flatMap (fun y => p0.startPages y.1 y.2)) = true → p0.takeSlot wk.core = some (p1, slot) →
         let p3 := p1.modPart wk.core (fun q => { q with walkWait := q.walkWait.erase w })
         let p4 := ((p3.modWalk w (fun v => { v with started := true, slot := some slot, req := wk.req })).useWalk w).showWalk w
         exec (.walkStart w) s = .next (perform s (ss.foldl (fun (p : Pipe) y =>
           y.2.2.foldl (fun (p : Pipe) f => p.issueFringe w x y.1 f.1 f.2) p) (ss.foldl (fun (p : Pipe) y =>
             y.2.1.foldl (fun (p : Pipe) b => p.issueBlock w x y.1 b.1 b.2.1 b.2.2 f32PosInf) p) p4)))))) ∧
    (∀ raw jb x, wk.started = true → wk.ended = false → wk.blocksOut = 0 → wk.slot.isSome = true →
      s.pipe.jobAt wk.job .walking = some jb → s.pipe.idxOf jb = some x →
      (let q := s.pipe.rawErrors raw
       let next := (wk.takeReplies (negMetric jb.metric) (jb.beamOf x)).1
       let adm := (wk.takeReplies (negMetric jb.metric) (jb.beamOf x)).2
       (∀ b, next.beam.find? (fun b => !b.expanded) = some b → next.hop < jb.hopsOf x →
         q.pagesHere (q.expandPages x next b) = true) →
       let p1 := (((q.modWalk w (fun _ => next)).useWalk w).showWalk w).admitNodes w adm
       (jb.abort = false → exec (.walkHop ⟨w, raw⟩) s = .next (perform s (p1.expand w next jb x))) ∧
       (jb.abort = true → exec (.walkHop ⟨w, raw⟩) s = .next (perform s (p1.endJob wk.job stABORTED none))))) ∧
    (∀ p1 slot, wk.started = true → wk.blocksOut = 0 → wk.slot = none → s.pipe.takeSlot wk.core = some (p1, slot) →
      exec (.walkPageLoad w) s = .next (perform s ((((p1.modWalk w (fun v => { v with slot := some slot })).useWalk w).showWalk
        w).count wk.core 0 2 71680)))

/-! ## Registers (chapters 02, 17 and 22) -/

/-- The registers that a read clears or that latch another (R24, R89, R663, R669): while BAR0 answers and the partition is
not fenced, the read returns the value held, and then the counter is 0 or the upper half is latched; nothing else changes.
The identity registers (R12). The list of what was read is the model's own (log entry 16). -/
def Obligations.ReadRegisters : Prop :=
  (∀ s : State, s.reach = true →
     let got := fun (off : Nat) (v : W32) => ({ s with reads := s.reads ++ [(⟨off, v⟩ : RegRead)] } : State)
     (let t := got 0x3000 (BitVec.ofNat 32 s.mer.now)
      exec .merNowLo s = .next { t with mer := { s.mer with nowHi := BitVec.ofNat 32 (s.mer.now / 2 ^ 32) } }) ∧
     (let t := got 0x3010 (BitVec.ofNat 32 s.mer.pub)
      exec .merPubLo s = .next { t with mer := { s.mer with pubHi := BitVec.ofNat 32 (s.mer.pub / 2 ^ 32) } }) ∧
     (let t := got 0x301C s.mer.lateCnt
      exec .merLateCnt s = .next { t with mer := { s.mer with lateCnt := 0 } }) ∧
     (let t := got 0x3020 s.mer.skipCnt
      exec .merSkipCnt s = .next { t with mer := { s.mer with skipCnt := 0 } }) ∧
     (let t := got 0x9200 s.fab.rnr
      exec .bftRnr s = .next { t with fab := { s.fab with rnr := 0 } }) ∧
     (let t := got 0x9204 s.fab.badPkt
      exec .bftBadpkt s = .next { t with fab := { s.fab with badPkt := 0 } }) ∧
     (let t := got 0x9208 s.fab.authFail
      exec .bftAuthfail s = .next { t with fab := { s.fab with authFail := 0 } }) ∧
     (let t := got 0x920C s.fab.evDrop
      exec .bftEvdrop s = .next { t with fab := { s.fab with evDrop := 0 } }) ∧
     (let t := got 0x9210 s.fab.orphan
      exec .bftOrphan s = .next { t with fab := { s.fab with orphan := 0 } }) ∧
     (let t := got 0x9214 s.fab.dbDrop
      exec .bftDbdrop s = .next { t with fab := { s.fab with dbDrop := 0 } }) ∧
     (let t := got 0xA804 s.coel.wdcnt
      exec .coelWdcnt s = .next { t with coel := { s.coel with wdcnt := 0 } }) ∧
     (∀ k, k < 16 → s.pipe.fenced k = false →
       let q := s.pipe.part k
       let cleared := fun (off : Nat) (v : W32) (f : Part → Part) => ({ got off v with pipe := s.pipe.modPart k f } : State)
       exec (.nbuCe k) s = .next (cleared (0x5100 + 4 * k) q.ce (fun q => { q with ce := 0 })) ∧
       exec (.nbuTrapcnt k) s = .next (cleared (0x5200 + 4 * k) q.trapCnt (fun q => { q with trapCnt := 0 })) ∧
       exec (.flsUe k) s = .next (cleared (0x6100 + 4 * k) q.flash.ue (fun q => { q with flash := { q.flash with ue := 0 } })) ∧
       exec (.almDbdrop k) s = .next (cleared (0x7000 + 4 * k) q.alm.dbdrop (fun q => { q with alm := { q.alm with dbdrop := 0 } })) ∧
       exec (.almOrphan k) s = .next (cleared (0x7040 + 4 * k) q.alm.orphan (fun q => { q with alm := { q.alm with orphan := 0 } })) ∧
       exec (.almMiss k) s = .next (cleared (0x7080 + 4 * k) q.alm.miss (fun q => { q with alm := { q.alm with miss := 0 } })) ∧
       exec (.schFinder k) s =
         .next (cleared (0x8040 + 4 * k) q.sched.finder (fun q => { q with sched := { q.sched with finder := 0 } })) ∧
       exec (.schForgive k) s =
         .next (cleared (0x8080 + 4 * k) q.sched.forgive (fun q => { q with sched := { q.sched with forgive := 0 } })))) ∧
  (∀ s : State, s.reach = true →
     readReg s 0x0000 = 0x0002B1C1 ∧ (s.variant64 = true → readReg s 0x0004 = 0x00201804) ∧
     (s.variant64 = false → readReg s 0x0004 = 0x00200804) ∧ readReg s 0x0008 = 1 ∧ readReg s 0x000C = 0x1616)

/-- Writes that BAR0 takes and the pins and TAP (R549, R550, R651, R654, R663 to R666, R673): MBX_CFG under its rule, a
doorbell that sets the producer index, the pin functions, an injected fault, an aligned write of a register word, one of
another form, which the doorbells that it covers count (R438, R532, R666), and the TAP's instruction
register. The registers whose bits a write of 1 clears (R25, R89, R213, R259, R425, R488, R549, R590): bits
written 0 keep their values. A write of FCU_STAT clears its bits where no cause in the word still holds. The TAP is its
instruction register and its extension flag, the model's choice (log entry 80). -/
def Obligations.WriteRegisters : Prop :=
  (∀ s : State,
     (s.reach = true →
       (∀ m v, exec (.mbxCfg m v) s = .next (s.modMbx m (fun b => b.writeCfg v.toNat))) ∧
       (∀ m v, exec (.mbxDoorbell m v) s = .next (s.modMbx m (fun b => b.doorbell v.toNat))) ∧
       (∀ v, exec (.sbFunc v) s = .next { s with sb := s.sb.writeFunc v }) ∧
       (∀ v, s.dbg.injEn = true → exec (.dbgInject v) s = .next ((s.raise [v.toNat % 512]).settle)) ∧
       (∀ v, s.dbg.injEn = false → exec (.dbgInject v) s = .next s) ∧
       (∀ i v, i < 4 → exec (.registerWrite 0 (0x20000 + 4 * i) 4 v) s =
         .next { s with dbg := { s.dbg with scratch := setNth s.dbg.scratch i (v.setWidth 32) } }) ∧
       (∀ m v, m < 17 → (s.mailbox m).en = false → exec (.registerWrite 0 (0xA000 + 64 * m) 8 v) s =
         .next ((s.modMbx m (fun b => { b with rqLo := v.setWidth 32 })).modMbx m (fun b => { b with rqHi := (v >>> 32).setWidth 32 }))) ∧
       (∀ off size v, off % size ≠ 0 → bellsAt 0 off size = [] → exec (.registerWrite 0 off size v) s = .next s) ∧
       (∀ off size v, (size ≠ 8 ∨ off % 8 ≠ 0) → bellsAt 0 off size ≠ [] →
         exec (.registerWrite 0 off size v) s = .next ((bellsAt 0 off size).foldl State.shortBell s))) ∧
     (s.reach = false → ∀ func off size v, exec (.registerWrite func off size v) s = .next s) ∧
     (∀ n, exec (.sbInertEnd n) s = .next { s with sb := s.sb.endInert n }) ∧
     (∀ ir ext, exec (.tapInstruction ir ext) s = .next { s with dbg := { s.dbg with ir := ir, ext := ext } }) ∧
     exec .tapReset s = .next { s with dbg := { s.dbg with ir := 0x01, ext := false } }) ∧
  (∀ (s : State) (v : W32), s.reach = true →
     exec (.merStat v) s = .next { s with mer := { s.mer with
       clkLost := s.mer.clkLost && !v.getLsbD 8, syncLost := s.mer.syncLost && !v.getLsbD 9,
       stepped := s.mer.stepped && !v.getLsbD 10, freeze := s.mer.freeze && !v.getLsbD 11,
       latePub := s.mer.latePub && !v.getLsbD 12, limit := s.mer.limit && !v.getLsbD 13,
       syncIgnored := s.mer.syncIgnored && !v.getLsbD 15 } } ∧
     exec (.flsHoldstat v) s = .next { s with flush := { s.flush with alarms := s.flush.alarms &&& ~~~(v.extractLsb' 8 8) } } ∧
     (∀ n, n < 32 → exec (.fabLink n v) s =
       .next { s with fab := s.fab.modLink n (fun l => { l with downEv := l.downEv && !v.getLsbD 7 }) }) ∧
     (∀ m, exec (.mbxStat m v) s = .next (s.modMbx m (fun b =>
       { b with ringErr := b.ringErr && !v.getLsbD 10, evLost := b.evLost && !v.getLsbD 11 }))) ∧
     (∀ k, k < 16 → s.pipe.fenced k = false →
       exec (.nbuUe k false v) s = .next (withPipe s (s.pipe.modPart k (fun q =>
         { q with ueBits := q.ueBits &&& ~~~(v.setWidth 64) }))) ∧
       exec (.nbuUe k true v) s = .next (withPipe s (s.pipe.modPart k (fun q =>
         { q with ueBits := q.ueBits &&& ~~~(v.setWidth 64 <<< 32) }))) ∧
       exec (.nbuTrapcause k v) s = .next (withPipe s (s.pipe.modPart k (fun q => { q with trapCause := q.trapCause &&& ~~~v })))) ∧
     (∀ w, w < 16 → (∀ x ∈ ({ s with fcu := s.fcu.w1c w v } : State).holding, x / 32 ≠ w) → s.pipe.out = [] →
       exec (.fcuStat w v) s = .next { s with fcu := s.fcu.w1c w v }))

/-- R664, at fourteen offsets that the map does not list, the ends of its blocks among them: a read gives 0 and a write has
no effect; while BAR0 does not answer a read returns all ones (R14, R670). All ones for every offset while BAR0 does not
answer is the model's reading (log entry 19). -/
def Obligations.UnlistedRegisters : Prop :=
  (∀ (s : State) (off : Nat), off ∈ [0x0010, 0x0104, 0x0208, 0x3024, 0x4204, 0x6008, 0x9218, 0xA020, 0xA03C, 0xA440, 0xA7FC,
      0xA808, 0xB010, 0x20014] → s.reach = true → readReg s off = 0 ∧
      ∀ v, exec (.registerWrite 0 off 4 v) s = .next s) ∧
  (∀ (s : State) (off : Nat), s.reach = false → readReg s off = 0xFFFFFFFF)

/-! ## The Meridian time base (chapter 02) -/

/-- R61: the counter never decreases when it takes a value; above the next tick it steps forward and STEP sets, below the
present value it holds and FREEZE sets, and while it holds a tick leaves it where it is. The counter's last value is the
model's choice (log entry 41). -/
def Obligations.CounterTakes : Prop :=
  ∀ (m : Meridian) (v : Nat), m.now ≤ merMax →
    m.now ≤ (m.take v).now ∧
    (m.now + 10 < grid10 v → grid10 v ≤ merMax → (m.take v).now = grid10 v ∧ (m.take v).stepped = true ∧ (m.take v).hold = 0) ∧
    (grid10 v < m.now → (m.take v).now = m.now ∧ (m.take v).freeze = true ∧ (m.take v).hold = (m.now - grid10 v) / 10) ∧
    (0 < m.hold → m.tick.now = m.now ∧ m.tick.hold = m.hold - 1) ∧
    (m.hold = 0 → m.now + 10 ≤ merMax → m.tick.now = m.now + 10)

/-- COUNTER_ADVANCE, PULSE_EDGE, MER_CLK_LOSS, MER_SYNC_LOSS, HOLD_LIMIT and MER_CLK_RETURN (R55 to R66, R70, R87). That the
counter waits for the events owed, and that an edge without MER_CLK has no effect, are the model's readings (log entries 5
and 44). -/
def Obligations.MeridianClockRows : Prop :=
  ∀ s : State, s.boot.stage ≠ .reset →
    let m := s.mer
    let upd := fun (x : Meridian) => ({ s with mer := x } : State)
    (s.owed ≠ 7 → exec .counterAdvance s = .next s) ∧
    (s.owed = 7 → m.hold = 0 → m.now + 10 ≤ merMax → exec .counterAdvance s = .next (upd { m with
      ticks := m.ticks + 1, prev := if m.watchDue then m.prev else m.now, now := m.now + 10, watchDone := false })) ∧
    (s.owed = 7 → 0 < m.hold → exec .counterAdvance s = .next (upd { m with ticks := m.ticks + 1, hold := m.hold - 1 })) ∧
    (m.clkOk = false → exec .pulseEdge s = .next s ∧
      exec .merClkReturn s = .next (upd { m with clkOk := true, clkSince := m.ticks })) ∧
    (∀ v, m.clkOk = true → m.loaded = some v →
      let a := grid10 (v + 10 * m.delayComp)
      let m1 := { m.take a with loaded := none, lastEdge := some a }
      (m.state = .locked ∨ m.ticks < m.clkSince + 1000 → exec .pulseEdge s = .next (upd m1)) ∧
      (m.state ≠ .locked → m.clkSince + 1000 ≤ m.ticks → exec .pulseEdge s = .next (upd (m1.enter .locked)))) ∧
    (∀ e, m.clkOk = true → m.loaded = none → m.state = .locked → m.lastEdge = some e →
      m.ref ≤ e + 1001000 → e + 1000000 ≤ m.ref + 1000 →
      exec .pulseEdge s = .next (upd { m.take (e + 1000000) with lastEdge := some (e + 1000000) })) ∧
    (m.clkOk = true → m.loaded = none →
      (m.state ≠ .locked ∨ ∃ e, m.lastEdge = some e ∧ (e + 1001000 < m.ref ∨ m.ref + 1000 < e + 1000000)) →
      exec .pulseEdge s = .next (upd { m with syncIgnored := true })) ∧
    (m.clkOk = true → exec .merClkLoss s = .next (((upd { m.lose with clkOk := false, clkLost := true }).raise [256]).settle)) ∧
    (∀ e, m.clkOk = true → m.state = .locked → m.lastEdge = some e → e + 1002000 ≤ m.ref →
      exec .merSyncLoss s = .next (((upd { m.lose with syncLost := true }).raise [257]).settle)) ∧
    (m.state = .holdover → m.holdStart + m.holdMs * 100000 ≤ m.ticks →
      exec .holdLimit s = .next (((upd { m with state := .expired, limit := true }).raise [258]).settle))

/-- The PTP rows (R71 to R74, R487): a message of the port, the domain and the chosen master goes to the servo; on another port, or
while PTP_EN is 0, it counts in BFT_BADPKT; one of another domain, of an unlisted option or with a Sync interval outside 2^-7 s to
1 s is only counted on its link, and one of another sender changes nothing else but the masters heard. PTP frames have no bytes in
the model, and the masters heard are dropped at ANNOUNCE_TIMEOUT (log entries 45 and 46). -/
def Obligations.PtpRows : Prop :=
  ∀ (s : State) (port : Nat) (head : PtpHead), s.boot.stage ≠ .reset →
    let m := s.mer
    let f := s.fab.modLink (4 * port) (fun l => { l with rx := l.rx + 1 })
    let upd := fun (x : Meridian) => ({ s with fab := f, mer := x } : State)
    let passed := fun (t : State) (domain : Nat) =>
      (∀ two n t1 sub, exec (.ptpSync port domain head two n t1 sub) s = .next t) ∧
      (∀ rank, exec (.ptpAnnounce port domain head rank) s = .next t) ∧
      (∀ t4, exec (.ptpDelayResp port domain head t4) s = .next t) ∧
      (∀ n t1, exec (.followUp port domain head n t1) s = .next t)
    (∀ domain, m.ptpEn = false ∨ port ≠ m.ptpPort →
      passed { s with fab := { f with badPkt := satAdd f.badPkt 1 } } domain) ∧
    (∀ domain, m.ptpEn = true → port = m.ptpPort → domain ≠ m.ptp.domain ∨ 127 < domain ∨ head.unlisted = true →
      passed (upd m) domain) ∧
    (∀ domain two n t1 sub, m.ptpEn = true → port = m.ptpPort → head.interval < -7 ∨ 0 < head.interval →
      exec (.ptpSync port domain head two n t1 sub) s = .next (upd m)) ∧
    (∀ domain, m.takesPtp port domain head.unlisted = true →
      (∀ rank, exec (.ptpAnnounce port domain head rank) s = .next (upd { m with
        ptp := { m.ptp with masters := (m.ptp.masters.filter (fun a => a.source ≠ head.source)) ++ [⟨rank, head.source⟩] } })) ∧
      (m.fromMaster head.source = false → (∀ two n t1 sub, exec (.ptpSync port domain head two n t1 sub) s = .next (upd m)) ∧
        (∀ t4, exec (.ptpDelayResp port domain head t4) s = .next (upd m)) ∧
        (∀ n t1, exec (.followUp port domain head n t1) s = .next (upd m))) ∧
      (m.fromMaster head.source = true →
        (∀ n t1 sub, -7 ≤ head.interval → head.interval ≤ 0 →
          exec (.ptpSync port domain head false n t1 sub) s = .next (upd (m.syncPair t1 (m.ptpTime sub))) ∧
          exec (.ptpSync port domain head true n t1 sub) s =
            .next (upd { m with ptp := { m.ptp with sync := some (m.ptpTime sub, n) } })) ∧
        (∀ n t1 t2, m.ptp.sync = some (t2, n) → exec (.followUp port domain head n t1) s = .next (upd (m.syncPair t1 t2))) ∧
        (∀ t1 t2 t3 t4, m.ptp.last = some (t1, t2) → m.ptp.req = some t3 →
          exec (.ptpDelayResp port domain head t4) s = .next (upd { m with
            ptp := { m.ptp with req := none, delay := (((t2 : Int) - t1) + ((t4 : Int) - t3)) / 2 } })))) ∧
    (m.ptpEn = true → m.ptp.masters ≠ [] →
      exec .announceTimeout s = .next { s with mer := { m.clearPtpLock with
        ptp := { m.clearPtpLock.ptp with masters := [], sync := none, last := none } } }) ∧
    (∀ sub, m.ptpEn = true → m.ptp.best.isSome = true → s.fab.squelched (4 * m.ptpPort) s.quiet = false →
      exec (.delayReq sub) s = .next { s with
        mer := { m with ptp := { m.ptp with req := some (m.ptpTime sub) } },
        fab := s.fab.modLink (4 * m.ptpPort) (fun l => { l with tx := l.tx + 1 }) })

/-- WATCH_END, TRANSIT_TAKEOVER and EPOCH_PUBLISH (R69, R75 to R85, R474, R479), each in its turn at a counter value: all
unfenced partitions take the event at once, a fenced one takes none, and nothing else changes. TRANSIT_WINDOW, WHEEL_DRAIN
and BUCKET_MOVE of an unfenced partition (R468 to R475): the window in force; the queues whose slot has come leave the wheel,
oldest first; the buckets whose time has come move into the slots. That an event acts only in its turn is the model's reading
(log entries 3 and 5). -/
def Obligations.CounterEvents : Prop :=
  (∀ s : State,
     let m := s.mer
     let only := fun (t : State) (x : Meridian) (f : Part → Part) =>
       t = ({ s with mer := x, pipe := { s.pipe with parts := t.pipe.parts } } : State) ∧ t.pipe.parts.length = s.pipe.parts.length ∧
         ∀ k, k < 16 → k < s.pipe.parts.length → t.pipe.part k = if s.pipe.fenced k then s.pipe.part k else f (s.pipe.part k)
     (s.owed = 2 → ∃ t, exec .watchEnd s = .next t ∧ m.watchEnd.watchDone = true ∧ only t m.watchEnd (fun q =>
       { q with watchNo := m.watchEnd.watchNo, sched := q.sched.watchEnd m.now m.watchSkipped })) ∧
     (s.owed = 3 → ∃ t, exec .transitTakeover s = .next t ∧ only t m (fun q => { q with sched := q.sched.takeover m.now })) ∧
     (∀ slot e, s.owed = 4 → m.nextDue = some (slot, e) → ∃ t, exec .epochPublish s = .next t ∧
       only t (m.perform slot e) (fun q => { q with pub := (m.perform slot e).pub, pend := (m.perform slot e).pend }) ∧
       (m.pub < e.epoch → e.epoch < 0xFFFFFFFFFFFF →
         t.mer.pub = e.epoch ∧ t.mer.pend = e.epoch + 1 ∧ (t.mer.slot slot).state = .done ∧ t.mer.skipCnt = m.skipCnt) ∧
       (e.epoch ≤ m.pub ∨ 0xFFFFFFFFFFFF ≤ e.epoch →
         t.mer.pub = m.pub ∧ t.mer.pend = m.pend ∧ (t.mer.slot slot).state = .skipped ∧ t.mer.skipCnt = satAdd m.skipCnt 1)) ∧
     (s.owed ≠ 2 → exec .watchEnd s = .next s) ∧ (s.owed ≠ 3 → exec .transitTakeover s = .next s) ∧
     (s.owed ≠ 4 → exec .epochPublish s = .next s)) ∧
  (∀ (s : State) (k : Nat), Calm s → s.pipe.fenced k = false →
     let q := s.pipe.part k
     let elig := fun n => (s.pipe.queue n).elig
     exec (.transitWindow k) s = .next (withPipe s (s.pipe.modPart k (fun q =>
       { q with sched := { q.sched with window := q.sched.current.windowAt s.mer.now } }))) ∧
     (let due := fun n => decide (elig n ≤ s.mer.now / 1000)
      let wheel := (q.sched.wheel.mapv (fun l => l.filter (fun n => !due n))).filter (fun x => !x.2.isEmpty)
      exec (.wheelDrain k) s = .next (perform s
        ((sortBy (fun a b => decide (elig a < elig b)) (q.sched.wheel.vals.flatten.filter due)).foldl
          (fun p n => p.unwheel k (s.mer.now / 1000) n)
          (s.pipe.modPart k (fun r => { r with sched := { r.sched with wheel := wheel } }))))) ∧
     (let due := fun n => decide (elig n / 4096 ≤ s.mer.now / 1000 / 4096)
      let rest := (q.sched.buckets.mapv (fun l => l.filter (fun n => !due n))).filter (fun x => !x.2.isEmpty)
      let moved := sortBy (fun a b => decide (elig a / 4096 < elig b / 4096)) (q.sched.buckets.vals.flatten.filter due)
      exec (.bucketMove k) s = .next (perform s (s.pipe.modPart k (fun r => { r with sched := { r.sched with
        buckets := rest,
        wheel := moved.foldl (fun w n => w.set (elig n % 4096) (w.getD (elig n % 4096) [] ++ [n])) r.sched.wheel } })))))

/-- R80: among the ARMED entries that are due, the one performed next has the lowest TIME, and the lowest slot of those. -/
def Obligations.PublicationOrder : Prop :=
  ∀ (m : Meridian) (i : Nat) (e : EphEntry), m.eph.Pairwise (fun a b => a.1 < b.1) → m.nextDue = some (i, e) →
    (i, e) ∈ m.eph ∧ m.entryDue e = true ∧
    ∀ j f, (j, f) ∈ m.eph → m.entryDue f = true → e.time < f.time ∨ (e.time = f.time ∧ i ≤ j)

/-! ## Resets (chapters 17 and 20) -/

/-- R610, R613: the rows that restart the package. A power-on reset leaves FCU_STAT and the boot block at reset; a package
reset keeps FCU_STAT, restores its reactions, and keeps the trial timer and the latch of THERMTRIP; a package reset keeps the
flash. While the data path is enabled a package reset waits for the flush (R612). The function level resets and the loss of
the PCIe link (R543, R544, R610): MBk is disabled with its registers at reset, its commands that have not committed are gone,
its MSI-X table returns to reset, and its queues of the partition are FREE. What a reset keeps beyond the spec's list is the
model's reading (log entries 12, 48, 51 and 52). -/
def Obligations.ResetRows : Prop :=
  (∀ s : State,
     (∀ aon, exec (.powerOnReset aon) s = .next { s.clear with
       fcu := Fcu.reset, boot := Boot.reset,
       pwr := { s.clear.pwr with good := false, perst := true, trip := s.pwr.trip && !aon } }) ∧
     (s.packageReset .perst).fcu.bits = s.fcu.bits ∧ (s.packageReset .perst).fcu.react = [] ∧
     (s.packageReset .perst).fcu.safe = false ∧ (s.packageReset .perst).boot.lastRst = .perst ∧
     (s.packageReset .perst).boot.trialRun = s.boot.trialRun ∧ (s.packageReset .perst).pwr.trip = s.pwr.trip ∧
     (s.packageReset .perst).nor = s.nor ∧ (s.packageReset .perst).pipe.nand = s.pipe.nandKept ∧
     (s.packageReset .perst).pipe.parts.length = 16 ∧ (∀ k, k < 16 → (s.packageReset .perst).pipe.fenced k = true) ∧
     (s.packageReset .perst).mer = Meridian.reset ∧
     (let p := ({ s with pwr := { s.pwr with perst := true }, pcie := { s.pcie with trained := false } } : State)
      s.pwr.good = true →
       (s.flush.state ≠ .flushing → (s.coel.dpen = false ∨ s.works = false) →
         exec .packageReset s = .next (p.packageReset .perst)) ∧
       (s.coel.dpen = true → s.works = true → exec .packageReset s = .next (p.startFlush .perst)) ∧
       (s.flush.state = .flushing → exec .packageReset s = .next { p with flush := { s.flush with after := .perst } })) ∧
     (s.reach = true → s.flush.state ≠ .flushing →
       (s.coel.dpen = false ∨ s.works = false → exec (.rstCtl 0xB1C10001) s = .next (s.packageReset .rstCtl)) ∧
       (s.coel.dpen = true → s.works = true → exec (.rstCtl 0xB1C10001) s = .next (s.startFlush .rstCtl))) ∧
     (∀ v, v ≠ 0xB1C10001#32 → exec (.rstCtl v) s = .next s)) ∧
  (∀ s : State, s.boot.stage ≠ .reset → s.fcu.safe = false →
     exec .pfFunctionLevelReset s = .next s.flrPf.settle ∧
     (∀ k, k < 16 → s.pcie.vfEnable = true → exec (.functionLevelReset k) s = .next (s.flrVf k).settle) ∧
     (s.pcie.vfEnable = true → exec .vfEnableClear s = .next s.flrVfs.settle) ∧
     (s.pcie.trained = true → exec .pcieLinkReset s = .next s.linkReset.settle) ∧
     (∀ k, k < 16 → (k + 1 < s.mbx.length → (s.flrVf k).mailbox (k + 1) = (s.mailbox (k + 1)).blockReset) ∧
       (∀ r ∈ (s.flrVf k).coel.running, r.2.req.mb ≠ k + 1) ∧ (∀ x ∈ (s.flrVf k).pcie.unmasked, x.1 ≠ k + 1) ∧
       ∀ q pf, q < 1048576 →
         ((s.pipe.flrEntries k (s.pipe.flrQueues k pf)).queue (k * 1048576 + q)).flrHits pf = false) ∧
     (s.flrPf.pcie.vfEnable = false ∧ s.flrPf.dbg.injEn = false ∧ s.linkReset.pcie.trained = false ∧
       s.linkReset.coel.dpen = s.coel.dpen))

/-- What State.reset holds that the spec states (R86, R90, R546, R549, R555, R590 to R592, R610, R621, R663, R668). That
memory lists nothing is the model's choice (log entry 8). -/
def Obligations.ResetValues : Prop :=
  let s := State.reset
  s.mer.now = 0 ∧ s.mer.state = .unsynced ∧ s.mer.pub = 0 ∧ s.mer.pend = 1 ∧ s.mer.eph = [] ∧ s.mer.ptp.offset = 0 ∧
  s.mer.holdLim = 0x32 ∧ s.mer.watchN = 0xA ∧ s.mer.ptpEn = false ∧ s.mer.delayComp = 0 ∧
  (∀ k, k < 16 → s.pipe.fenced k = true ∧ (s.pipe.part k).ueBits = 0 ∧ (s.pipe.part k).ce = 0 ∧ (s.pipe.part k).trapCnt = 0) ∧
  s.fcu.bits = 0 ∧ s.fcu.react = [] ∧ s.fcu.alert = false ∧
  s.coel.state = .rom ∧ s.coel.dpen = false ∧ s.coel.wdcnt = 0 ∧ s.nodeReady = false ∧ s.boot.stage = .reset ∧
  (∀ m, m < 17 → (s.mailbox m).en = false ∧ (s.mailbox m).rqCidx = 0 ∧ (s.mailbox m).rsPidx = 0) ∧
  s.dbg.injEn = false ∧ s.dbg.ir = 0x01 ∧ s.sb.func = 0 ∧ s.sb.oe = 0 ∧ s.pipe.jobs = [] ∧ s.pipe.hbm = [] ∧
  s.pipe.plate = [] ∧ s.pending = []

/-! ## Boot, restarts and the flush (chapters 13, 17 and 20) -/

/-- The boot stages in their order (R86, R420, R598, R610, R615 to R622, R629, R635), each taken from the stage before it.
What the rows of training carry, and how the checkpoint and the logs are taken up, are the model's readings (log entries 63
to 66). -/
def Obligations.BootRows : Prop :=
  ∀ s : State,
    (s.pwr.good = true → s.flush.state ≠ .flushing → s.boot.stage = .reset → exec .bootStart s = .next
      { s with pwr := { s.pwr with perst := false }, boot := { s.boot with stage := .rom } }) ∧
    (s.works = true → ∀ b, s.boot.stage = .rom →
      let r := romChoose { s.nor with present := b } s.boot.trialExpired
      (∀ slot, r.start = some slot → exec (.norRead b) s =
        .next { s.romEnd r with boot := { (s.romEnd r).boot with stage := .fwStart } }) ∧
      (r.start = none → exec (.norRead b) s = .next (s.romEnd r))) ∧
    (s.works = true → s.boot.stage = .fwStart → exec .fwStart s = .next { s.showImage.takeSettings with
      coel := { s.coel with state := .training },
      boot := { s.showImage.takeSettings.boot with stage := .clocks, entropy := false } }) ∧
    (s.works = true → s.boot.stage = .clocks → exec (.clocks []) s = .next (({ s with
      d2d := d2dReset.map (fun l => { l with trained := true }), sb := s.sb.writeFunc s.settings.sbFunc,
      boot := { s.boot with stage := .hbm }, pwr := s.pwr.ungate } : State).raise []).settle) ∧
    (s.works = true → s.boot.stage = .hbm → ∀ bad, exec (.hbm bad) s =
      .next (({ s with pipe := { s.pipe with hbm := [], poison := [] }, boot := { s.boot with stage := .flash } } : State).failTraining
        (bad.filter (· < 16)))) ∧
    (s.works = true → s.boot.stage = .flash → s.pipe.nand.record = none → ∀ found, found.luns ∈ [64, 32, 16] →
      exec (.flash [] found) s = .next (({ s with
      mer := { s.mer with pub := 0, pend := 1 }, pipe := s.pipe.flashStage found s.settings.pair,
      flush := { s.flush with lastOutcome := 0, lastAlarms := 0 }, boot := { s.boot with stage := .restore } } : State).raise []).settle) ∧
    (s.works = true → s.boot.stage = .flash → ∀ found pub a inc, found.luns ∈ [64, 32, 16] →
      s.pipe.nand.record = some (pub, a, inc) → exec (.flash [] found) s = .next (({ s with
        mer := { s.mer with pub := pub, pend := pub + 1 }, pipe := s.pipe.flashStage found s.settings.pair,
        flush := { s.flush with lastOutcome := if inc then 2 else 1, lastAlarms := a },
        boot := { s.boot with stage := .restore } } : State).raise []).settle) ∧
    (s.works = true → s.boot.stage = .restore → exec .restore s = .next { s with
      pipe := (s.pipe.restore s.mer.pub).mapRead, boot := { s.boot with stage := .ready },
      nor := if s.nor.cb.state (!s.nor.cb.active) = .complete then (s.nor.verifySlot (!s.nor.cb.active)).1 else s.nor }) ∧
    (s.works = true → s.boot.stage = .ready → s.coel.state = .training → s.fcu.clearOfSafe = true →
      ∃ t, exec .ready s = .next t ∧ t.coel.state = .ready ∧ t.pipe.parts.length = s.pipe.parts.length ∧
        ∀ k, k < s.pipe.parts.length → (s.pipe.part k).trained = true →
          (t.pipe.part k).st = .serving ∧ (t.pipe.part k).pub = s.mer.pub ∧ (t.pipe.part k).pend = s.mer.pend)

/-- The flush (R131, R422 to R425, R595, R612, R620): HOLDUP with the data path enabled starts it, each partition's parts end
in order, and the flush record holds the published epoch and the alarms; then the reset that waited takes effect. -/
def Obligations.FlushRows : Prop :=
  ∀ s : State,
    (s.works = true → s.pwr.good = true →
      let s1 := ({ s with flush := { s.flush with holdup := true } } : State)
      (s.coel.dpen = true → exec (.holdup true) s = .next (s1.startFlush .stay)) ∧
      (s.coel.dpen = false → exec (.holdup true) s = .next s1.holdInert)) ∧
    exec (.holdup false) s = .next { s with flush := { s.flush with holdup := false } } ∧
    (s.flush.state = .flushing →
      (∀ k n, s.flush.parts[k]? = some n → n < 3 → exec (.flushPartDone k) s = .next { s with
        pipe := s.pipe.flushed k n, flush := { s.flush with parts := setNth s.flush.parts k (n + 1) } }) ∧
      ((∀ n ∈ s.flush.parts, n = 3) →
        let s1 := ({ s with
          pipe := s.pipe.flushPage s.mer.pub s.flush.alarms,
          flush := { s.flush with state := .done, inertDone := true } } : State)
        (s.flush.after = .stay → s.fcu.parityWaits = false → exec .flushRecord s = .next s1) ∧
        (s.flush.after = .stay → s.fcu.parityWaits = true → exec .flushRecord s = .next s1.enterSafe) ∧
        (s.flush.after = .perst → exec .flushRecord s = .next (s1.packageReset .perst)) ∧
        (s.flush.after = .rstCtl → exec .flushRecord s = .next (s1.packageReset .rstCtl))))

/-- The restarts of the Coelostat (R548, R557, R558, R637, R639): the watchdog counts and abandons what has not committed, an
activation runs the new slot's image, and both tell every enabled mailbox when COEL_STAT is READY again. The state that a
fallback passes and what an activation window abandons are the model's readings (log entries 56 and 58). -/
def Obligations.CoelostatRestarts : Prop :=
  ∀ s : State,
    (s.works = true → s.coel.state ≠ .rom → (s.raise [260]).fcu.safe = false → (s.raise [260]).storeUp = true →
      let s1 := s.raise [260]
      let s2 := ({ s1 with coel := { s1.coel with wdcnt := satAdd s1.coel.wdcnt 1 } } : State).abandonAll
      s2.boot.trial = false → exec .watchdogRestart s =
        .next (({ s2 with coel := { s2.coel with state := .restarting } } : State)).settle) ∧
    (s.works = true → s.boot.stage = .serving → s.coel.state = .restarting → s.boot.fellBack = false →
      exec .coelRestart s =
        .next (({ s.showImage with coel := { s.coel with state := .ready } } : State).eventAll 3).settle) ∧
    (s.works = true → s.boot.stage = .serving → s.coel.state = .activating →
      exec .activated s =
        .next (({ s.showImage with coel := { s.coel with state := .ready } } : State).eventAll 4).takeSettings.settle) ∧
    (s.owed = 5 →
      let s2 := ({ s.abandonAll with
        nor := s.abandonAll.nor.writeCb s.abandonAll.nor.cb.activate,
        boot := { s.abandonAll.boot with
          window := none, openNow := false, wdInTrial := false,
          servedBefore := (List.range 16).filter (fun k => (s.pipe.part k).st == .serving) } } : State)
      let r := romChoose s2.nor false
      s.abandonAll.coel.running = [] ∧
      (∀ slot, r.start = some slot → s2.boot.stage ≠ .recovery → exec .activationWindow s =
        .next ({ s2.romEnd r with coel := { s2.coel with state := .activating } } : State).settle) ∧
      (r.start = none → exec .activationWindow s = .next (s2.romEnd r).settle)) ∧
    (s.boot.trialRun = true → s.pwr.good = true →
      let s1 := ({ s with boot := { s.boot with trialRun := false, trialExpired := true } } : State)
      (s.works = false → exec .trialExpired s = .next s1) ∧
      (s.works = true → s.coel.state ≠ .rom → exec .trialExpired s = .next s1.abandonAll.fromNor.settle))

/-! ## Faults, limits and pins (chapters 19 and 21) -/

/-- R590, R591, R593: the reactions to one source whose bit was 0, outside the flush: record sets the bit only; interrupt
also signals vector 1 of the PF; fence also fences the source's partition; safe state also enters the safe state. Bits that
set together react together (log entry 69). -/
def Obligations.FaultReactions : Prop :=
  ∀ (s : State) (x : Nat), x < 512 → s.flush.state ≠ .flushing →
    let s1 := ({ s with fcu := { s.fcu with bits := s.fcu.bits ||| (1#512 <<< x) } } : State)
    (s.fcu.has x = true → s.raise [x] = s) ∧
    (s.fcu.has x = false → s1.fcu.has x = true ∧
      (s.fcu.reaction x = .record → s.raise [x] = s1) ∧
      (s.fcu.reaction x = .interrupt → s.raise [x] = s1.msix 0 1) ∧
      (s.fcu.reaction x = .fence → s.raise [x] = (s1.msix 0 1).fence (x / 16) (some x)) ∧
      (s.fcu.reaction x = .safe → s.raise [x] = (s1.msix 0 1).enterSafe))

/-- The limits (R606 to R608, R656, R657): while PWR_GOOD is high each sets its source with what the limits block holds. -/
def Obligations.LimitRows : Prop :=
  ∀ s : State, s.pwr.good = true →
    let at_ := fun (p : Power) (srcs : List Nat) => (({ s with pwr := p } : State).raise srcs).settle
    (∀ d t, d < 6 → 115 ≤ t → exec (.thermtrip d t) s = .next (at_ { s.pwr.throttle d t with trip := true } [398 + d])) ∧
    (∀ d t, d < 6 → 105 ≤ t → exec (.throttle d t) s = .next (at_ (s.pwr.throttle d t) [388 + d])) ∧
    (∀ d t a, s.pwr.thr.getD d false = true ∨ s.pwr.ilim.getD d false = true →
      exec (.throttleStep d t a) s = .next (at_ (s.pwr.throttleStep d t a) [])) ∧
    (∀ d a, d < 4 → 330 < a → exec (.currentLimit d a) s = .next (at_ { s.pwr with ilim := setNth s.pwr.ilim d true } [394 + d])) ∧
    (∀ k t, k < 16 → 95 ≤ t → exec (.hbmTemp k t) s = .next (at_ { s.pwr with hot := setNth s.pwr.hot k true } [16 * k + 7])) ∧
    (∀ k t, t < 93 → exec (.hbmTempClear k t) s = .next (at_ { s.pwr with hot := setNth s.pwr.hot k false } [])) ∧
    (∀ r, r < 9 → exec (.undervolt r) s = .next (at_ s.pwr [404])) ∧
    (∀ r, r < 10 → exec (.railFault r) s = .next (at_ s.pwr [378 + r])) ∧
    (∀ k, k < 16 → s.boot.stage ≠ .reset → (s.pipe.part k).power = true → s.coel.state = .ready →
      exec (.domainPower k) s = .next (at_ s.pwr [16 * k + 9])) ∧
    (s.boot.stage ≠ .reset → s.fcu.safe = false → exec .pcieFatal s = .next (at_ s.pwr [259])) ∧
    (s.works = true → s.coel.state ≠ .rom →
      exec .entropyReady s = .next { s with boot := { s.boot with entropy := true } } ∧
      exec .entropyFail s = .next ((({ s with boot := { s.boot with entropy := false } } : State).raise [262]).settle)) ∧
    (s.fcu.safe = true → s.fcu.safeIdle = false → ∃ t, exec .safeStateFlashIdle s = .next t ∧ t.fcu.safeIdle = true ∧
      t.pwr = s.pwr.gateSafe ∧ t.mer = s.mer ∧ t.nor = s.nor ∧ t.out = s.out)

/-- PWR_GOOD, the reference clocks, the die-to-die links and the margins (R544, R599 to R605, R649, R657). The PCIe rows
(R52, R538, R539, R541): training, VF Enable, Bus Master Enable with D3hot, and an unmask; what waited for one of them goes
out. The links (R486 to R488, R531): LINK_DOWN moves or fails the connections and sets fault source 320 + n, LINK_UP needs a
link of the mode without a fault, and a link answers ARP and Neighbor Discovery itself. LINK_UP shows that FAB_REFCLK is
back, and a failed lane counts in its module: the model's choice and reading (log entries 121 and 77). -/
def Obligations.ClockAndLinkRows : Prop :=
  (∀ s : State,
     (∀ bad, s.pwr.good = false → exec (.pwrGood bad) s =
       .next ((({ s with pwr := { s.pwr with good := true } } : State).raise ((bad.filter (· < 10)).map (· + 378))).settle)) ∧
     (s.pwr.pcieClk = true → s.pcie.trained = false → exec .pcieRefclkLoss s =
       .next { s with pwr := { s.pwr with pcieClk := false, onHold := true } }) ∧
     (s.pwr.pcieClk = true → s.pcie.trained = true → s.boot.stage ≠ .reset → s.fcu.safe = false → exec .pcieRefclkLoss s =
       .next (({ s with pwr := { s.pwr with pcieClk := false, onHold := true } } : State).linkReset).settle) ∧
     exec .pcieRefclkReturn s = .next { s with pwr := { s.pwr with pcieClk := true, onHold := false } } ∧
     (s.pwr.fabClk = true → let ups := (List.range 32).filter (fun n => (s.fab.link n).up)
       exec .fabRefclkLoss s = .next (((ups.foldl State.dropLink { s with pwr := { s.pwr with fabClk := false } }).raise
         (ups.map (· + 320))).settle)) ∧
     (∀ l m lane x fs, s.pwr.good = true → s.d2d[l]? = some x → x.trained = true → x.failed[m]? = some fs → lane < 66 → lane ∉ fs →
       (x.failLane m lane).up = true → moduleState fs ≠ .down →
       exec (.laneFail l m lane) s = .next ((({ s with d2d := setNth s.d2d l (x.failLane m lane) } : State).raise [264 + l]).settle)) ∧
     (∀ l x, s.pwr.good = true → s.d2d[l]? = some x → x.up = true →
       let ls := setNth s.d2d l { x with dead := true }
       exec (.d2dDown l) s = .next ((({ s with d2d := ls } : State).raise ([276 + l] ++ unreachSources ls)).settle)) ∧
     (∀ kind idx v sp x, s.works = true → s.pwr.good = true → s.boot.stage = .serving → marginInfo kind idx = some (some sp, some x) →
       (kind = 1 → s.pipe.fenced (idx / 64) = false) → kind ≠ 2 →
       exec (.marginMeasure kind idx v) s = .next ((({ s with pwr := { s.pwr with
         margins := s.pwr.margins.set (kind * 65536 + idx) v } } : State).raise (if v < sp then [x] else [])).settle))) ∧
  (∀ s : State,
     (s.boot.stage ≠ .reset → s.fcu.safe = false → s.pwr.perst = false → s.pwr.good = true → s.pwr.pcieClk = true →
       s.pcie.detect = false →
       exec .pcieLinkTrained s = .next ({ s with pcie := { s.pcie with trained := true } } : State).release) ∧
     (s.reach = true →
       exec .vfEnableSet s = .next ({ s with pcie := { s.pcie with vfEnable := true } } : State).release ∧
       (∀ f b d, f ≤ 16 → (f = 0 ∨ s.pcie.vfEnable = true) → exec (.busMasterEnable f b d) s =
         .next ({ s with pcie := { s.pcie with bme := setNth s.pcie.bme f b, d3 := setNth s.pcie.d3 f d } } : State).release) ∧
       (∀ f v, f ≤ 16 → (f = 0 ∨ s.pcie.vfEnable = true) → v < (if f = 0 then 256 else 112) → (f, v) ∉ s.pcie.unmasked →
         exec (.msixVectorUnmask f v) s =
           .next ({ s with pcie := { s.pcie with unmasked := s.pcie.unmasked ++ [(f, v)] } } : State).release)) ∧
     (s.pcie.trained = false → s.reach = false)) ∧
  (∀ (s : State) (n : Nat), s.boot.stage ≠ .reset →
     (∀ a b c, exec (.localFault n a b c) s =
       .next { s with fab := s.fab.modLink n (fun l => { l with lfault := a, rfault := b, blockLoss := c }) }) ∧
     (n < 32 →
       let l := s.fab.link n
       (l.up = true → exec (.linkDown n) s = .next ((s.withFab (s.fab.linkDown n s.quiet)).raise [320 + n]).settle) ∧
       (l.up = false → exec (.linkDown n) s = .next s) ∧
       (l.up = false → l.exists_ = true → l.lfault = false → l.rfault = false → l.blockLoss = false →
         s.fab.squelched n s.quiet = false → exec (.linkUp n) s =
           .next { s with fab := s.fab.modLink n (fun l => { l with up := true }), pwr := { s.pwr with fabClk := true } }) ∧
       (∀ frame b, l.up = true → s.fab.squelched n s.quiet = false →
         let f := (s.fab.modLink n (fun l => { l with rx := l.rx + 1 })).modLink n (fun l => { l with tx := l.tx + 1 })
         (arpReply l.cfg frame = some b → exec (.arpRequest n frame) s = .next { s with fab := f, out := s.out ++ [.net n b] }) ∧
         (ndReply l.cfg frame = some b →
           exec (.neighborSolicitation n frame) s = .next { s with fab := f, out := s.out ++ [.net n b] }))))

/-! ## Mailbox commands (chapters 17 and 18) -/

/-- MBX_REQUEST_TAKE, CMD_START and DEFERRED_START (R437, R547, R549, R552, R555, R565, R568). What counts against the limits
and what stops a request are the model's readings (log entries 81 and 84). -/
def Obligations.MailboxRows : Prop :=
  ∀ s : State, s.works = true →
    (∀ m, m < 17 → s.canMaster m = true → (s.mailbox m).mayTake = true →
      exec (.mbxRequestTake m none) s = .next (s.modMbx m (fun b => { b with ringErr := true, stuck := true })) ∧
      ∀ bytes,
        let r : Request := { mb := m, slot := padTo 256 bytes, seq := s.coel.nextSeq }
        let t := ({ s with coel := { s.coel with nextSeq := s.coel.nextSeq + 1 } } : State).modMbx m (fun b =>
          { b with rqCidx := (b.rqCidx + 1) % 65536, outst := b.outst + 1 })
        (s.busyHint r = none → exec (.mbxRequestTake m (some bytes)) s =
          .next (t.modMbx m (fun b => { b with waiting := b.waiting ++ [r] }))) ∧
        (∀ h, s.busyHint r = some h → exec (.mbxRequestTake m (some bytes)) s = .next (t.answer r (Answer.busy h)))) ∧
    (∀ core r late, 0 < core → core < 8 → s.coel.state = .ready → s.coel.running.has core = false →
      s.nextOf s.coel.turn 17 = some (r, late) →
      let s1 := s.unqueue r
      let s2 := ({ s1 with coel := { s1.coel with turn := (r.mb + 1) % 17 } } : State)
      let s3 := if late then s2.result r .running stBUDGETWAIT 0 else s2
      let y : Running := { req := r, late := late, begun := false, pos := 0, tally := 0 }
      (knownOps.contains r.opcode = true →
        exec (.cmdStart core) s = .next { s3 with coel := { s3.coel with running := s3.coel.running.set core y } }) ∧
      (knownOps.contains r.opcode = false → (r.mb = 0 ∨ s.coel.dpen = true) →
        exec (.cmdStart core) s = .next (s2.answer r (Answer.of stNOCOMMAND))) ∧
      (knownOps.contains r.opcode = false → r.mb ≠ 0 → s.coel.dpen = false →
        exec (.cmdStart core) s = .next (s2.answer r (Answer.of stNOTENABLED)))) ∧
    (∀ r, s.serves = true → s.coel.running.has 0 = false → s.nextOfCore0 = some (r, false) → knownOps.contains r.opcode = true →
      let y : Running := { req := r, late := false, begun := false, pos := 0, tally := 0 }
      exec (.cmdStart 0) s = .next { s.unqueue r with coel := { s.coel with running := s.coel.running.set 0 y } }) ∧
    (s.coel.state = .ready → s.mer.watchDone = true → exec .deferredStart s = .next { s with mbx := s.mbx.map (fun b =>
      { b with deferred := b.deferred.map (fun d =>
        if d.parts.all (fun p => s.pipe.fenced p || !(s.pipe.part p).sched.short s.mer.now 8) then { d with ready := true } else d) }) })

/-- The first tests of R563, in their order: BUSY without the store, NOT_ENABLED, OUT_OF_SCOPE, NO_ENTROPY, FENCED; a command
that ends so has no effect but its response. Which commands need the store, and which are NOT_ENABLED on MBG too, are the
model's readings (log entries 87 and 171). -/
def Obligations.CommandGates : Prop :=
  ∀ (s : State) (core op : Nat) (x : Running) (g : State → Request → Gate) (f : State → Request → Bool → State × CmdEnd),
    s.coel.running.get? core = some x → x.req.opcode = op → s.serves = true → x.late = false →
    let g0 := g s x.req
    let ends := fun (a : Answer) => s.cmd core op g f = answers s core x a
    let lacksStore := g0.store = true ∧ s.coel.state = .ready ∧ s.storeUp = false
    let offScope := x.req.mb ≠ 0 ∧ (g0.scope = .g ∨ (g0.scope = .o ∧ g0.home ≠ x.req.mb - 1))
    let noEntropy := g0.entropy = true ∧ s.boot.entropy = false
    let off := (x.req.mb ≠ 0 ∨ g0.enabled = true) ∧ s.coel.dpen = false
    x.begun = false →
    (lacksStore → ends (Answer.busy 10000)) ∧ (¬lacksStore → off → ends (Answer.of stNOTENABLED)) ∧
    (¬lacksStore → ¬off → offScope → ends (Answer.of stSCOPE)) ∧
    (¬lacksStore → ¬off → ¬offScope → noEntropy → ends (Answer.of stNOENTROPY)) ∧
    (¬lacksStore → ¬off → ¬offScope → ¬noEntropy → (∃ k ∈ g0.targets, s.pipe.fenced k = true) → ends (Answer.of stFENCED))

/-- DP_ENABLE, PKG_STATUS, CORE_STATUS and CMD_RESULT, and the commands on Meridian time (R56, R72, R79, R84, R89, R571,
R621). The commands on shapers, transit lists and budgets (R466 to R484). That EPH_WRITE, TRN_WRITE and BUD_SET wait for the
events owed is the model's reading (log entry 88). -/
def Obligations.PackageCommands : Prop :=
  (∀ (s : State) (c : Nat) (h : HostData) (x : Running),
     let r := x.req
     let upd := fun (m : Meridian) => ({ s with mer := m } : State)
     (Served s c 0x0001 x (gateG s r) → exec (.dpEnable c h) s = .next (answers
       { s with
         coel := { s.coel with dpen := true }, boot := { s.boot with stage := .serving },
         pipe := s.pipe.sendMarkers s.unfencedList s.mer.pub } c x (Answer.ok []))) ∧
     (Served s c 0x0002 x (gateFree .a s r) → exec (.pkgStatus c h) s = .next (answers s c x (Answer.ok s.pkgStatus))) ∧
     (Served s c 0x0003 x (gateP false s r) → ∃ b, b.length = 48 ∧ exec (.coreStatus c h) s = .next (answers s c x (Answer.ok b))) ∧
     (Served s c 0x0004 x (gateFree .a s r) →
       ((∀ e ∈ (s.mailbox r.mb).results, e.token ≠ r.w 32) → exec (.cmdResult c h) s = .next (answers s c x (Answer.of stNOTFOUND))) ∧
       (∀ e, (s.mailbox r.mb).results.find? (fun e => e.token == r.w 32) = some e → exec (.cmdResult c h) s = .next (answers s c x
         (Answer.ok (leBytes 1 1 ++ leBytes 1 e.status ++ leBytes 2 e.opcode ++ leBytes 2 e.gen ++ leBytes 1 e.state.code))))) ∧
     (Served s c 0x0101 x (gateFree .g s r) → exec (.merLoadNext c h) s =
       .next (answers (upd { s.mer with loaded := some (r.d 32) }) c x (Answer.ok (leBytes 8 s.mer.now)))) ∧
     (Served s c 0x0102 x (gateFree .g s r) → exec (.merConfig c h) s = .next (answers (upd (s.mer.writeCfg (r.w 32))) c x (Answer.ok []))) ∧
     (Served s c 0x0103 x (gateFree .g s r) → exec (.ptpConfig c h) s =
       .next (answers (upd { s.mer with ptp := s.mer.ptp.configure (min (r.b 32) 127) (r.d 40) }) c x (Answer.ok []))) ∧
     (Served s c 0x0104 x (gateFree .g s r) →
       (4095 < r.h 32 → exec (.ephWrite c h) s = .next (answers s c x (Answer.of stNOTFOUND))) ∧
       (r.h 32 ≤ 4095 → 4 < s.owed → 
         let e : EphEntry :=
           { time := r.d 48, epoch := r.e 56, state := if field r.slot 496 2 = 1 then .armed else .empty, late := false, wrote := s.mer.now }
         exec (.ephWrite c h) s = .next (answers (upd { s.mer with eph := s.mer.eph.set (r.h 32) e }) c x (Answer.ok [])))) ∧
     (Served s c 0x0105 x (gateFree .a s r) →
       (4095 < r.h 32 → exec (.ephRead c h) s = .next (answers s c x (Answer.of stNOTFOUND))) ∧
       (r.h 32 ≤ 4095 → exec (.ephRead c h) s = .next (answers s c x (Answer.ok ((List.range (min (count1 (r.b 34)) 14)).flatMap
         (fun i => (s.mer.slot ((r.h 32 + i) % 4096)).bytes))))))) ∧
  (∀ (s : State) (c : Nat) (h : HostData) (x : Running),
     let r := x.req
     let q := (s.pipe.part r.part).sched
     (Served s c 0x0301 x (gateP true s r) → r.h 32 ≠ 0 → exec (.shpSet c h) s = .next (answers (s.modScheds r (fun y =>
       { y with shapers := y.shapers.set (r.h 32) ((y.shaper (r.h 32)).set (r.w 36) (r.w 40) (s.mer.now / 1000)) })) c x (Answer.ok []))) ∧
     (Served s c 0x0301 x (gateP true s r) → r.h 32 = 0 → exec (.shpSet c h) s = .next (answers s c x (Answer.of stNOTFOUND))) ∧
     (Served s c 0x0302 x (gateP false s r) → r.h 32 ≠ 0 →
       let y := (q.shaper (r.h 32)).refill (s.mer.now / 1000)
       exec (.shpRead c h) s = .next (answers (s.modScheds r (fun z => { z with shapers := z.shapers.set (r.h 32) y })) c x
         (Answer.ok y.bytes))) ∧
     (∀ b, Served s c 0x0303 x (gateP true s r) → r.buffer h (8 * min (r.b 40) 64) = some b →
       let l : TList := { t := r.d 32, wins := decodeWindows (min (r.b 40) 64) b, wrote := s.mer.now }
       ((∃ k ∈ r.targets, (s.pipe.part k).sched.writeList l = none) → exec (.trnWrite c h) s = .next (answers s c x (Answer.of stTRNFULL))) ∧
       ((∀ k ∈ r.targets, ((s.pipe.part k).sched.writeList l).isSome = true) → 3 < s.owed → exec (.trnWrite c h) s =
         .next (answers (s.modScheds r (fun y => (y.writeList l).getD y)) c x (Answer.ok [])))) ∧
     (Served s c 0x0303 x (gateP true s r) → r.buffer h (8 * min (r.b 40) 64) = none →
       exec (.trnWrite c h) s = .next (answers s c x (Answer.of stHOST))) ∧
     (Served s c 0x0304 x (gateP false s r) → r.b 32 = 0 →
       let w := s.toBuffer r h (q.current.wins.flatMap TWindow.bytes)
       exec (.trnRead c h) s = .next (answers w.1 c x (bufferAnswer w.2
         (leBytes 8 q.current.t ++ leBytes 1 q.current.wins.length ++ leBytes 1 1)))) ∧
     (Served s c 0x0305 x (gateP true s r) → 3 < s.owed → exec (.budSet c h) s = .next (answers (s.modScheds r (fun y =>
       (List.range 45).foldl (fun y i => if bitOf (r.d 32) i then y.setBudget (i / 5) (i % 5) (r.w (40 + 4 * i)) s.mer.now else y) y))
       c x (Answer.ok []))) ∧
     (Served s c 0x0306 x (gateP false s r) →
       let w := s.toBuffer r h (q.budgets.flatMap (fun b =>
         packBytes 16 [(32, (b.settle s.mer.now).value), (48, b.use), (8, b.age), (40, 0)]))
       exec (.budRead c h) s = .next (answers w.1 c x (bufferAnswer w.2 []))))

/-- The queue commands (R445 to R449). Each is made on the entry under its generation number and answers with the GEN that
results; a stale GEN changes nothing, and a change in a state without a row for it answers BAD_STATE. On the entry and state
of its row each has its own effect: QUE_CREATE makes a FREE entry from the image, ENABLED or PAUSED; QUE_MODIFY writes the
fields that it may; QUE_PAUSE takes an ENABLED queue from the active list, and QUE_RESUME puts a PAUSED one back when it is
ready; QUE_DESTROY leaves an entry FREE, or DRAINING while jobs are outstanding; QUE_RESET frees any entry, marks the jobs of a
submission queue and drops the entries that wait for a COMP queue. QUE_READ answers the entry, and QRY_ABORT (R125) names a
dispatched job, a fetched slot or a slot not fetched yet by its TAG; what matches nothing is TOO_LATE. QUE_MODIFY and QUE_PAUSE on
the active list, QUE_RESET of a batch queue, and which job of a slot is meant, are the model's readings (log entries 137, 138
and 172). -/
def Obligations.QueueCommands : Prop :=
  (∀ (s : State) (c : Nat) (h : HostData) (x : Running),
     let r := x.req
     let q := r.q 32
     let p := s.pipe.touchQueue q
     let e := p.queue q
     let gen := (e.gen + 1) % 65536
     let set := fun (e1 : AlmEntry) => p.setQueue q { e1 with gen := gen }
     let ok := fun (t : Pipe) => answers (withPipe s t) c x { status := stOK, gen := gen }
     let no := fun (st : Nat) => answers (withPipe s p) c x { status := st, gen := e.gen }
     let turned := fun (op : Nat) (i : Instr) (unfit : Prop) => Served s c op x (gateQ true s r) →
       (r.gen ≠ e.gen → exec i s = .next (no stSTALE)) ∧ (r.gen = e.gen → unfit → exec i s = .next (no stBADSTATE))
     turned 0x0201 (.queCreate c h) (e.state ≠ .free) ∧ turned 0x0202 (.queModify c h) (e.state = .free) ∧
     turned 0x0203 (.quePause c h) (e.state ≠ .enabled) ∧ turned 0x0204 (.queResume c h) (e.state ≠ .paused) ∧
     turned 0x0205 (.queDestroy c h) (e.state ≠ .enabled ∧ e.state ≠ .paused) ∧ turned 0x0206 (.queReset c h) (e.state = .free) ∧
     (Served s c 0x0201 x (gateQ true s r) → r.gen = e.gen → e.state = .free →
       let new := (AlmEntry.zero.takeFixed r.image).takeRest r.image
       exec (.queCreate c h) s = .next (ok ((set { new with
         state := if r.b 35 = 1 then .paused else .enabled, cphase := true }).unlist q))) ∧
     (Served s c 0x0202 x (gateQ true s r) → r.gen = e.gen → e.state ≠ .free →
       exec (.queModify c h) s = .next (ok (set (e.takeRest r.image)))) ∧
     (Served s c 0x0203 x (gateQ true s r) → r.gen = e.gen → e.state = .enabled →
       exec (.quePause c h) s = .next (ok ((set { e with state := .paused }).delist q))) ∧
     (Served s c 0x0204 x (gateQ true s r) → r.gen = e.gen → e.state = .paused →
       exec (.queResume c h) s = .next (ok ((set { e with state := .enabled }).enlist q))) ∧
     (Served s c 0x0205 x (gateQ true s r) → r.gen = e.gen → e.state = .enabled ∨ e.state = .paused →
       exec (.queDestroy c h) s = .next (ok ((set { e with
         state := if e.outst = 0 then .free else .draining, fetched := [] }).unlist q))) ∧
     (Served s c 0x0206 x (gateQ true s r) → r.gen = e.gen → e.state ≠ .free →
       let t := (set { e with state := .free, fetched := [] }).unlist q
       let kind := (s.pipe.queue q).kind
       (kind = .qsub ∨ kind = .isub → exec (.queReset c h) s = .next (ok (((t.jobs.filter (fun j =>
         j.2.queue == q && j.2.peer.isNone)).map Prod.fst).foldl Pipe.markAbort t))) ∧
       (kind = .comp → exec (.queReset c h) s = .next (ok (t.dropComps q))) ∧
       (kind = .frecv → exec (.queReset c h) s = .next (ok t))) ∧
     (Served s c 0x0207 x (gateQ false s r) → exec (.queRead c h) s = .next (answers (withPipe s p) c x
       { status := stOK, gen := e.gen, payload := List.replicate 32 0#8 ++ e.image }))) ∧
  (∀ (s : State) (c : Nat) (h : HostData) (x : Running), Served s c 0x0208 x (gateQ false s x.req) →
     let r := x.req
     let q := r.q 32
     let slot := r.h 36
     let tag := r.d 40
     let p := s.pipe
     let e := p.queue q
     let ends := fun (t : Pipe) (st hint : Nat) => exec (.qryAbort c h) s = .next (answers (withPipe s t) c x { status := st, hint := hint })
     let job := p.jobs.find? (fun j => j.2.queue == q && j.2.slot == slot && j.2.peer.isNone && j.2.tag == tag)
     let held := e.fetched.find? (fun f => f.slot == slot && !f.aborted)
     let ahead := (slot + e.size - e.cidx % e.size) % e.size
     let waits := slot < e.size ∧ ahead < e.occupied ∧ e.fetchedSlots ≤ ahead
     (∀ n j, job = some (n, j) →
       (j.batch = true ∧ j.counted = true → ends p stTOOLATE 0) ∧
       (¬(j.batch = true ∧ j.counted = true) → ends (p.markAbort n) stOK 0)) ∧
     (job = none → e.isSub = false ∨ e.state = .free → ends p stTOOLATE 0) ∧
     (∀ f, job = none → e.isSub = true → e.state ≠ .free → held = some f →
       (e.tagOf f.desc ≠ tag → ends p stTOOLATE 0) ∧
       (e.tagOf f.desc = tag →
         let mark := fun (y : AlmEntry) => ({ y with
           fetched := y.fetched.map (fun z => if z.slot = slot then { z with aborted := true } else z) } : AlmEntry).dropAborted 65536
         ends (((p.entryEnd q f).modQueue q mark).passAborts q e.cidx) stOK 0)) ∧
     (job = none → e.isSub = true → e.state ≠ .free → held = none →
       let k := queuePart q
       (¬waits → ends p stTOOLATE 0) ∧
       (waits → 16 ≤ (p.part k).alm.aborts.length → ends p stBUSY 10) ∧
       (waits → (p.part k).alm.aborts.length < 16 → ends (p.modPart k (fun y =>
         { y with alm := { y.alm with aborts := y.alm.aborts ++ [(q, slot, tag)] } })) stOK 0))) ∧
  (∀ (p : Pipe) (q gen : Nat) (f : AlmEntry → Option AlmEntry),
     let e := (p.touchQueue q).queue q
     (gen ≠ e.gen → p.almChange q gen f = (p.touchQueue q, stSTALE, e.gen)) ∧
     (gen = e.gen → f e = none → p.almChange q gen f = (p.touchQueue q, stBADSTATE, e.gen)) ∧
     (∀ e1, gen = e.gen → f e = some e1 →
       p.almChange q gen f = ((p.touchQueue q).setQueue q { e1 with gen := (e.gen + 1) % 65536 }, stOK, (e.gen + 1) % 65536)) ∧
     (e.pause.isSome = true ↔ e.state = .enabled) ∧ (e.resume.isSome = true ↔ e.state = .paused) ∧
     (∀ b i, (e.create b i).isSome = true ↔ e.state = .free) ∧ (∀ i, (e.modify i).isSome = true ↔ e.state ≠ .free) ∧
     (e.destroy.isSome = true ↔ e.state = .enabled ∨ e.state = .paused) ∧ (e.reset.isSome = true ↔ e.state ≠ .free) ∧
     (∀ y, e.destroy = some y → y.state = if e.outst = 0 then .free else .draining) ∧
     (∀ b i y, e.create b i = some y → y.state = (if b then .paused else .enabled) ∧ y.cphase = true ∧ y.pidx = 0 ∧ y.cidx = 0))

/-- The commands on indexes, filters and embedding tables (R97, R283, R296, R308, R310, R317, R349, R350, R385, R568), once
the pages that they read are there and MANAGEMENT is not short: the handle that IDX_LOAD sets names a new copy of the
descriptor, the parameter block, the centroid rows and their norms. A handle, filter or table number out of range, or a
handle that is not loaded, answers NOT_FOUND.
The commands that load programs (R140, R163, R253, R254, R562, R573): HLEN 0 empties a slot, and a buffer that cannot be read
changes nothing. Where these commands wait and what they charge are the model's readings and choices (log entries 91, 95, 97,
98 and 99). -/
def Obligations.IndexAndProgramCommands : Prop :=
  (∀ (s : State) (c : Nat) (h : HostData) (x : Running),
     let r := x.req
     let p := s.pipe
     let ok := fun (t : Pipe) (b : List Byte) => answers (withPipe s t) c x (Answer.ok b)
     let no := fun (st : Nat) => answers s c x (Answer.of st)
     let rs := p.coarseRanges (r.d 40)
     let y := p.idxCopy (r.h 32) (r.d 40)
     (Served s c 0x0401 x (gateObj s r) → 0xFF < r.h 32 → exec (.idxLoad c h) s = .next (no stNOTFOUND)) ∧
     (Served s c 0x0401 x (gateObj s r) → r.h 32 ≤ 0xFF → Ample s s.unfencedList → p.rangesOpen rs = true →
       p.rangesOpen [y.listRange] = true → p.rangesOpen (p.tabRanges y) = true →
       let t := p.loadIdx (r.h 32) (r.d 40) rs
       exec (.idxLoad c h) s = .next (ok t []) ∧ t.handles = p.handles.set (r.h 32) p.nextLoad ∧ t.nextLoad = p.nextLoad + 1 ∧
         ∃ i, t.index (r.h 32) = some i ∧ i.desc = y.desc ∧ i.drp = y.drp ∧ i.book = y.book ∧ i.rows = y.rows ∧ i.norms = y.norms) ∧
     (Served s c 0x0402 x (gateG s r) → p.handles.has (r.h 32) = false → exec (.idxUnload c h) s = .next (no stNOTFOUND)) ∧
     (Served s c 0x0402 x (gateG s r) → p.handles.has (r.h 32) = true →
       let gone := fun (q : Part) => { q with
         sched := { q.sched with ests := q.sched.ests.erase (r.h 32) }, compQueue := q.compQueue.filter (fun t => t.1 != r.h 32) }
       let t := { p with handles := p.handles.erase (r.h 32), cacheTier := p.cacheTier.erase (r.h 32), parts := p.parts.map gone }
       exec (.idxUnload c h) s = .next (ok t.sweep [])) ∧
     (Served s c 0x0403 x (gateG s r) → p.handles.has (r.h 32) = true → exec (.idxTier c h) s =
       .next (ok { p with cacheTier := p.cacheTier.set (r.h 32) (r.d 40, r.d 48, r.w 56) } [])) ∧
     (Served s c 0x0404 x (gateP true s r) → p.index (r.h 32) = none → exec (.idxCompact c h) s = .next (no stNOTFOUND)) ∧
     (∀ i, Served s c 0x0404 x (gateP true s r) → p.index (r.h 32) = some i → p.rangesOpen [i.listRange] = true →
       p.rangesOpen (p.tabRanges i) = true →
       let mine := fun (k : Nat) => (p.compactTargets i k (r.w 36)).map (fun t => (r.h 32, t))
       exec (.idxCompact c h) s = .next (ok (r.targets.foldl (fun p k => p.modPart k (fun q =>
         { q with compQueue := q.compQueue ++ (mine k).filter (fun t => !q.compQueue.contains t) })) p)
         (leBytes 4 ((r.targets.map (fun k => (mine k).length)).foldl (· + ·) 0)))) ∧
     (Served s c 0x0405 x (gateG s r) →
       let t := { p with oldest := max p.oldest (min (r.e 32) s.mer.pub) }
       exec (.epochRetain c h) s = .next (ok t (leBytes 6 t.oldestNow ++ leBytes 2 0 ++ leBytes 6 t.oldest))) ∧
     (Served s c 0x0406 x (gateG s r) → exec (.ckptConfig c h) s =
       .next (ok { p with ckptMs := r.w 32, ckptNow := p.ckptNow || fbit r.slot 288 } [])) ∧
     (∀ f on, (f = r.h 32) → f ≤ 4095 →
       let set := fun (q : Part) => { q with resident := (List.range 4096).filter (fun n =>
         if decide (f ≤ n) && decide (n < f + count1 (r.h 34)) then on else q.resident.contains n) }
       let t := r.targets.foldl (fun p k => p.modPart k set) p
       (Served s c 0x0407 x (gateP true s r) → on = true → exec (.fltLoad c h) s = .next (ok t [])) ∧
       (Served s c 0x0408 x (gateP true s r) → on = false → exec (.fltDrop c h) s = .next (ok t []))) ∧
     (4095 < r.h 32 → (Served s c 0x0407 x (gateP true s r) → exec (.fltLoad c h) s = .next (no stNOTFOUND)) ∧
       (Served s c 0x0408 x (gateP true s r) → exec (.fltDrop c h) s = .next (no stNOTFOUND))) ∧
     (Served s c 0x0409 x (gateObj s r) → x.pos = 0 → p.index (r.h 32) = none ∨ 4095 < r.h 34 →
       exec (.fltEdit c h) s = .next (no stNOTFOUND)) ∧
     (∀ i b, Served s c 0x0409 x (gateObj s r) → x.pos = 0 → p.index (r.h 32) = some i → r.h 34 ≤ 4095 → Ample s s.unfencedList →
       r.buffer h (8 * min (r.w 40) 65536) = some b →
       let ids := (List.range (min (r.w 40) 65536)).map (fun n => le64 b (8 * n))
       let dirs := (ids.filter (fun n => !p.sliceFenced i n)).flatMap i.dirRanges
       let plan := p.editPlan i ids
       p.rangesOpen dirs = true →
       p.pagesHere (plan.2.flatMap (fun g => p.pieceSpan g.1.1 g.1.2.1 g.1.2.2)).eraseDups = true →
       (∀ g ∈ plan.2, p.compacting g.1 = false) →
       let t := withPipe s ((dirs.foldl (fun p a => p.countIas a.1 a.2) p).issueEdits (4294967296 + r.seq) (r.h 34)
         (fbit r.slot 288) plan.2)
       let y := { x with begun := true, pos := 1, tally := plan.1 }
       exec (.fltEdit c h) s = .next ({ t with coel := { t.coel with running := t.coel.running.set c y } } : State).settle) ∧
     (s.coel.running.get? c = some x → r.opcode = 0x0409 → s.serves = true → x.late = false → x.begun = true →
       s.gate r true (gateObj s r) = none → x.pos = 1 → p.inFlight (4294967296 + r.seq) = false →
       let n := min (r.w 40) 65536
       let mine := fun (e : Nat × Nat × Bool) => e.1 == r.seq
       let made := ((p.edits.filter (fun e => mine e && e.2.2)).map (fun e => e.2.1)).foldl (· + ·) 0
       exec (.fltEdit c h) s = .next (ok { p with edits := p.edits.filter (fun e => !mine e) }
         (leBytes 4 made ++ leBytes 4 x.tally ++ leBytes 4 (n - made - x.tally)))) ∧
     (Served s c 0x040A x (gateObj s r) → 63 < r.h 32 → exec (.etabLoad c h) s = .next (no stNOTFOUND)) ∧
     (Served s c 0x040A x (gateObj s r) → r.h 32 ≤ 63 → Ample s s.unfencedList → p.rangesOpen [(r.d 40, 64)] = true →
       let b := p.iasRead (r.d 40) 64
       let rt := (le64 b 32, 16 * min (field b 192 7) 64)
       p.rangesOpen [rt] = true →
       let p1 := (p.countIas (r.d 40) 64).countIas rt.1 rt.2
       let p2 := { p1 with
         nextLoad := p1.nextLoad + 1, etabHandles := p1.etabHandles.set (r.h 32) p1.nextLoad,
         etabs := p1.etabs.set p1.nextLoad (decodeETab (r.h 32) b (p1.iasRead rt.1 rt.2)) }
       exec (.etabLoad c h) s = .next (ok (s.unfencedList.foldl (fun p k => p.count k 8 2 (64 + rt.2)) p2).sweep [])) ∧
     (Served s c 0x040B x (gateP true s r) → exec (.poolConfig c h) s = .next (ok (r.targets.foldl (fun p k => p.modPart k
       (fun q => { q with ordered := fbit r.slot 256, pfDepth := min (r.b 33) 8 })) p) [])) ∧
     (Served s c 0x0403 x (gateG s r) → p.handles.has (r.h 32) = false →
       exec (.idxTier c h) s = .next (no stNOTFOUND))) ∧
  (∀ (s : State) (c : Nat) (h : HostData) (x : Running), Ample s s.unfencedList →
     let r := x.req
     let p := s.pipe
     let ok := fun (t : Pipe) => answers (withPipe s t) c x (Answer.ok [])
     (∀ b, Served s c 0x0501 x (gateObj s r) → 1 ≤ r.b 32 → r.b 32 ≤ 15 → r.buffer h (min r.hlen 16384) = some b →
       let held := fun (v : Option (List Byte)) => { p with
         kernels := p.kernels.put (r.b 32) v,
         parts := p.parts.map (fun q =>
           if q.st = .serving then { q with core := { q.core with kernels := q.core.kernels.put (r.b 32) v } } else q) }
       (r.hlen ≠ 0 → exec (.krnLoad c h) s = .next (ok (held (some b)))) ∧
       (r.hlen = 0 → exec (.krnLoad c h) s = .next (ok (held none)))) ∧
     (Served s c 0x0501 x (gateObj s r) → 1 ≤ r.b 32 → r.b 32 ≤ 15 → r.buffer h (min r.hlen 16384) = none →
       exec (.krnLoad c h) s = .next (answers s c x (Answer.of stHOST))) ∧
     (Served s c 0x0501 x (gateObj s r) → r.b 32 = 0 ∨ 15 < r.b 32 →
       exec (.krnLoad c h) s = .next (answers s c x (Answer.of stNOTFOUND))) ∧
     (∀ b, Served s c 0x0502 x (gateG s r) → r.buffer h 4160 = some b →
       let img := decodeImage r.hlen b
       exec (.nbuLoad c h) s = .next (ok (s.unfencedList.foldl (fun p k => (List.range 64).foldl (fun p pc =>
         p.modNbu k pc (fun n => { n with nextImage := some img })) p) { p with image := img }))) ∧
     (Served s c 0x0502 x (gateG s r) → r.buffer h 4160 = none → exec (.nbuLoad c h) s = .next (answers s c x (Answer.of stHOST))) ∧
     (Served s c 0x0503 x (gateObj s r) → r.buffer h r.hlen = none → exec (.rnetLoad c h) s = .next (answers s c x (Answer.of stHOST))) ∧
     (∀ b, Served s c 0x0503 x (gateObj s r) → r.buffer h r.hlen = some b →
       (r.hlen ≠ 0 → exec (.rnetLoad c h) s = .next (ok (s.unfencedList.foldl (fun p k => p.count k 8 2 r.hlen)
         { p with rnets := p.rnets.set (r.b 32) (decodeRNet b) }))) ∧
       (r.hlen = 0 → exec (.rnetLoad c h) s = .next (ok { p with rnets := p.rnets.erase (r.b 32) }))))

/-- The commands on the index address space, its tiers and the flash (R367 to R376, R390, R404, R424, R574, R680): the pages
and bytes that each handled, answered with what it could not handle. IAS_ALLOC makes each UNMAPPED page ZERO with the HOME and
attributes asked for; IAS_FREE makes each mapped page UNMAPPED; IAS_WRITE puts the bytes at the frame of a page in HBM, which is
then DIRTY, and drops those of an UNMAPPED page; IAS_READ gives the bytes of pages that are there, 0 where no frame holds any;
IAS_ATTR clears attributes and then sets them. That a command keeps how far it has come, what it charges, and what TIER_STATUS
leaves out, are the model's readings (log entries 102, 103, 106 and 107). -/
def Obligations.TierCommands : Prop :=
  ∀ (s : State) (c : Nat) (h : HostData) (x : Running), x.pos = 0 → x.tally = 0 →
    let r := x.req
    let p := s.pipe
    let t := fun (q : Pipe) => withPipe s q
    let base := r.pages.1
    let n := r.pages.2
    (∀ q e a, Served s c 0x0601 x (gateIas true Request.pages (fun r => [field r.slot 352 4]) s r) →
      Ample s (p.homesOf r.pages ++ [field r.slot 352 4]) →
      p.allocLoop base (field r.slot 352 4) (r.b 45) n { pos := 0, new := 0, full := false } = (q, e, a) →
      let pay := leBytes 4 a.new ++ leBytes 4 (q.pagesIn base a.pos - a.new)
      (e = .done → exec (.iasAlloc c h) s = .next (answers (t q) c x { status := if a.full then stTIERFULL else stOK, payload := pay })) ∧
      (e = .noSpace → exec (.iasAlloc c h) s = .next (answers (t q) c x { status := stNOSPACE, payload := pay }))) ∧
    (Served s c 0x0601 x (gateIas true Request.pages (fun r => [field r.slot 352 4]) s r) →
      Ample s (p.homesOf r.pages ++ [field r.slot 352 4]) →
      let home := field r.slot 352 4
      let pgs := pagesNamed p r.pages
      ((∀ pg ∈ pgs, ∃ g, pg = .gen g) ∨ (∀ pg ∈ pgs, ∃ k pc f, pg = .bank k pc f)) → (∀ pg ∈ pgs, mayMap p home pg) →
      let y := pgs.foldl (allocEach home (r.b 45)) (p, 0, false)
      exec (.iasAlloc c h) s = .next (answers (t y.1) c x
        { status := if y.2.2 then stTIERFULL else stOK, payload := leBytes 4 y.2.1 ++ leBytes 4 (pgs.length - y.2.1) })) ∧
    (∀ home attr, attrPlate attr = false →
      let mapped := fun (e : TierEnt) => { e with st := .zero, pin := attrPin attr, discard := attrDiscard attr }
      (∀ g, p.allocPage (.gen g) home attr = (p.setTier (.gen g) { mapped (p.tier (.gen g)) with home := home }, false)) ∧
      (∀ k pc f, p.allocPage (.bank k pc f) home attr = (p.setTier (.bank k pc f) (mapped (p.tier (.bank k pc f))), false))) ∧
    (Served s c 0x0602 x (gateIas true Request.pages (fun _ => []) s r) → Ample s (p.homesOf r.pages) →
      (∀ pg ∈ pagesNamed p r.pages, untouched p pg) →
      let y := (pagesNamed p r.pages).foldl freeEach (p, 0)
      exec (.iasFree c h) s = .next (answers (t y.1.resume) c x (Answer.ok (leBytes 4 y.2)))) ∧
    (∀ k pc f, p.freePage (.bank k pc f) =
      let e := p.tier (.bank k pc f)
      let q := p.modFlash e.home (fun z => { z with
        progs := z.progs.erase (.page (.bank k pc f)),
        reads := z.reads.filter (fun d => match d with | .page w _ => w != .bank k pc f | _ => true) })
      (match e.loc with | some (ex, _) => q.liveDrop e.home ex 16 | none => q).setTier (.bank k pc f) TierEnt.none_) ∧
    (∀ q pos k, Served s c 0x0602 x (gateIas true Request.pages (fun _ => []) s r) → Ample s (p.homesOf r.pages) →
      p.freeLoop base n 0 0 = (q, .done, pos, k) → exec (.iasFree c h) s = .next (answers (t q.resume) c x (Answer.ok (leBytes 4 k)))) ∧
    (∀ b q pos dr, Served s c 0x0603 x (gateIas true Request.span (fun _ => []) s r) → Ample s (p.homesOf r.span) →
      r.buffer h r.hlen = some b → p.cmdWrite 0 (cutPages (b.length / 65536 + 2) (r.d 32) b) 0 0 = (q, .done, pos, dr) →
      exec (.iasWrite c h) s = .next (answers (t q) c x (Answer.ok (leBytes 4 (pos - dr) ++ leBytes 4 dr)))) ∧
    (∀ g b, Served s c 0x0603 x (gateIas true Request.span (fun _ => []) s r) → Ample s (p.homesOf r.span) →
      r.buffer h r.hlen = some b → b ≠ [] → iaddr p.variant64 (r.d 32) = .general g → g % 65536 + b.length ≤ 65536 →
      let pg := PageId.gen (g / 65536)
      let e := p.tier pg
      (e.st = .hbm ∨ e.st = .out → e.plate = false →
        let q := (p.setTier pg { e with st := .hbm, dirty := true, ref := true }).hbmWrite
          (hbmKey e.home e.pc (e.frame * 65536 + g % 65536)) b
        exec (.iasWrite c h) s = .next (answers (t (q.countIas (r.d 32) b.length)) c x
          (Answer.ok (leBytes 4 b.length ++ leBytes 4 0)))) ∧
      (e.st = .unmapped → exec (.iasWrite c h) s = .next (answers
        (t (p.modPart 0 (fun q => { q with dropped := q.dropped + 1 }))) c x (Answer.ok (leBytes 4 0 ++ leBytes 4 b.length))))) ∧
    (Served s c 0x0604 x (gateIas false Request.span (fun _ => []) s r) → Ample s (p.homesOf r.span) → h.isSome = true →
      0 < r.hlen → r.d 32 % 65536 + r.hlen ≤ 65536 → p.iasReady (r.d 32) r.hlen = true → p.poison = [] →
      let u := (t ((p.countIas (r.d 32) r.hlen).ref (r.d 32) r.hlen)).hostWrite r.mb r.haddr (p.iasRead (r.d 32) r.hlen)
      exec (.iasRead c h) s = .next (answers u c x { status := stOK, rlen := r.hlen })) ∧
    (∀ u pos, Served s c 0x0604 x (gateIas false Request.span (fun _ => []) s r) → Ample s (p.homesOf r.span) →
      (r.hlen = 0 ∨ h.isSome = true) → s.cmdRead r.mb r.haddr (cutRange (r.hlen / 65536 + 2) (r.d 32) r.hlen) 0 = (u, .done, pos) →
      exec (.iasRead c h) s = .next (answers u c x { status := stOK, rlen := pos })) ∧
    (∀ q pos full, Served s c 0x0605 x (gateIas true Request.pages (fun _ => []) s r) → Ample s (p.homesOf r.pages) →
      p.attrLoop base (r.b 44) (r.b 45) n 0 false = (q, .done, pos, full) →
      exec (.iasAttr c h) s = .next (answers (t q) c x (Answer.of (if full then stTIERFULL else stOK)))) ∧
    (Served s c 0x0605 x (gateIas true Request.pages (fun _ => []) s r) → Ample s (p.homesOf r.pages) → attrPlate (r.b 45) = false →
      exec (.iasAttr c h) s =
        .next (answers (t ((pagesNamed p r.pages).foldl (attrEach (r.b 44) (r.b 45)) p)) c x (Answer.of stOK))) ∧
    (∀ clr set, (∀ k pc f, let pg := PageId.bank k pc f
        p.attrPage pg clr set = (some (p.setTier pg (marked (p.tier pg) clr set)), p, false)) ∧
      (∀ g, let pg := PageId.gen g
        let q := p.setTier pg (marked (p.tier pg) clr set)
        let q1 := if (p.tier pg).plate = true ∧ attrPlate clr = true then q.clearPlate g else q
        attrPlate set = false → p.attrPage pg clr set = (some q1, q1, false))) ∧
    (Served s c 0x0606 x (gateP true s r) → exec (.tierConfig c h) s = .next (answers (t (r.targets.foldl (fun p k => p.modPart k
      (fun q => { q with migres := r.w 32, lowMark := r.w 36, idle := count1 (r.w 40) })) p)) c x (Answer.ok []))) ∧
    (Served s c 0x0607 x (gateP false s r) →
      let q := p.part r.part
      let sat := fun (n : Nat) => leBytes 4 (min n sat32Max)
      exec (.tierStatus c h) s = .next (answers s c x (Answer.ok (leBytes 4 (p.free r.part - q.migresOf) ++ sat q.dropped
        ++ sat q.exhaust ++ sat q.movesIn ++ sat q.writeBacks)))) ∧
    (Served s c 0x0701 x (gateG s r) →
      let q := { p with
        scrubDays := min (r.h 40) 365, ecpct := min (r.b 42) 90, wllim := max (r.h 44) 50, pecmax := r.w 48,
        dirtyMax := min (r.d 56) 2147483648 }
      let pair := (List.range 5).map (fun i => r.b (32 + i))
      (fbit r.slot 296 = false → exec (.flsConfig c h) s = .next (answers (t q) c x (Answer.ok []))) ∧
      (fbit r.slot 296 = true → exec (.flsConfig c h) s = .next (answers
        ((t { q with pair := if p.pair.isNone then some pair else p.pair }).storePair pair) c x (Answer.ok [])))) ∧
    (Served s c 0x0702 x (gateP false s r) →
      let f := p.flash r.part
      let sat := fun (n : Nat) => leBytes 4 (min n sat32Max)
      let tag := if 0 < f.loss ∧ r.q 32 ≠ 0xFFFFFF then f.durable.get? (r.q 32) else none
      exec (.flsStatus c h) s = .next (answers s c x (Answer.ok (sat f.retries ++ sat f.rebuilds ++ sat f.badLoc ++ leBytes 4 f.next
        ++ leBytes 4 f.freeCount ++ leBytes 2 f.pecs.1 ++ leBytes 2 f.pecs.2 ++ leBytes 8 (b2n (0 < f.loss) + 2 * b2n s.pairStored)
        ++ leBytes 8 (tag.getD 0) ++ leBytes 1 (b2n tag.isSome)))))

/-- The commands on fabric ports and on the objects of the fabric transport (R485, R492 to R496, R506, R526 to R529, R577).
The order of tests of BFT_CONN_CREATE and the limits on sizes are the model's readings (log entries 128 and 131); key pairs
and their results are free values (log entries 20 and 21). -/
def Obligations.FabricCommands : Prop :=
  ∀ (s : State) (c : Nat) (h : HostData) (x : Running),
    let r := x.req
    let f := s.fab
    let ok := fun (g : Fabric) => answers ({ s with fab := g } : State) c x (Answer.ok [])
    let no := fun (st : Nat) => answers s c x (Answer.of st)
    let mine := fun (pd : Nat) => r.mb = 0 ∨ pd / 4096 = r.mb - 1
    (Served s c 0x0801 x (gateG s r) → (∀ i, i < 4 → (f.link (4 * field r.slot 256 3 + i)).up = false) → exec (.fabPortConfig c h) s =
      .next (ok (f.setPort (field r.slot 256 3) (field r.slot 264 2) (fbit r.slot 272) ((List.range 4).map (fun i => r.b (36 + i)))
        (fun i => slice r.slot (48 + 48 * i) 48)))) ∧
    (Served s c 0x0802 x (gateFree .g s r) → r.b 32 ≤ 7 →
      let ns := (List.range 4).map (fun i => 4 * r.b 32 + i)
      exec (.fabStatus c h) s = .next (answers s c x (Answer.ok (ns.flatMap (fun n => leBytes 4 (f.linkReg n s.quiet))
        ++ ns.flatMap (fun n => leBytes 8 (f.link n).rx ++ leBytes 8 (f.link n).tx))))) ∧
    (Served s c 0x0802 x (gateFree .g s r) → 7 < r.b 32 → exec (.fabStatus c h) s = .next (no stNOTFOUND)) ∧
    (Served s c 0x0803 x (gatePd s r) →
      let n := r.h 32
      let d : Pd := {
        loc := fbit r.slot 288, func := r.func (fbit r.slot 289) (n / 4096), size := 32 * 2 ^ min (r.b 37) 7, msix := r.h 38,
        base := r.d 40, p := 0, c := 0 }
      (f.pds.has n = true → exec (.bftPdCreate c h) s = .next (no stBADSTATE)) ∧
      (f.pds.has n = false → exec (.bftPdCreate c h) s = .next (ok { f with pds := f.pds.set n d }))) ∧
    (Served s c 0x0804 x (gatePd s r) →
      (f.pdUsed (r.h 32) = true → exec (.bftPdDestroy c h) s = .next (no stBADSTATE)) ∧
      (f.pdUsed (r.h 32) = false → exec (.bftPdDestroy c h) s = .next (ok { f with pds := f.pds.erase (r.h 32) }))) ∧
    (Served s c 0x0805 x (gateReg s r) → mine (r.h 36) → r.q 32 < 1048576 → f.pds.has (r.h 36) = true →
      (∀ y, f.regions.get? (r.q 32) = some y → y.used = true → exec (.bftRegCreate c h) s = .next (no stBADSTATE)) ∧
      ((∀ y, f.regions.get? (r.q 32) = some y → y.used = false) →
        ∃ z : Region, z.used = true ∧ z.pd = r.h 36 ∧ z.base = r.d 40 ∧ z.remoteWrite = fbit r.slot 312 ∧ z.len = field r.slot 384 40 ∧
          (∀ y, f.regions.get? (r.q 32) = some y → z.tag = (y.tag + 1) % 4096) ∧
          exec (.bftRegCreate c h) s = .next (answers ({ s with fab := { f with regions := f.regions.set (r.q 32) z } } : State) c x
            (Answer.ok (leBytes 4 (z.tag * 1048576 + r.q 32)))))) ∧
    (∀ y, Served s c 0x0806 x (gateReg s r) → f.regions.get? (r.q 32) = some y → y.used = true →
      exec (.bftRegDestroy c h) s = .next (ok { f with regions := f.regions.set (r.q 32) { y with used := false } })) ∧
    (Served s c 0x0807 x (gateRr s r) → mine (r.h 34) → f.pds.has (r.h 34) = true → f.rings.has (r.h 32) = false →
      let y : RxRing := {
        pd := r.h 34, loc := fbit r.slot 288, func := r.func (fbit r.slot 289) (ringHome (r.h 32)),
        size := 32 * 2 ^ min (r.b 37) 11, base := r.d 40, pidx := 0, cidx := 0, phase := true }
      exec (.bftRrCreate c h) s = .next (ok { f with rings := f.rings.set (r.h 32) y })) ∧
    (Served s c 0x0808 x (gateRr s r) → f.rings.has (r.h 32) = true →
      exec (.bftRrDestroy c h) s = .next (ok { f with rings := f.rings.erase (r.h 32) })) ∧
    (∀ b, Served s c 0x0809 x (gateConnRec h s r) → r.connRec h = some b →
      let n := field b 0 18
      let cfg := decodeConn b (connHome n) (r.mb ≠ 0)
      mine cfg.pd → f.pds.has cfg.pd = true →
      (f.conns.has n = true → exec (.bftConnCreate c h) s = .next (no stBADSTATE)) ∧
      (f.conns.has n = false → exec (.bftConnCreate c h) s = .next (answers { s with
        coel := { s.coel with keyPairs := s.coel.keyPairs.erase n },
        fab := ({ f with conns := f.conns.set n (Conn.fresh cfg) } : Fabric).grow n } c x (Answer.ok [])))) ∧
    (Served s c 0x080A x (gateConn false s r) → r.q 32 < 262144 →
      let s1 := s.withFab ({ f with conns := f.conns.erase (r.q 32) }, [])
      exec (.bftConnReset c h) s = .next (answers
        { s1 with coel := { s1.coel with keyPairs := s1.coel.keyPairs.erase (r.q 32) } } c x (Answer.ok []))) ∧
    (∀ y, r.q 32 < 262144 → f.conns.get? (r.q 32) = some y → y.cfg.enc = true → y.txKey = none → y.rxKey = none →
      (Served s c 0x080B x (gateConn true s r) → exec (.bftKeyLoad c h) s =
        .next (answers (s.setKeys (r.q 32) (slice r.slot 64 32) (slice r.slot 96 32)) c x (Answer.ok []))) ∧
      (Served s c 0x080C x (gateConn true s r) → r.b 35 = 0 → exec (.bftKeyAgreeGenerate c h) s = .next (answers
        { s with free := s.free + 1, coel := { s.coel with keyPairs := s.coel.keyPairs.set (r.q 32) s.free } } c x
        (Answer.ok (List.replicate 32 0#8 ++ padTo 97 (Config.p384Public (Config.freeBytes s.free)))))) ∧
      (Served s c 0x080C x (gateConn true s r) → r.b 35 ≠ 0 → s.coel.keyPairs.get? (r.q 32) = none →
        exec (.bftKeyAgreeComplete c h) s = .next (no stSEQUENCE)) ∧
      (∀ d, Served s c 0x080C x (gateConn true s r) → r.b 35 ≠ 0 → s.coel.keyPairs.get? (r.q 32) = some d →
        let peer := slice r.slot 64 97
        let z := Config.p384Shared (Config.freeBytes d) peer
        let s1 := if y.cfg.role then s.setKeys (r.q 32) (agreedKey z 2) (agreedKey z 1)
          else s.setKeys (r.q 32) (agreedKey z 1) (agreedKey z 2)
        (Config.p384Valid peer = false → exec (.bftKeyAgreeComplete c h) s = .next (answers
          { s with coel := { s.coel with keyPairs := s.coel.keyPairs.erase (r.q 32) } } c x (Answer.of stBADKEY))) ∧
        (Config.p384Valid peer = true → exec (.bftKeyAgreeComplete c h) s = .next (answers
          { s1 with coel := { s1.coel with keyPairs := s1.coel.keyPairs.erase (r.q 32) } } c x (Answer.ok [])))))

/-- The commands on partitions, faults and firmware images (R582 to R588, R592, R603, R631 to R640). The answers of the
firmware commands outside the states that the spec names are the model's readings (log entries 60, 61, 71 and 73). -/
def Obligations.FaultAndFirmwareCommands : Prop :=
  ∀ (s : State) (c : Nat) (h : HostData) (x : Running),
    let r := x.req
    let k := r.part
    let no := fun (st : Nat) => answers s c x (Answer.of st)
    let held := fun (t : State) (u : Bool) => let t2 := (t.freeCore c).settle
      ({ t2 with coel := { t2.coel with waiters := t2.coel.waiters ++ [{ req := r, part := k, unfence := u }] } } : State)
    (Served s c 0x0901 x (gateFree .g s r) →
      ((s.pipe.part k).st = .fenced → exec (.partFence c h) s = .next (answers s c x (Answer.ok []))) ∧
      ((s.pipe.part k).st = .fencing → exec (.partFence c h) s = .next (held s false)) ∧
      ((s.pipe.part k).st = .unfencing → exec (.partFence c h) s = .next (held (s.fence k none) false)) ∧
      ((s.pipe.part k).st = .serving → (s.pipe.orderly k).2 = true →
        exec (.partFence c h) s = .next (held ((withPipe s (s.pipe.orderly k).1).fence k none) false))) ∧
    (Served s c 0x0902 x (gateFree .g s r) →
      ((s.pipe.part k).st = .serving → exec (.partUnfence c h) s = .next (answers s c x (Answer.ok []))) ∧
      ((s.pipe.part k).st = .fencing → exec (.partUnfence c h) s = .next (no stBADSTATE)) ∧
      ((s.pipe.part k).st = .fenced → s.fcu.fences k = true → exec (.partUnfence c h) s = .next (no stBADSTATE)) ∧
      ((s.pipe.part k).st = .fenced → s.fcu.fences k = false → exec (.partUnfence c h) s =
        .next (held (withPipe s (s.pipe.modPart k (fun q => { q with st := .unfencing }))) true))) ∧
    (Served s c 0x0903 x (gateFree .g s r) →
      (511 < r.h 32 → exec (.fcuReact c h) s = .next (no stNOTFOUND)) ∧
      (r.h 32 ≤ 511 → exec (.fcuReact c h) s = .next (answers { s with
        fcu := s.fcu.setReactions (r.h 32) (count1 (r.h 34)) (reactionOf (field r.slot 288 2)) } c x (Answer.ok [])))) ∧
    (∀ sp src v, Served s c 0x0904 x (gateFree .g s r) → marginInfo (marginKind (r.b 32)) (r.h 33) = some (some sp, src) →
      s.pwr.margins.get? (marginKind (r.b 32) * 65536 + r.h 33) = some v →
      exec (.marginRead c h) s = .next (answers s c x (Answer.ok (leBytes 4 (twos 32 v) ++ leBytes 4 (twos 32 sp))))) ∧
    (∀ b, Served s c 0x0A01 x (gateG s r) → s.nor.present = true →
      let l := min (r.w 32) 33554432
      (∀ y, s.download = some y → y.1 = l) → r.w 36 < chunkCount l → (s.boot.trial = false ∨ s.coel.state = .rom) →
      s.dlState ≠ .verified → r.buffer h (chunkLen l (r.w 36)) = some b →
      ((crc32c b).toNat ≠ r.w 40 → exec (.fwChunk c h) s = .next (no stVERIFY)) ∧
      ((crc32c b).toNat = r.w 40 → ∃ n : Nor, exec (.fwChunk c h) s = .next (answers { s with nor := n } c x
        (Answer.ok (chunkReport l (match n.dl with | some (_, y) => y | none => []))) ) ∧
        (∀ y, s.download = some y → y.2.contains (r.w 36) = true → n = s.nor))) ∧
    (Served s c 0x0A02 x (gateG s r) →
      (s.dlState ≠ .complete → s.dlState ≠ .verified → exec (.fwVerify c h) s = .next (no stSEQUENCE)) ∧
      (s.dlState = .complete → s.nor.slotOk s.dlSlot = false → exec (.fwVerify c h) s =
        .next (answers { s with nor := (s.nor.verifySlot s.dlSlot).1 } c x (Answer.of stVERIFY))) ∧
      (s.dlState = .complete → s.nor.slotOk s.dlSlot = true →
        let n := s.nor.writeCb (s.nor.cb.setState s.dlSlot .verified)
        exec (.fwVerify c h) s = .next (answers { s with nor := n } c x (Answer.ok (leBytes 4 (n.imageVersion s.dlSlot)))))) ∧
    (Served s c 0x0A03 x (gateG s r) →
      (s.dlState ≠ .verified → exec (.fwActivate c h) s = .next (no stSEQUENCE)) ∧
      (s.dlState = .verified → s.coel.state = .ready →
        let now := r.d 32 = 0 || r.d 32 ≤ s.mer.now
        let w := if now then none else some (r.d 32, s.mer.now)
        exec (.fwActivate c h) s = .next (answers
          { s with nor := s.nor.eraseOlder, boot := { s.boot with openNow := now, window := w } } c x (Answer.ok [])))) ∧
    (Served s c 0x0A04 x (gateG s r) →
      (s.boot.trial = false ∨ s.healthy = false → exec (.fwConfirm c h) s = .next (no stSEQUENCE)) ∧
      (s.boot.trial = true → s.healthy = true →
        let n := s.nor.eraseOlder
        let b := { s.boot with trial := false, trialRun := false, unconf := 0 }
        exec (.fwConfirm c h) s = .next (answers
          { s with nor := n.writeCb { n.cb.setState s.boot.slot .confirmed with trial := false }, boot := b } c x (Answer.ok [])))) ∧
    (Served s c 0x0A05 x (gateFree .g s r) → exec (.fwStatus c h) s = .next (answers s c x (Answer.ok (leBytes 4 s.boot.version
      ++ leBytes 1 (b2n s.boot.trial) ++ leBytes 1 s.boot.unconf ++ leBytes 1 (s.nor.cb.state false).code
      ++ leBytes 1 (s.nor.cb.state true).code ++ leBytes 4 (match s.download with | some (_, y) => y.length | none => 0)
      ++ leBytes 4 0 ++ padTo 48 s.boot.digest)))) ∧
    (Served s c 0x0A06 x (gateG s r) →
      let b := { s.boot with window := none, openNow := false }
      exec (.fwDiscard c h) s = .next (answers
        { s with nor := { s.nor.writeCb (s.nor.cb.setState s.dlSlot .empty) with dl := none }, boot := b } c x (Answer.ok [])))

/-- The fence and the unfence after their cause (R130, R454, R455, R483, R584, R585, R588). The instant of the answers and
events is the model's reading (log entries 71 and 74). -/
def Obligations.FenceRows : Prop :=
  ∀ (s : State) (k : Nat), s.works = true → k < 16 →
    let q := s.pipe.part k
    (q.st = .fencing →
      let p := s.pipe.modPart k (fun q => { q with st := .fenced, power := false, flashIdle := true, tailHeld := q.flash.holdsTail })
      exec (.fencePowerOff k) s = .next ((withPipe s p).answerWaiters k false stOK)) ∧
    (q.st = .fenced → q.completionsOwed = true →
      let s1 := (s.pipe.homed k).foldl (fun s j => s.completeJob j false) s
      (s1.pipe.homed k ≠ [] → exec (.fenceCompletions k) s = .next s1) ∧
      (s1.pipe.homed k = [] →
        let s2 := withPipe s1 (s1.pipe.modPart k (fun q => { q with completionsOwed := false }))
        exec (.fenceCompletions k) s = .next ((s2.event (k + 1) 1 k q.cause.isNone (q.cause.getD 0)).event 0 1 k q.cause.isNone
          (q.cause.getD 0)))) ∧
    (s.coel.state = .ready → q.st = .unfencing → q.completionsOwed = false → k ≠ 0 → k ≠ 8 →
      exec (.unfence k) s = .next (((((withPipe s (s.pipe.unfence k s.mer)).event (k + 1) 2 k false 0).event 0 2 k false 0).answerWaiters
        k true stOK).settle)) ∧
    (∀ e : AlmEntry, e.unfenced.outst = 0 ∧ e.unfenced.onwheel = false ∧ e.unfenced.state ≠ .draining ∧
      (e.state = .enabled ∨ e.state = .paused → e.unfenced.gen = (e.gen + 1) % 65536 ∧ e.unfenced.state = e.state))

/-! ## Doorbells and dispatch (chapters 03, 14 and 15) -/

/-- The doorbells of the Almanac and of the fabric's rings (R438 to R444, R496, R497, R506, R516, R532): an index taken
modulo the ring size, and a doorbell that names nothing there, or is too short, is dropped and counted. SCHED_VISIT,
DESCRIPTOR_FETCH, RING_ACCESS_ERROR and COMPLETION (R118, R434 to R437, R463 to R465): the queue at the head of the active
list is visited, a fetched descriptor enters, a failed access stops its queue, and the first job of a completion queue is
completed. A doorbell that needs a page that is away waits, and the doorbells behind it wait in order, a later one for the same
queue in its place; of a 4,097th the write itself waits. What a doorbell needs, and how it waits, are the model's readings (log
entries 135 and 136). -/
def Obligations.DoorbellAndDispatchRows : Prop :=
  (∀ s : State, s.reach = true →
     (∀ k v h, Calm s → k < 16 → s.pipe.fenced k = false →
       let q := bitsOf v.toNat 0 24
       let i := bitsOf v.toNat 24 16
       let p := s.pipe.touchQueue q
       let e := p.queue q
       (∀ n, n < 8 → exec (.almDoorbell k false n v h) s = .next (perform s (s.pipe.dropBell k))) ∧
       (q / 1048576 ≠ k → exec (.almDoorbell k false 8 v h) s = .next (perform s (s.pipe.dropBell k))) ∧
       (q / 1048576 = k → queuePart q = k →
         let bells := (s.pipe.part k).alm.bells
         let setBells := fun (y : Pipe) (bs : List (Nat × Nat × Option (List Byte))) =>
           y.modPart k (fun z => { z with alm := { z.alm with bells := bs } })
         (bells ≠ [] →
           (bells.any (fun b => b.1 == q) = true → exec (.almDoorbell k false 8 v h) s =
             .next (perform s (setBells s.pipe (bells.map (fun b => if b.1 = q then (q, i, h) else b))))) ∧
           (bells.any (fun b => b.1 == q) = false →
             (bells.length < 4096 → exec (.almDoorbell k false 8 v h) s = .next (perform s (setBells s.pipe (bells ++ [(q, i, h)])))) ∧
             (4096 ≤ bells.length → exec (.almDoorbell k false 8 v h) s = .next (perform s s.pipe)))) ∧
         (bells = [] → e.kind = .frecv ∨ (e.state ≠ .enabled ∧ e.state ≠ .paused) →
           exec (.almDoorbell k false 8 v h) s = .next (perform s (p.dropBell k))) ∧
         (bells = [] → e.state = .enabled ∨ e.state = .paused →
           (e.kind = .qsub ∨ e.kind = .isub → exec (.almDoorbell k false 8 v h) s =
             .next (perform s ((p.setQueue q { e with pidx := i % e.size }).enlist q))) ∧
           (e.kind = .comp → i % e.size = e.pidx % e.size → exec (.almDoorbell k false 8 v h) s =
             .next (perform s (p.setQueue q { e with cidx := i % e.size, rbheld := e.resv }))) ∧
           (∀ b, e.kind = .comp → e.ias = false → i % e.size ≠ e.pidx % e.size → exec (.almDoorbell k false 8 v (some b)) s =
             .next (perform s (p.setQueue q { e with
               cidx := i % e.size, rbheld := rbHeldOf e.rbnext e.rbCount (le16 b 20) (le16 b 22) + e.resv }))) ∧
           (e.kind = .comp → e.ias = false → i % e.size ≠ e.pidx % e.size →
             exec (.almDoorbell k false 8 v none) s = .next (perform s (p.queueError q))) ∧
           (e.kind = .comp → e.ias = true → i % e.size ≠ e.pidx % e.size →
             let at_ := e.slotAddr (i % e.size)
             let b := p.iasRead at_ 64
             (p.iasReady at_ 64 = true → exec (.almDoorbell k false 8 v h) s = .next (perform s (p.setQueue q { e with
               cidx := i % e.size, rbheld := rbHeldOf e.rbnext e.rbCount (le16 b 20) (le16 b 22) + e.resv }))) ∧
             (p.iasReady at_ 64 = false → exec (.almDoorbell k false 8 v h) s =
               .next (perform s (setBells (p.want at_ 64).1 [(q, i, h)]))))))) ∧
     (∀ v : W64,
       let f := s.fab
       let i := bellIndex v.toNat
       let dropped := ({ f with dbDrop := satAdd f.dbDrop 1 } : Fabric)
       (∀ c, f.conns.get? (bellNum v.toNat) = some c → c.error = none → exec (.sendRingDoorbell none 8 v) s =
         .next (s.onFab ({ f with conns := f.conns.set (bellNum v.toNat) { c with spidx := i % c.cfg.ssize } }, []))) ∧
       (∀ r, f.rings.get? (bellNum v.toNat % 65536) = some r → exec (.receiveRingDoorbell none 8 v) s =
         .next { s with fab := { f with rings := f.rings.set (bellNum v.toNat % 65536) { r with pidx := i % r.size } } }) ∧
       (∀ c, f.conns.get? (bellNum v.toNat) = some c → exec (.errorRingDoorbell none 8 v) s =
         .next { s with fab := { f with conns := f.conns.set (bellNum v.toNat) { c with ec := i % c.cfg.esize } } }) ∧
       (∀ d, f.pds.get? (bellNum v.toNat % 65536) = some d → exec (.eventRingDoorbell none 8 v) s =
         .next { s with fab := { f with pds := f.pds.set (bellNum v.toNat % 65536) { d with c := i % d.size } } }) ∧
       (f.rings.get? (bellNum v.toNat % 65536) = none → exec (.receiveRingDoorbell none 8 v) s = .next { s with fab := dropped }) ∧
       (∀ n vf, n < 8 → s.pcie.vfEnable = true → exec (.errorRingDoorbell vf n v) s = .next { s with fab := dropped }) ∧
       (∀ k, s.pcie.vfEnable = true → exec (.eventRingDoorbell (some k) 8 v) s = .next { s with fab := dropped }))) ∧
  (∀ (s : State) (k : Nat), Calm s → k < 16 → s.pipe.fenced k = false →
     let p := s.pipe
     let now := s.mer.now
     (∀ q rest, s.coel.dpen = true → s.owed = 7 → (p.part k).sched.active = q :: rest → (p.queue q).shaper = 0 →
       (p.heldQ k now (p.queue q) = true → exec (.schedVisit k) s = .next (perform s (p.toTail k q))) ∧
       (p.heldQ k now (p.queue q) = false →
         let p2 := (p.modQueue q (fun e => { e with deficit := clampI 32 (e.deficit + e.quant) })).dispatchLoop k now q
           ((p.queue q).fetched.length + 1)
         ((p2.queue q).shaper = 0 → (p2.queue q).ready = true → exec (.schedVisit k) s = .next (perform s (p2.toTail k q))) ∧
         ((p2.queue q).shaper = 0 → (p2.queue q).ready = false → exec (.schedVisit k) s = .next (perform s ((p2.delist q).modQueue q
           (fun e => if e.deficit > 0 && e.occupied = 0 then { e with deficit := 0 } else e)))))) ∧
     (∀ q raw, s.coel.dpen = true → q / 1048576 = k →
       let p1 := (p.rawErrors raw).touchQueue q
       let e := p1.queue q
       e.state = .enabled → e.kind ≠ .comp → e.fetchedSlots < e.occupied →
       (e.kind ≠ .frecv → e.ias = false →
         (∀ d t, exec (.descriptorFetch k ⟨q, raw⟩ (some d) (some t)) s = .next (perform s (p1.entry now q d t))) ∧
         exec (.descriptorFetch k ⟨q, raw⟩ none none) s = .next (perform s (p1.queueError q))) ∧
       (∀ d t, e.kind = .frecv ∨ e.ias = true →
         let left := e.occupied - e.fetchedSlots
         let b := p1.ringSlots e e.nextSlot left
         (p1.ringHere e e.nextSlot left = false →
           exec (.descriptorFetch k ⟨q, raw⟩ d t) s = .next (perform s (p1.ringWant e e.nextSlot left))) ∧
         (p1.ringHere e e.nextSlot left = true → p1.poison = [] → p1.weak = [] →
           exec (.descriptorFetch k ⟨q, raw⟩ d t) s = .next (perform s (p1.entry now q (b.take 128) (b.drop 128)))))) ∧
     (∀ q, q / 1048576 = k → (p.queue q).ias = false → (p.queue q).kind ≠ .frecv →
       ((p.touchQueue q).queueError q).jobAt 0 .records = none →
       exec (.ringAccessError k q 0) s = .next (perform s ((p.touchQueue q).queueError q))) ∧
     (∀ j jb, p.jobs.get? j = some jb → p.firstAt j = true → jb.home = k → jb.batch = false →
       exec (.completion j) s = .next (s.completeJob j true)) ∧
     (∀ j jb, p.jobs.get? j = some jb → p.firstAt j = true → jb.home = k → jb.batch = true → p.dirtyMax = 0 →
       (∃ e ∈ (p.flash k).log, e.queue = jb.queue ∧ e.tag = jb.tag ∧ e.programmed = false) →
       exec (.completion j) s = .next (withPipe s (p.forceLog j k))))

/-! ## Bags, ingest and checkpoints (chapters 09 and 11) -/

/-- POOL_ISSUE, POOL_PARTIAL and END_MESSAGE (R351 to R356): a bag whose rows are there issues a POOL to each pseudo-channel
and each peer, in order; a partial is added; an end message goes to its kernel's handler. INGEST_RECORD, DIR_LOCK,
PIECE_GROW, STAMP_RETRY, PIECE_COMPACT, PIECE_RETIRE, CHECKPOINT and CKPT (R289, R300 to R317, R525). That firmware rows need
COEL_STAT READY, those on index objects the data path enabled, and one record of a batch in progress, are the model's readings
(log entries 90, 171 and 156). -/
def Obligations.BagAndIngestRows : Prop :=
  (∀ (s : State) (j : Nat) (jb : Job), Calm s →
     let p := s.pipe
     (∀ t, p.jobAt j .bag = some jb → p.fenced jb.home = false → jb.etab.bind p.etabs.get? = some t →
       let es := poolEntries jb.ordered jb.bag
       let locs := es.filterMap (fun e => match t.place e.1 with | .local_ k pc i => some (k, pc, i, e.2) | _ => none)
       let pages := (locs.flatMap (fun l => p.rowPages t l.1 l.2.1 l.2.2.1)).eraseDups
       let keys := sortBy (fun a b => decide (a.1 * 64 + a.2 < b.1 * 64 + b.2)) ((locs.map (fun l => (l.1, l.2.1))).eraseDups)
       (∀ e ∈ es, ∀ r c, t.place e.1 ≠ .remote r c) → (∀ l ∈ locs, p.fenced l.1 = false) → p.pagesHere pages = true → locs ≠ [] →
       exec (.poolIssue j) s = .next (perform s ((keys.foldl (fun (p : Pipe) key =>
         let mine := locs.filter (fun l => l.1 == key.1 && l.2.1 == key.2)
         p.issue key.1 key.2 { NbuReq.zero with
           kernel := 4, cls := 1, job := j, home := jb.home, arg0 := jb.d.etab, arg1 := mine.length,
           operand := mine.flatMap (fun l => poolEntry l.2.2.1 (min l.2.2.2 1024)) }) p).modJob j (fun y => { y with
         phase := .pooling, poolWait := keys.length, poolConns := [], poolParts := [],
         poolCount := (locs.map (fun l => l.2.2.2)).foldl (· + ·) 0, pooled := List.replicate t.dim 0#32 })))) ∧
     (∀ t l, p.jobAt j .bag = some jb → p.fenced jb.home = false → jb.etab.bind p.etabs.get? = some t →
       ((poolEntries jb.ordered jb.bag).filterMap (fun e =>
         match t.place e.1 with | .local_ k pc i => some (k, pc, i, e.2) | _ => none)).find? (fun l => p.fenced l.1) = some l →
       exec (.poolIssue j) s = .next (perform s (p.endJobAt j stFENCED 9 (some l.1)))) ∧
     (∀ x, p.jobAt j .pooling = some jb → jb.nextPartial = some x →
       let p1 := p.modJob j (fun y => { y with
         poolParts := y.poolParts.erase x, poolWait := y.poolWait - 1, pooled := addVec y.pooled.length y.pooled x.2.2.2.1 })
       (jb.poolWait ≠ 1 → exec (.poolPartial j) s = .next (perform s p1)) ∧
       (jb.poolWait = 1 → exec (.poolPartial j) s = .next (perform s (p1.poolFinish j)))) ∧
     (∀ k m rest, (p.core k).ends = m :: rest → p.fenced k = false → s.pwr.coreRuns k = true →
       let p0 := p.modCore k (fun c => { c with ends := rest })
       let later := fun (y : Pipe) => y.modCore k (fun c => { c with ends := c.ends ++ [m] })
       let took := fun (y : Pipe × Bool) => exec (.endMessage k) s = .next (perform s (if y.2 then y.1 else later y.1))
       (m.req.handOff = true → exec (.endMessage k) s = .next (perform s p0)) ∧
       (m.req.handOff = false →
       (m.req.kernel = 0 ∨ 8 ≤ m.req.kernel → exec (.endMessage k) s = .next (perform s (p0.scanEnd k m))) ∧
       (m.req.kernel = 1 → exec (.endMessage k) s = .next (perform s (p0.blockEnd k m))) ∧
       (m.req.kernel = 2 → took (p0.appendEnd k m)) ∧ (m.req.kernel = 5 → took (p0.compactEnd k m)) ∧
       (m.req.kernel = 3 → exec (.endMessage k) s = .next (perform s (p0.stampEnd k m))) ∧
       (m.req.kernel = 4 → exec (.endMessage k) s = .next (perform s (p0.poolEnd m))) ∧
       (m.req.kernel = 6 → exec (.endMessage k) s = .next (perform s (p0.bitmapEnd m))) ∧
       (m.req.kernel = 7 → exec (.endMessage k) s = .next (perform s p0))))) ∧
  (∀ s : State, Calm s →
     let p := s.pipe
     (∀ j jb, p.jobAt j .records = some jb →
       (∀ r, p.recOf jb.home j = some r → r.replWait = false →
         exec (.ingestRecord j) s = .next (perform s ((p.afterLog j).chooseFringe j))) ∧
       (p.recOf jb.home j = none → p.mayRecord j jb = true → jb.b.repl = false →
         exec (.ingestRecord j) s = .next (perform s ((p.logRecord j jb false).1.afterLog j))) ∧
       (p.recOf jb.home j = none → p.mayRecord j jb = true → jb.b.repl = true → (p.part jb.home).sched.short s.mer.now 7 = false →
         s.connDead jb.b.rconn = false →
         let r := p.logRecord j jb true
         exec (.ingestRecord j) s = .next ((withPipe s r.1).replicate jb.home jb.b.rconn r.2).settle)) ∧
     (∀ k raw p1, let p0 := p.rawErrors raw
       p0.fenced k = false → (p0.part k).lockQueue.findSome? (fun y => p0.tryLock k y.1) = some p1 →
       exec (.dirLock ⟨k, raw⟩) s = .next (perform s p1)) ∧
     (s.coel.state = .ready →
       (∀ j jb r x l p1 pc a, s.coel.dpen = true → p.jobAt j .records = some jb → p.recOf jb.home j = some r →
         p.idxOf jb = some x → jb.idx = some l →
         r.full = true → p.fenced r.owner = false →
         p.need j jb.stage (pagesOf p.variant64 (x.entryAddr r.cluster r.owner) 32 ++
           pagesOf p.variant64 (p.appendTo x r.cluster r.owner).ptab (8 * (p.appendTo x r.cluster r.owner).npiece)) = none →
         p.growPiece l x r.cluster r.owner = (p1, .piece pc a) →
         (r.step ≠ .issued → exec (.pieceGrow j) s = .next (perform s (p1.modRec jb.home j (fun r => { r with full := false })))) ∧
         (r.step = .issued → exec (.pieceGrow j) s = .next (perform s (p1.injectAppend jb.home j x r (pc, a))))) ∧
       (∀ k t, s.coel.dpen = true → p.fenced k = false → (p.part k).stampRetry = [t] → p.fenced t.part = false → p.poison = [] →
         p.pagesHere (p.pieceSpan t.part t.pc t.piece) = true →
         exec (.stampRetry k) s = .next (perform s ((p.modPart k (fun q => { q with stampRetry := [] })).inject t.part t.pc
           { NbuReq.zero with kernel := 3, cls := 2, piece := t.piece, repoch := t.u, home := k, arg0 := t.entry }))) ∧
       (∀ k h c i, s.coel.dpen = true → exec (.pieceCompact k h c i) s = .next (perform s (pieceCompact k h c i s.mer.now p))) ∧
       (∀ k h c i, p.handles.get? h = none → exec (.pieceCompact k h c i) s = .next (perform s p)) ∧
       (∀ k c, s.coel.dpen = true → p.fenced k = false → (p.part k).comps.find? (fun c => c.step == 6 && c.readers.isEmpty) = some c →
         exec (.pieceRetire k) s = .next (perform s (((((p.unmapPiece (k, c.pc, c.old)).modPart k (fun q =>
           { q with comps := q.comps.filter (· != c) })).modNbu k c.pc (fun n =>
             { n with links := n.links.filter (fun l => l != (c.old, c.new)) })).runCommits k).sweep))) ∧
       (p.ckptCut = none → (p.ckptMs ≠ 0 ∨ p.ckptNow = true) → p.pair.isSome = true →
         (∀ k, k < 16 → p.fenced k = false → p.maintMay k 3 s.mer.now = true) →
         (∀ q ∈ p.parts, ∀ r ∈ q.recs, r.step ≠ .issued) →
         exec .checkpoint s = .next (perform s (p.dirtyPages.foldl (fun p x =>
           (p.setTier x.1 { x.2 with dirty := false }).modFlash x.2.home (fun f => { f with progs := f.progs ++ [.page x.1] }))
           { p with ckptCut := some (p.cut s.mer.pub), ckptNow := false }))) ∧
       (∀ c, p.ckptCut = some c → (∀ k, k < 16 → p.fenced k = true ∨ (p.flash k).progs = []) →
         ∃ q, exec .ckpt s = .next (perform s q) ∧ q.ckptCut = none ∧
           (∃ c1, q.nand.ckpt = some c1 ∧ c1.pub = c.pub ∧ c1.oldest = c.oldest ∧ c1.handles = c.handles) ∧ q.jobs = p.jobs)))

/-! ## Pages and flash media (chapters 12 and 13) -/

/-- PAGE_MOVE_IN, WRITE_BACK, SPILL and FLASH_READ_DONE (R377 to R380, R404, R408, R409). Which frame is taken and what a
move charges are the model's choices (log entries 108, 111 and 112). -/
def Obligations.PageRows : Prop :=
  ∀ (s : State) (k : Nat), Calm s → s.pipe.fenced k = false →
    let p := s.pipe
    (∀ i n m pg pre ex po, (p.flash k).reads[i]? = some (.page pg pre) → (p.tier pg).st = .in_ → (p.tier pg).loc = some (ex, po) →
      p.pair.isSome = true → (p.flash k).okLoc ex (16 * po) = true →
      let e := p.tier pg
      let p2 := ((p.modFlash k (fun f => { f with reads := f.reads.eraseIdx i })).modFlash k (fun f =>
        f.readCounts ex n m)).chargeMove k (if pre then [] else p.demands pg) 5
      let p3 := p2.modPart k (fun q => { q with movesIn := q.movesIn + 1 })
      exec (.pageMoveIn k i n m false) s = .next (perform s ((p3.flashFill k ex (16 * po) 16
        (hbmKey e.home e.pc (e.frame * 65536))).setTier pg { e with st := .hbm, dirty := false }).resume) ∧
      exec (.pageMoveIn k i n m true) s = .next (perform s ((p.demands pg).foldl (fun p j => p.endJob j stABORTED (some k))
        ((p2.setTier pg { e with st := .flash }).unitLost k)))) ∧
    (∀ pg p1 ex u, (p.flash k).progs.find? (fun g => match g with | .page _ => true | _ => false) = some (.page pg) →
      (p.tier pg).st = .out → (p.tier pg).loc = none →
      let e := p.tier pg
      p.flashPut k .page (.page pg none) (p.hbm.readN (hbmKey e.home e.pc (e.frame * 65536)) 65536) (fun _ _ => none) = (p1, some (ex, u)) →
      let a := p.writeBackAct k pg e
      exec (.writeBack k) s = .next (perform s (((((p1.modFlash k (fun f => { f with progs := f.progs.erase (.page pg) })).chargeMove
        k a.1 a.2).setTier pg { e with st := .flash, loc := some (ex, u / 16) }).modPart k (fun q =>
          { q with writeBacks := q.writeBacks + 1 })).resume))) ∧
    (s.coel.state = .ready → s.coel.dpen = true → ∀ pc piece, p.maintMay k 5 s.mer.now = true → p.free k < (p.part k).lowMark + (p.part k).migresOf →
      p.spillable k (pc, piece) = true → ((p.part k).ordMap.vals.map (fun m => (m.1, m.2.1))).eraseDups = [(pc, piece)] →
      exec (.spill k pc piece) s = .next (perform s ((p.pieceSpan k pc piece).foldl (fun (p : Pipe) pg =>
        let e := p.tier pg
        if e.dirty || e.loc.isNone then
          (p.setTier pg { e with st := .out, dirty := false }).modFlash k (fun f => { f with progs := f.progs ++ [.page pg] })
        else p.setTier pg { e with st := .flash }) p))) ∧
    (∀ i n m j c e u w jb x, (p.flash k).reads[i]? = some (.vector j c e u w) →
      let p1 := (p.modFlash k (fun f => { f.readCounts e n m with reads := f.reads.eraseIdx i })).charge j k 3 w
      p1.jobs.get? j = some jb → p1.idxOf jb = some x → jb.phase = .reranking →
      exec (.flashReadDone k i n m false) s = .next (perform s (((p1.modJob j (fun y =>
        { y with readsOut := y.readsOut - 1 })).modJob j (fun y => { y with
          cands := modNth y.cands c (fun d => { d with vec := p1.flashGet k e u x.fullBytes, src := 3 }) })).rerank j)) ∧
      exec (.flashReadDone k i n m true) s = .next (perform s ((p1.unitLost k).endJob j stABORTED (some k))))

/-- The rows of the flash media (R316, R396, R399, R407, R410 to R420): the journal records what each does to an extent. A
failed block moves to a spare of its LUN, or its extent is RETIRED; an erase does not end while a read waits on one of its LUNs; a
compaction copies the live units of its extent. What an erase charges, and that parity units count for a compaction alone, are
the model's choices (log entries 112 and 183). -/
def Obligations.MediaRows : Prop :=
  ∀ (s : State) (k : Nat), Calm s →
    let p := s.pipe
    let f := p.flash k
    ((p.part k).flashIdle = false →
      (∀ seqs, f.progs.find? (fun g => match g with | .page _ => false | _ => true) = some (.logPage seqs) →
        exec (.programDone k) s = .next (perform s ((p.modFlash k (fun f => { f with progs := f.progs.erase (.logPage seqs) })).modFlash
          k (fun f => f.logDone seqs)))) ∧
      (∀ e pos f1 slot spare, f.firstProg = some (e, pos) → f.remap e pos = some (f1, slot, spare) →
        let p1 := (p.modFlash k (fun _ => f1)).journal k .records [.remap e slot pos spare]
        let p2 := { p1 with out := p1.out ++ f1.spareFault k pos }
        exec (.programFail k) s = .next (perform s (({ p2 with
          media := p2.media.copyBlock (f.posKey k e pos) (f1.posKey k e pos) } : Pipe).count k 4 3
            (2 * (4 * ceilDiv (f.ext e).fill rowUnits))))) ∧
      (∀ e pos, f.firstProg = some (e, pos) → f.remap e pos = none → f.pickFree = none →
        exec (.programFail k) s = .next (perform s (((({ p with out := p.out ++ f.spareFault k pos } : Pipe).seal k e).modFlash k
          (fun f => f.modExt e (fun x => { x with st := .retired }))).journalExt k e .retire))) ∧
      (∀ e rest, f.erases = e :: rest →
        let pec := min ((f.ext e).pec + 1) 0xFFFF
        let gone := fun (f : FlashPart) => { f.modExt e (fun x => { x with
            st := if p.pecmax ≤ pec then .retired else .free, pec := pec, fill := 0, live := 0, readers := [], waits := [],
            marked := false }) with
          erases := rest, tags := f.tags.filter (fun t => t.1 / 131072 != e) }
        let p1 := { p with media := (List.range 64).foldl (fun m pos => m.clear (f.posKey k e pos) blockBytes) p.media }
        let p2 := ((p1.modFlash k gone).journalExt k e (if p.pecmax ≤ pec then .retire else .free)).count k 4 3 1024
        (p.suspended k ≠ [] → exec (.eraseDone k) s = .next (perform s p)) ∧
        (p.suspended k = [] → (p2.flash k).wearPair p2.wllim = none → exec (.eraseDone k) s = .next (perform s p2)) ∧
        (∀ pos f1 slot spare, f.remap e (pos % 64) = some (f1, slot, spare) →
          let q := (p.modFlash k (fun _ => f1)).journal k .records [.remap e slot (pos % 64) spare]
          exec (.eraseFail k pos) s = .next (perform s { q with out := q.out ++ f1.spareFault k (pos % 64) })) ∧
        (∀ pos, f.remap e (pos % 64) = none → exec (.eraseFail k pos) s = .next (perform s
          ((({ p with out := p.out ++ f.spareFault k (pos % 64) } : Pipe).modFlash k (fun f =>
            { f.modExt e (fun x => { x with st := .retired }) with erases := rest })).journalExt k e .retire))))) ∧
    (s.coel.state = .ready →
      (∀ e, (f.ext e).st = .retiring → (f.ext e).readers = [] → (∀ r ∈ (f.ext e).waits, r ∉ f.reads) → f.erases.contains e = false →
        (∀ m ∈ f.maint, m.holds e = false) →
        exec (.extentRetire k e) s = .next (perform s (p.modFlash k (fun f => { f with erases := f.erases ++ [e] })))) ∧
      (∀ e p2 copies extra, p.maintMay k 2 s.mer.now = true → (f.ext e).st = .sealed → (f.ext e).role ≠ .log → e < f.next →
        p.ecpct ≠ 0 → (f.ext e).live * 100 ≤ min p.ecpct 90 * (f.ext e).fill → (∀ m ∈ f.maint, m.holds e = false) →
        let p1 := p.modFlash k (fun f => f.modExt e (fun x => { x with st := .moving }))
        let live := p1.liveUnits k e
        live.foldl (Pipe.copyUnit k e) (p1, [], 0) = (p2, copies, extra) → copies.length = live.length →
        exec (.extentCompact k e) s = .next (perform s ((p2.modFlash k (fun f => { f with
          maint := f.maint ++ [.compact e copies false], progs := f.progs ++ [.commitComp e] })).count k 2 3
            ((f.ext e).fill + (live.map (fun m => m.2.2)).foldl (· + ·) 0 + extra)))) ∧
      (∀ c t, p.maintMay k 4 s.mer.now = true → exec (.relocation k c t) s = .next (perform s (p.startReloc k c t 4))) ∧
      (∀ found, p.maintMay k 6 s.mer.now = true → f.exts = [] → p.general = [] → p.bank = [] →
        exec (.scrubPeriod ⟨k, found⟩) s = .next (perform s (p.count k 6 3 0))))

/-! ## The fabric transport (chapter 16) -/

/-- What a connection sends (R496 to R500, R502, R503, R509, R530): an entry starts when it has credit, the packet whose turn
it is goes out, and the timers send what is owed. Messages of the package go first, and a connection in ERROR discards its
entries (log entries 116 and 115). -/
def Obligations.FabricSending : Prop :=
  ∀ (s : State) (n : Nat) (c : Conn), s.quiet = false → s.fab.conns.get? n = some c →
    let ctl := fun (typ npsn : Nat) => (s.ctl n typ 0 npsn 0).settle
    let conn := fun (g : Conn → Conn) => ({ s with fab := s.fab.modConn n g } : State).settle
    (c.error = none →
      (∀ m rest e d, c.pkg = m :: rest → s.flush.state ≠ .idle ∨ (s.pipe.part (connHome n)).sched.shortIn s.mer.now c.cfg.act 4 = false →
        (m.write = true ∨ c.sendCredit = true) →
        let r := ({ c with pkg := rest } : Conn).start m none
        exec (.sendEntry n e d) s = .next (s.onFab ({ s.fab with conns := s.fab.conns.set n r.1 }, r.2))) ∧
      (∀ b d, c.pkg = [] → s.flush.state = .idle → (s.pipe.part (connHome n)).sched.shortIn s.mer.now c.cfg.act 4 = false →
        c.sendLeft ≠ 0 → c.cfg.sloc = false → b.length = 64 → (workEntry b [] c.cfg.act (connHome n)).1.payload = [] →
        let w := workEntry b [] c.cfg.act (connHome n)
        (w.1.write = true ∨ c.sendCredit = true) →
        let r := ({ c with snext := (c.snext + 1) % c.cfg.ssize } : Conn).start w.1 (some w.2)
        exec (.sendEntry n (some b) d) s = .next (s.onFab ({ s.fab with conns := s.fab.conns.set n r.1 }, r.2))) ∧
      exec (.retransmitTimeout n) s = .next (conn Conn.timeout) ∧
      exec (.rnrDelay n) s = .next (conn Conn.rnrDelay) ∧
      (c.ackOwed = true → exec (.ackTimer n) s = .next (ctl 2 0)) ∧
      (∀ psn, c.gap = some psn → exec (.gapTimer n) s = .next (ctl 3 psn)) ∧
      (c.mlimNow ≠ c.sentMlim ∨ c.blimNow ≠ c.sentBlim → exec (.creditTimer n) s = .next (ctl 4 0)) ∧
      exec (.keepaliveTimer n) s = .next (ctl 5 0)) ∧
    (c.error.isSome = true → ∀ e d, exec (.sendEntry n e d) s = .next (s.onFab (s.fab.discardSends n))) ∧
    exec (.silent n) s = .next (s.withFab (s.fab.fail n .silent false none 0 0 0 (some (8, 0)))).settle ∧
    (∀ l, (s.fab.link l).up = true → s.fab.turnOf l = some n →
      let f := (s.fab.modConn n Conn.trim).modLink l (fun y => { y with turn := n })
      exec (.packetSend l) s = .next (s.onFab (f.sendPkt n s.quiet))) ∧
    (∀ x, c.error = none → c.staged.find? c.placeable = some x →
      (∀ cause, s.fab.check c x s.fencedList = some cause → exec (.writePlace n) s =
        .next (s.onFab (s.fab.failSend n cause x.msn x.psn x.rkey s.quiet))) ∧
      (∀ g, s.fab.check c x s.fencedList = none → s.fab.regions.get? (x.rkey % 1048576) = some g →
        let s1 := s.withFab (s.fab.modConn n (fun c => c.placed x.psn), placeWrite (x.rkey % 1048576) g x)
        (∀ y, s1.fab.conns.get? n = some y → y.creditDue = false → exec (.writePlace n) s = .next s1.settle) ∧
        (∀ y, s1.fab.conns.get? n = some y → y.creditDue = true → exec (.writePlace n) s = .next (s1.ctl n 4 0 0 0).settle)))

/-- What a link takes (R486, R489 to R491, R501 to R505, R507 to R514, R517, R519, R521): a frame that is not for BFT, or not of 64
to 9,216 bytes, counts as bad, one that fails authentication is counted, and one that passes goes to its connection by its type and kind. An encrypted
packet on a plain connection is a failure of authentication, the model's reading (log entry 123). -/
def Obligations.FabricReceiving : Prop :=
  ∀ (s : State) (l : Nat) (frame : List Byte), s.quiet = false → l < 32 → (s.fab.link l).up = true →
    otherFrame (s.fab.link l).cfg frame = false →
    let r := if frameSizeOk frame then s.fab.receive l frame else (s.fab, .bad)
    let f := r.1.modLink l (fun y => { y with rx := y.rx + 1 })
    let s1 := ({ s with fab := f } : State)
    (r.2 = .bad → let t := ({ s with fab := { f with badPkt := satAdd f.badPkt 1 } } : State)
      exec (.nonBftFrame l frame) s = .next t ∧ exec (.ack l frame) s = .next t ∧ ∀ d, exec (.data l frame d) s = .next t) ∧
    (r.2 = .auth → let t := ({ s with fab := { f with authFail := satAdd f.authFail 1 } } : State)
      exec (.nonBftFrame l frame) s = .next t ∧ exec (.ack l frame) s = .next t ∧ ∀ d, exec (.data l frame d) s = .next t) ∧
    (∀ n h pl d, r.2 = .bft n h pl →
      let go := (s1.takeData1 n h pl d).settle
      (h.typ = 0 →
        (h.mkind = 0 → exec (.data l frame d) s = .next go) ∧ (h.mkind = 1 → exec (.query l frame d) s = .next go) ∧
        (h.mkind = 2 → exec (.abortMsg l frame d) s = .next go) ∧ (h.mkind = 3 → exec (.abortreply l frame d) s = .next go) ∧
        (h.mkind = 5 → exec (.qctlreply l frame d) s = .next go) ∧ (h.mkind = 6 → exec (.poolMessage l frame d) s = .next go) ∧
        (h.mkind = 7 → exec (.poolreply l frame d) s = .next go) ∧ (h.mkind = 8 → exec (.cqdb l frame d) s = .next go) ∧
        (h.mkind = 4 →
          (field pl 48 8 = 0 → exec (.qctlRead l frame d) s = .next go) ∧ (field pl 48 8 = 1 → exec (.qctlModify l frame d) s = .next go) ∧
          (field pl 48 8 = 2 → exec (.qctlPause l frame d) s = .next go) ∧
          (field pl 48 8 = 3 → exec (.qctlResume l frame d) s = .next go))) ∧
      (h.typ = 1 → exec (.write l frame d) s = .next go)) ∧
    (∀ n h pl c, r.2 = .bft n h pl → f.conns.get? n = some c → c.error = none →
      let s2 := s1.withFab ({ f with conns := f.conns.set n (c.takeLimits n h).1 }, (c.takeLimits n h).2)
      (h.typ = 2 → exec (.ack l frame) s = .next s2.settle) ∧ (h.typ = 4 → exec (.credit l frame) s = .next s2.settle) ∧
      (h.typ = 5 → exec (.keepalive l frame) s = .next s2.settle) ∧
      (h.typ = 3 → h.ncode = 0 → exec (.nakSeq l frame) s =
        .next ({ s2 with fab := s2.fab.modConn n (fun c => c.nakSeq h.npsn) } : State).settle) ∧
      (∀ y, h.typ = 3 → h.ncode = 1 → s2.fab.conns.get? n = some y →
        ((y.nakRnr h.msn).1 = false → exec (.nakRnr l frame) s =
          .next ({ s2 with fab := { s2.fab with conns := s2.fab.conns.set n (y.nakRnr h.msn).2 } } : State).settle) ∧
        ((y.nakRnr h.msn).1 = true → exec (.nakRnr l frame) s =
          .next (s2.withFab (s2.fab.failSend n .rnr h.msn 0 0 s2.quiet)).settle))) ∧
    (∀ n h pl c, r.2 = .bft n h pl → f.conns.get? n = some c → h.typ = 6 → c.cfg.thaddr = none →
      exec (.errorPacket l frame) s = .next (s1.withFab (f.fail n (causeOf h.cause) true none h.msn 0 0 none)).settle)

/-! ## Invariants of every command (tier 3) -/

/-- R58, R73, R79, R81, R89, R546, R599: the invariant holds at reset. -/
def Obligations.KeptAtReset : Prop :=
 Kept State.reset

/-- R58, R73, R79, R81, R89, R546, R599: every step keeps the invariant: the counter stays on its grid, the pending epoch
follows the published one, the fields of the Meridian block and of the servo stay in their widths, Ephemeris slots stay
distinct, and the mailboxes and links are 17 and 12. -/
def Obligations.KeptByStep : Prop :=
 ∀ s t : State, Kept s → step s = .next t → Kept t

/-- No command touches the queue of commands or the build (R2). The queue is the model's (log entry 4), and the build a field
that no command changes (log entry 7). -/
def Obligations.CommandsLeaveQueue : Prop :=
  ∀ (c : Instr) (s t : State), exec c s = .next t → t.pending = s.pending ∧ t.variant64 = s.variant64

/-- R61, R81: no command moves the counter or the published epoch back, but those that restart the package, or, for the
published epoch, the boot stage that restores it. The premise on the counter is the model's last value of it (log entry 41).
-/
def Obligations.TimeNeverRunsBack : Prop :=
  ∀ (c : Instr) (s t : State), s.mer.now ≤ merMax → exec c s = .next t →
    (∀ b, c ≠ .powerOnReset b) → c ≠ .packageReset → (∀ v, c ≠ .rstCtl v) → c ≠ .bootStart → c ≠ .flushRecord →
    s.mer.now ≤ t.mer.now ∧ ((∀ bad next, c ≠ .flash bad next) → s.mer.pub ≤ t.mer.pub)
end

