-- ==== Sys2Proof/Laws/Decode.lean ====
section
/-!
SUPPORT. Sys2Proof/Laws/Decode.lean: an array instruction of a core reads back from the word that it is written as (R153).
-/
namespace Sys2Proof

/-- OPC, SD and SA of a word that holds them. -/
theorem array_fields (o d a : Nat) (ho : o < 256) (hd : d < 32) (ha : a < 32) :
    arrayOpc (o + 256 * d + 8192 * a) = o ∧ arraySd (o + 256 * d + 8192 * a) = d ∧ arraySa (o + 256 * d + 8192 * a) = a := by
  simp only [arrayOpc, arraySd, arraySa]
  omega

/-- Decoding what encodeArray writes gives MTILE, MWAIT, MTEST and MDRAIN back, with every register. -/
theorem decodeArray_encodeArray (c x sd sa : Nat) (hd : sd < 32) (ha : sa < 32) :
    ∀ i ∈ [Instr.mtile c x sd sa, .mwait c x sa, .mtest c x sd sa, .mdrain c x],
      (encodeArray i).bind (decodeArray c x) = some i := by
  have t := array_fields 0x60 sd sa (by decide) hd ha
  have w := array_fields 0x61 0 sa (by decide) (by decide) ha
  have e := array_fields 0x62 sd sa (by decide) hd ha
  have m := array_fields 0x63 0 0 (by decide) (by decide) (by decide)
  simp only [Nat.mul_zero, Nat.add_zero] at w m
  intro i hi
  simp only [List.mem_cons, List.not_mem_nil, or_false] at hi
  obtain rfl | rfl | rfl | rfl := hi
  · simp only [encodeArray, decodeArray, Option.bind_some, t]
  · simp only [encodeArray, decodeArray, Option.bind_some, w]
  · simp only [encodeArray, decodeArray, Option.bind_some, e]
  · simp only [encodeArray, decodeArray, Option.bind_some, m]

end Sys2Proof
end

