-- ==== Sys2Proof/Laws/Memory.lean ====
section
/-!
SUPPORT. Sys2Proof/Laws/Memory.lean: every operation on a byte memory keeps its canonical form, and what it reads as
afterwards.
-/
namespace Sys2Proof.Machine

/-- The canonical form, as two statements about the list. -/
theorem wf_cons_iff (a : Nat) (v : Byte) (m : Mem) :
    Memory.wf ((a, v) :: m) = true ↔ v ≠ 0#8 ∧ (∀ c ∈ m.head?, a < c.1) ∧ Memory.wf m = true := by
  cases m with
  | nil => simp [Memory.wf]
  | cons c t => obtain ⟨b, w⟩ := c; simp [Memory.wf, and_assoc]

/-- A canonical list has no address at or below that of an entry after it. -/
theorem wf_tail {c : Host.Cell} {m : Mem} (h : Memory.wf (c :: m) = true) : Memory.wf m = true := by
  obtain ⟨a, v⟩ := c; exact ((wf_cons_iff a v m).1 h).2.2

theorem wf_lt {m : Mem} : ∀ {a : Nat} {v : Byte}, Memory.wf ((a, v) :: m) = true → ∀ c ∈ m, a < c.1 := by
  induction m with
  | nil => intro a v _ c hc; cases hc
  | cons d t ih =>
    intro a v h c hc
    obtain ⟨b, w⟩ := d
    have h1 := (wf_cons_iff a v _).1 h
    have hab : a < b := h1.2.1 (b, w) rfl
    cases hc with
    | head => exact hab
    | tail _ hc => exact Nat.lt_trans hab (ih h1.2.2 c hc)

/-- The head of a list after a write is the old head or the written address. -/
theorem head_write (m : Mem) (a : Nat) (b : Byte) (l : Nat) (h : ∀ c ∈ m, l < c.1) (hl : l < a) :
    ∀ c ∈ m.write a b, l < c.1 := by
  induction m with
  | nil =>
    intro c hc
    by_cases hb : b = 0#8
    · simp [Mem.write, hb] at hc
    · simp [Mem.write, hb] at hc; subst hc; exact hl
  | cons d t ih =>
    obtain ⟨k, v⟩ := d
    have hk : l < k := h (k, v) (by simp)
    have ht : ∀ c ∈ t, l < c.1 := fun c hc => h c (by simp [hc])
    intro c hc
    simp only [Mem.write] at hc
    split at hc
    · split at hc
      · exact ht c hc
      · simp only [List.mem_cons] at hc
        rcases hc with rfl | hc
        · exact hk
        · exact ht c hc
    · split at hc
      · split at hc
        · exact h c hc
        · simp only [List.mem_cons] at hc
          rcases hc with rfl | hc
          · exact hl
          · exact h c (by simpa using hc)
      · simp only [List.mem_cons] at hc
        rcases hc with rfl | hc
        · exact hk
        · exact ih ht c hc

theorem wf_of {a : Nat} {v : Byte} {m : Mem} (hv : v ≠ 0#8) (hl : ∀ c ∈ m, a < c.1) (hm : Memory.wf m = true) :
    Memory.wf ((a, v) :: m) = true :=
  (wf_cons_iff a v m).2 ⟨hv, fun c hc => hl c (List.mem_of_mem_head? hc), hm⟩

/-- A write keeps the canonical form. -/
theorem wf_write (m : Mem) (a : Nat) (b : Byte) (h : Memory.wf m = true) : Memory.wf (m.write a b) = true := by
  induction m with
  | nil => by_cases hb : b = 0#8 <;> simp [Mem.write, hb, Memory.wf]
  | cons d t ih =>
    obtain ⟨k, v⟩ := d
    have hv := ((wf_cons_iff k v t).1 h).1
    have hl := wf_lt h
    have ht := wf_tail h
    simp only [Mem.write]
    split
    · split
      · exact ht
      · rename_i hb; exact wf_of hb hl ht
    · split
      · split
        · exact h
        · rename_i hne hlt hb
          refine wf_of hb ?_ h
          intro c hc
          simp only [List.mem_cons] at hc
          rcases hc with rfl | hc
          · exact hlt
          · exact Nat.lt_trans hlt (hl c hc)
      · rename_i hne hlt
        exact wf_of hv (head_write t a b k hl (by omega)) (ih ht)

/-- A write of several bytes keeps it. -/
theorem wf_writeN (bs : List Byte) : ∀ (m : Mem) (a : Nat), Memory.wf m = true → Memory.wf (m.writeN a bs) = true := by
  induction bs with
  | nil => intro m a h; exact h
  | cons b t ih => intro m a h; exact ih _ _ (wf_write m a b h)

/-- Leaving out cells keeps it. -/
theorem wf_filter (p : Host.Cell → Bool) (m : Mem) (h : Memory.wf m = true) : Memory.wf (m.filter p) = true := by
  induction m with
  | nil => exact h
  | cons d t ih =>
    obtain ⟨k, v⟩ := d
    rw [List.filter_cons]
    split
    · exact wf_of ((wf_cons_iff k v t).1 h).1 (fun c hc => wf_lt h c ((List.mem_filter.1 hc).1)) (ih (wf_tail h))
    · exact ih (wf_tail h)

theorem wf_clear (m : Mem) (lo len : Nat) (h : Memory.wf m = true) : Memory.wf (m.clear lo len) = true :=
  wf_filter _ m h

theorem wf_foldl_write (l : List Host.Cell) (f : Host.Cell → Nat) :
    ∀ (d : Mem), Memory.wf d = true → Memory.wf (l.foldl (fun d c => d.write (f c) c.2) d) = true := by
  induction l with
  | nil => intro d h; exact h
  | cons c t ih => intro d h; exact ih _ (wf_write d (f c) c.2 h)

/-- A copy from one memory to another keeps it. -/
theorem wf_copyTo (src : Mem) (a n : Nat) (dst : Mem) (b : Nat) (h : Memory.wf dst = true) :
    Memory.wf (src.copyTo a n dst b) = true :=
  wf_foldl_write _ (fun c => b + (c.1 - a)) _ (wf_clear dst b n h)

/-- The XOR of one memory into another keeps it. -/
theorem wf_xorTo (src : Mem) (a n : Nat) (dst : Mem) (b : Nat) (h : Memory.wf dst = true) :
    Memory.wf (src.xorTo a n dst b) = true := by
  unfold Mem.xorTo
  generalize src.filter _ = l
  induction l generalizing dst with
  | nil => exact h
  | cons c t ih => exact ih _ (wf_write dst _ _ h)

/-- An address below every listed one reads 0. -/
theorem read_below (m : Mem) (a : Nat) (h : ∀ c ∈ m, a < c.1) : m.read a = 0#8 := by
  cases m with
  | nil => rfl
  | cons d t =>
    obtain ⟨k, v⟩ := d
    have hk : a < k := h (k, v) (by simp)
    simp [Mem.read, Nat.ne_of_lt hk, hk]

/-- What a write of a byte leaves to be read. -/
theorem read_write (m : Mem) (a x : Nat) (b : Byte) (h : Memory.wf m = true) :
    (m.write a b).read x = if x = a then b else m.read x := by
  induction m with
  | nil =>
    by_cases hb : b = 0#8
    · subst hb; by_cases hx : x = a <;> simp [Mem.write, Mem.read, hx]
    · by_cases hx : x = a
      · simp [Mem.write, Mem.read, hb, hx]
      · simp [Mem.write, Mem.read, hb, hx]
  | cons d t ih =>
    obtain ⟨k, v⟩ := d
    have hl := wf_lt h
    have ht := wf_tail h
    simp only [Mem.write]
    split
    · rename_i hak
      subst hak
      split
      · rename_i hb
        subst hb
        by_cases hx : x = a
        · subst hx; simp [read_below t x hl]
        · simp only [Mem.read, hx, if_false]
          split
          · exact read_below t x (fun c hc => Nat.lt_trans ‹x < a› (hl c hc))
          · rfl
      · by_cases hx : x = a <;> simp [Mem.read, hx]
    · rename_i hak
      split
      · rename_i hlt
        split
        · rename_i hb
          subst hb
          by_cases hx : x = a
          · subst hx; simp [Mem.read, hak, hlt]
          · simp [hx]
        · rename_i hb
          by_cases hx : x = a
          · subst hx; simp [Mem.read]
          · simp only [Mem.read, hx, if_false]
            split
            · rename_i hxa
              simp [Nat.ne_of_lt (Nat.lt_trans hxa hlt), Nat.lt_trans hxa hlt]
            · rfl
      · rename_i hlt
        simp only [Mem.read, ih ht]
        by_cases hx : x = a
        · subst hx; simp [hak, hlt]
        · simp [hx]

/-- A write of several bytes: the bytes inside it, and every other address as before. -/
theorem read_writeN (bs : List Byte) : ∀ (m : Mem) (a x : Nat), Memory.wf m = true →
    (m.writeN a bs).read x = if a ≤ x ∧ x < a + bs.length then bs.getD (x - a) 0#8 else m.read x := by
  induction bs with
  | nil =>
    intro m a x _
    rw [if_neg (fun h => absurd h.2 (Nat.not_lt.mpr h.1))]
    rfl
  | cons b t ih =>
    intro m a x h
    rw [Mem.writeN, ih _ _ _ (wf_write m a b h), read_write m a x b h, List.length_cons]
    by_cases h1 : x = a
    · rw [if_neg (by omega), if_pos h1, if_pos (by omega), show x - a = 0 by omega]
      rfl
    · by_cases h2 : a ≤ x ∧ x < a + (t.length + 1)
      · rw [if_pos (by omega), if_pos h2, show x - a = (x - (a + 1)) + 1 by omega]
        rfl
      · rw [if_neg (by omega), if_neg h1, if_neg h2]

end Sys2Proof.Machine
end

