-- ==== Sys2Proof/Laws/State.lean ====
section
/-!
SUPPORT. Sys2Proof/Laws/State.lean: what the named updates of the state and of the pipeline leave, a lemma for each field.
-/
namespace Sys2Proof.Machine

/-! ## State.modMbx -/

@[simp] theorem State.modMbx_variant64 (s : State) (m : Nat) (f : Mailbox → Mailbox) : (s.modMbx m f).variant64 = s.variant64 := rfl
@[simp] theorem State.modMbx_mer (s : State) (m : Nat) (f : Mailbox → Mailbox) : (s.modMbx m f).mer = s.mer := rfl
@[simp] theorem State.modMbx_pipe (s : State) (m : Nat) (f : Mailbox → Mailbox) : (s.modMbx m f).pipe = s.pipe := rfl
@[simp] theorem State.modMbx_boot (s : State) (m : Nat) (f : Mailbox → Mailbox) : (s.modMbx m f).boot = s.boot := rfl
@[simp] theorem State.modMbx_nor (s : State) (m : Nat) (f : Mailbox → Mailbox) : (s.modMbx m f).nor = s.nor := rfl
@[simp] theorem State.modMbx_fcu (s : State) (m : Nat) (f : Mailbox → Mailbox) : (s.modMbx m f).fcu = s.fcu := rfl
@[simp] theorem State.modMbx_pwr (s : State) (m : Nat) (f : Mailbox → Mailbox) : (s.modMbx m f).pwr = s.pwr := rfl
@[simp] theorem State.modMbx_d2d (s : State) (m : Nat) (f : Mailbox → Mailbox) : (s.modMbx m f).d2d = s.d2d := rfl
@[simp] theorem State.modMbx_sb (s : State) (m : Nat) (f : Mailbox → Mailbox) : (s.modMbx m f).sb = s.sb := rfl
@[simp] theorem State.modMbx_dbg (s : State) (m : Nat) (f : Mailbox → Mailbox) : (s.modMbx m f).dbg = s.dbg := rfl
@[simp] theorem State.modMbx_pcie (s : State) (m : Nat) (f : Mailbox → Mailbox) : (s.modMbx m f).pcie = s.pcie := rfl
@[simp] theorem State.modMbx_coel (s : State) (m : Nat) (f : Mailbox → Mailbox) : (s.modMbx m f).coel = s.coel := rfl
@[simp] theorem State.modMbx_fab (s : State) (m : Nat) (f : Mailbox → Mailbox) : (s.modMbx m f).fab = s.fab := rfl
@[simp] theorem State.modMbx_flush (s : State) (m : Nat) (f : Mailbox → Mailbox) : (s.modMbx m f).flush = s.flush := rfl
@[simp] theorem State.modMbx_reads (s : State) (m : Nat) (f : Mailbox → Mailbox) : (s.modMbx m f).reads = s.reads := rfl
@[simp] theorem State.modMbx_free (s : State) (m : Nat) (f : Mailbox → Mailbox) : (s.modMbx m f).free = s.free := rfl
@[simp] theorem State.modMbx_out (s : State) (m : Nat) (f : Mailbox → Mailbox) : (s.modMbx m f).out = s.out := rfl
@[simp] theorem State.modMbx_pending (s : State) (m : Nat) (f : Mailbox → Mailbox) : (s.modMbx m f).pending = s.pending := rfl

/-! ## State.freeCore -/

@[simp] theorem State.freeCore_variant64 (s : State) (core : Nat) : (s.freeCore core).variant64 = s.variant64 := rfl
@[simp] theorem State.freeCore_mer (s : State) (core : Nat) : (s.freeCore core).mer = s.mer := rfl
@[simp] theorem State.freeCore_pipe (s : State) (core : Nat) : (s.freeCore core).pipe = s.pipe := rfl
@[simp] theorem State.freeCore_boot (s : State) (core : Nat) : (s.freeCore core).boot = s.boot := rfl
@[simp] theorem State.freeCore_nor (s : State) (core : Nat) : (s.freeCore core).nor = s.nor := rfl
@[simp] theorem State.freeCore_fcu (s : State) (core : Nat) : (s.freeCore core).fcu = s.fcu := rfl
@[simp] theorem State.freeCore_pwr (s : State) (core : Nat) : (s.freeCore core).pwr = s.pwr := rfl
@[simp] theorem State.freeCore_d2d (s : State) (core : Nat) : (s.freeCore core).d2d = s.d2d := rfl
@[simp] theorem State.freeCore_sb (s : State) (core : Nat) : (s.freeCore core).sb = s.sb := rfl
@[simp] theorem State.freeCore_dbg (s : State) (core : Nat) : (s.freeCore core).dbg = s.dbg := rfl
@[simp] theorem State.freeCore_pcie (s : State) (core : Nat) : (s.freeCore core).pcie = s.pcie := rfl
@[simp] theorem State.freeCore_mbx (s : State) (core : Nat) : (s.freeCore core).mbx = s.mbx := rfl
@[simp] theorem State.freeCore_fab (s : State) (core : Nat) : (s.freeCore core).fab = s.fab := rfl
@[simp] theorem State.freeCore_flush (s : State) (core : Nat) : (s.freeCore core).flush = s.flush := rfl
@[simp] theorem State.freeCore_reads (s : State) (core : Nat) : (s.freeCore core).reads = s.reads := rfl
@[simp] theorem State.freeCore_free (s : State) (core : Nat) : (s.freeCore core).free = s.free := rfl
@[simp] theorem State.freeCore_out (s : State) (core : Nat) : (s.freeCore core).out = s.out := rfl
@[simp] theorem State.freeCore_pending (s : State) (core : Nat) : (s.freeCore core).pending = s.pending := rfl

/-! ## State.unqueue -/

@[simp] theorem State.unqueue_variant64 (s : State) (r : Request) : (s.unqueue r).variant64 = s.variant64 := rfl
@[simp] theorem State.unqueue_mer (s : State) (r : Request) : (s.unqueue r).mer = s.mer := rfl
@[simp] theorem State.unqueue_pipe (s : State) (r : Request) : (s.unqueue r).pipe = s.pipe := rfl
@[simp] theorem State.unqueue_boot (s : State) (r : Request) : (s.unqueue r).boot = s.boot := rfl
@[simp] theorem State.unqueue_nor (s : State) (r : Request) : (s.unqueue r).nor = s.nor := rfl
@[simp] theorem State.unqueue_fcu (s : State) (r : Request) : (s.unqueue r).fcu = s.fcu := rfl
@[simp] theorem State.unqueue_pwr (s : State) (r : Request) : (s.unqueue r).pwr = s.pwr := rfl
@[simp] theorem State.unqueue_d2d (s : State) (r : Request) : (s.unqueue r).d2d = s.d2d := rfl
@[simp] theorem State.unqueue_sb (s : State) (r : Request) : (s.unqueue r).sb = s.sb := rfl
@[simp] theorem State.unqueue_dbg (s : State) (r : Request) : (s.unqueue r).dbg = s.dbg := rfl
@[simp] theorem State.unqueue_pcie (s : State) (r : Request) : (s.unqueue r).pcie = s.pcie := rfl
@[simp] theorem State.unqueue_coel (s : State) (r : Request) : (s.unqueue r).coel = s.coel := rfl
@[simp] theorem State.unqueue_fab (s : State) (r : Request) : (s.unqueue r).fab = s.fab := rfl
@[simp] theorem State.unqueue_flush (s : State) (r : Request) : (s.unqueue r).flush = s.flush := rfl
@[simp] theorem State.unqueue_reads (s : State) (r : Request) : (s.unqueue r).reads = s.reads := rfl
@[simp] theorem State.unqueue_free (s : State) (r : Request) : (s.unqueue r).free = s.free := rfl
@[simp] theorem State.unqueue_out (s : State) (r : Request) : (s.unqueue r).out = s.out := rfl
@[simp] theorem State.unqueue_pending (s : State) (r : Request) : (s.unqueue r).pending = s.pending := rfl

/-! ## State.enterSafe -/

@[simp] theorem State.enterSafe_variant64 (s : State) : (s.enterSafe).variant64 = s.variant64 := rfl
@[simp] theorem State.enterSafe_mer (s : State) : (s.enterSafe).mer = s.mer := rfl
@[simp] theorem State.enterSafe_pipe (s : State) : (s.enterSafe).pipe = s.pipe := rfl
@[simp] theorem State.enterSafe_nor (s : State) : (s.enterSafe).nor = s.nor := rfl
@[simp] theorem State.enterSafe_pwr (s : State) : (s.enterSafe).pwr = s.pwr := rfl
@[simp] theorem State.enterSafe_d2d (s : State) : (s.enterSafe).d2d = s.d2d := rfl
@[simp] theorem State.enterSafe_sb (s : State) : (s.enterSafe).sb = s.sb := rfl
@[simp] theorem State.enterSafe_dbg (s : State) : (s.enterSafe).dbg = s.dbg := rfl
@[simp] theorem State.enterSafe_mbx (s : State) : (s.enterSafe).mbx = s.mbx := rfl
@[simp] theorem State.enterSafe_coel (s : State) : (s.enterSafe).coel = s.coel := rfl
@[simp] theorem State.enterSafe_fab (s : State) : (s.enterSafe).fab = s.fab := rfl
@[simp] theorem State.enterSafe_reads (s : State) : (s.enterSafe).reads = s.reads := rfl
@[simp] theorem State.enterSafe_free (s : State) : (s.enterSafe).free = s.free := rfl
@[simp] theorem State.enterSafe_out (s : State) : (s.enterSafe).out = s.out := rfl
@[simp] theorem State.enterSafe_pending (s : State) : (s.enterSafe).pending = s.pending := rfl

/-! ## State.flrMbx -/

@[simp] theorem State.flrMbx_variant64 (s : State) (m : Nat) : (s.flrMbx m).variant64 = s.variant64 := rfl
@[simp] theorem State.flrMbx_mer (s : State) (m : Nat) : (s.flrMbx m).mer = s.mer := rfl
@[simp] theorem State.flrMbx_boot (s : State) (m : Nat) : (s.flrMbx m).boot = s.boot := rfl
@[simp] theorem State.flrMbx_nor (s : State) (m : Nat) : (s.flrMbx m).nor = s.nor := rfl
@[simp] theorem State.flrMbx_fcu (s : State) (m : Nat) : (s.flrMbx m).fcu = s.fcu := rfl
@[simp] theorem State.flrMbx_pwr (s : State) (m : Nat) : (s.flrMbx m).pwr = s.pwr := rfl
@[simp] theorem State.flrMbx_d2d (s : State) (m : Nat) : (s.flrMbx m).d2d = s.d2d := rfl
@[simp] theorem State.flrMbx_sb (s : State) (m : Nat) : (s.flrMbx m).sb = s.sb := rfl
@[simp] theorem State.flrMbx_dbg (s : State) (m : Nat) : (s.flrMbx m).dbg = s.dbg := rfl
@[simp] theorem State.flrMbx_pcie (s : State) (m : Nat) : (s.flrMbx m).pcie = s.pcie := rfl
@[simp] theorem State.flrMbx_fab (s : State) (m : Nat) : (s.flrMbx m).fab = s.fab := rfl
@[simp] theorem State.flrMbx_flush (s : State) (m : Nat) : (s.flrMbx m).flush = s.flush := rfl
@[simp] theorem State.flrMbx_reads (s : State) (m : Nat) : (s.flrMbx m).reads = s.reads := rfl
@[simp] theorem State.flrMbx_free (s : State) (m : Nat) : (s.flrMbx m).free = s.free := rfl
@[simp] theorem State.flrMbx_out (s : State) (m : Nat) : (s.flrMbx m).out = s.out := rfl
@[simp] theorem State.flrMbx_pending (s : State) (m : Nat) : (s.flrMbx m).pending = s.pending := rfl

/-! ## State.flrFunc -/

@[simp] theorem State.flrFunc_variant64 (s : State) (n : Nat) : (s.flrFunc n).variant64 = s.variant64 := rfl
@[simp] theorem State.flrFunc_mer (s : State) (n : Nat) : (s.flrFunc n).mer = s.mer := rfl
@[simp] theorem State.flrFunc_pipe (s : State) (n : Nat) : (s.flrFunc n).pipe = s.pipe := rfl
@[simp] theorem State.flrFunc_boot (s : State) (n : Nat) : (s.flrFunc n).boot = s.boot := rfl
@[simp] theorem State.flrFunc_nor (s : State) (n : Nat) : (s.flrFunc n).nor = s.nor := rfl
@[simp] theorem State.flrFunc_fcu (s : State) (n : Nat) : (s.flrFunc n).fcu = s.fcu := rfl
@[simp] theorem State.flrFunc_pwr (s : State) (n : Nat) : (s.flrFunc n).pwr = s.pwr := rfl
@[simp] theorem State.flrFunc_d2d (s : State) (n : Nat) : (s.flrFunc n).d2d = s.d2d := rfl
@[simp] theorem State.flrFunc_sb (s : State) (n : Nat) : (s.flrFunc n).sb = s.sb := rfl
@[simp] theorem State.flrFunc_dbg (s : State) (n : Nat) : (s.flrFunc n).dbg = s.dbg := rfl
@[simp] theorem State.flrFunc_mbx (s : State) (n : Nat) : (s.flrFunc n).mbx = s.mbx := rfl
@[simp] theorem State.flrFunc_coel (s : State) (n : Nat) : (s.flrFunc n).coel = s.coel := rfl
@[simp] theorem State.flrFunc_fab (s : State) (n : Nat) : (s.flrFunc n).fab = s.fab := rfl
@[simp] theorem State.flrFunc_flush (s : State) (n : Nat) : (s.flrFunc n).flush = s.flush := rfl
@[simp] theorem State.flrFunc_reads (s : State) (n : Nat) : (s.flrFunc n).reads = s.reads := rfl
@[simp] theorem State.flrFunc_free (s : State) (n : Nat) : (s.flrFunc n).free = s.free := rfl
@[simp] theorem State.flrFunc_out (s : State) (n : Nat) : (s.flrFunc n).out = s.out := rfl
@[simp] theorem State.flrFunc_pending (s : State) (n : Nat) : (s.flrFunc n).pending = s.pending := rfl

/-! ## State.startRom -/

@[simp] theorem State.startRom_variant64 (s : State) : (s.startRom).variant64 = s.variant64 := rfl
@[simp] theorem State.startRom_mer (s : State) : (s.startRom).mer = s.mer := rfl
@[simp] theorem State.startRom_pipe (s : State) : (s.startRom).pipe = s.pipe := rfl
@[simp] theorem State.startRom_nor (s : State) : (s.startRom).nor = s.nor := rfl
@[simp] theorem State.startRom_fcu (s : State) : (s.startRom).fcu = s.fcu := rfl
@[simp] theorem State.startRom_d2d (s : State) : (s.startRom).d2d = s.d2d := rfl
@[simp] theorem State.startRom_sb (s : State) : (s.startRom).sb = s.sb := rfl
@[simp] theorem State.startRom_dbg (s : State) : (s.startRom).dbg = s.dbg := rfl
@[simp] theorem State.startRom_pcie (s : State) : (s.startRom).pcie = s.pcie := rfl
@[simp] theorem State.startRom_mbx (s : State) : (s.startRom).mbx = s.mbx := rfl
@[simp] theorem State.startRom_coel (s : State) : (s.startRom).coel = s.coel := rfl
@[simp] theorem State.startRom_fab (s : State) : (s.startRom).fab = s.fab := rfl
@[simp] theorem State.startRom_flush (s : State) : (s.startRom).flush = s.flush := rfl
@[simp] theorem State.startRom_reads (s : State) : (s.startRom).reads = s.reads := rfl
@[simp] theorem State.startRom_free (s : State) : (s.startRom).free = s.free := rfl
@[simp] theorem State.startRom_out (s : State) : (s.startRom).out = s.out := rfl
@[simp] theorem State.startRom_pending (s : State) : (s.startRom).pending = s.pending := rfl

/-! ## State.showImage -/

@[simp] theorem State.showImage_variant64 (s : State) : (s.showImage).variant64 = s.variant64 := rfl
@[simp] theorem State.showImage_mer (s : State) : (s.showImage).mer = s.mer := rfl
@[simp] theorem State.showImage_pipe (s : State) : (s.showImage).pipe = s.pipe := rfl
@[simp] theorem State.showImage_nor (s : State) : (s.showImage).nor = s.nor := rfl
@[simp] theorem State.showImage_fcu (s : State) : (s.showImage).fcu = s.fcu := rfl
@[simp] theorem State.showImage_pwr (s : State) : (s.showImage).pwr = s.pwr := rfl
@[simp] theorem State.showImage_d2d (s : State) : (s.showImage).d2d = s.d2d := rfl
@[simp] theorem State.showImage_sb (s : State) : (s.showImage).sb = s.sb := rfl
@[simp] theorem State.showImage_dbg (s : State) : (s.showImage).dbg = s.dbg := rfl
@[simp] theorem State.showImage_pcie (s : State) : (s.showImage).pcie = s.pcie := rfl
@[simp] theorem State.showImage_mbx (s : State) : (s.showImage).mbx = s.mbx := rfl
@[simp] theorem State.showImage_coel (s : State) : (s.showImage).coel = s.coel := rfl
@[simp] theorem State.showImage_fab (s : State) : (s.showImage).fab = s.fab := rfl
@[simp] theorem State.showImage_flush (s : State) : (s.showImage).flush = s.flush := rfl
@[simp] theorem State.showImage_reads (s : State) : (s.showImage).reads = s.reads := rfl
@[simp] theorem State.showImage_free (s : State) : (s.showImage).free = s.free := rfl
@[simp] theorem State.showImage_out (s : State) : (s.showImage).out = s.out := rfl
@[simp] theorem State.showImage_pending (s : State) : (s.showImage).pending = s.pending := rfl

/-! ## State.takeSettings -/

@[simp] theorem State.takeSettings_variant64 (s : State) : (s.takeSettings).variant64 = s.variant64 := rfl
@[simp] theorem State.takeSettings_mer (s : State) : (s.takeSettings).mer = s.mer := rfl
@[simp] theorem State.takeSettings_pipe (s : State) : (s.takeSettings).pipe = s.pipe := rfl
@[simp] theorem State.takeSettings_fcu (s : State) : (s.takeSettings).fcu = s.fcu := rfl
@[simp] theorem State.takeSettings_pwr (s : State) : (s.takeSettings).pwr = s.pwr := rfl
@[simp] theorem State.takeSettings_d2d (s : State) : (s.takeSettings).d2d = s.d2d := rfl
@[simp] theorem State.takeSettings_sb (s : State) : (s.takeSettings).sb = s.sb := rfl
@[simp] theorem State.takeSettings_dbg (s : State) : (s.takeSettings).dbg = s.dbg := rfl
@[simp] theorem State.takeSettings_pcie (s : State) : (s.takeSettings).pcie = s.pcie := rfl
@[simp] theorem State.takeSettings_mbx (s : State) : (s.takeSettings).mbx = s.mbx := rfl
@[simp] theorem State.takeSettings_coel (s : State) : (s.takeSettings).coel = s.coel := rfl
@[simp] theorem State.takeSettings_fab (s : State) : (s.takeSettings).fab = s.fab := rfl
@[simp] theorem State.takeSettings_flush (s : State) : (s.takeSettings).flush = s.flush := rfl
@[simp] theorem State.takeSettings_reads (s : State) : (s.takeSettings).reads = s.reads := rfl
@[simp] theorem State.takeSettings_free (s : State) : (s.takeSettings).free = s.free := rfl
@[simp] theorem State.takeSettings_out (s : State) : (s.takeSettings).out = s.out := rfl
@[simp] theorem State.takeSettings_pending (s : State) : (s.takeSettings).pending = s.pending := rfl

/-! ## State.setKeys -/

@[simp] theorem State.setKeys_variant64 (s : State) (n : Nat) (a b : List Byte) : (s.setKeys n a b).variant64 = s.variant64 := rfl
@[simp] theorem State.setKeys_mer (s : State) (n : Nat) (a b : List Byte) : (s.setKeys n a b).mer = s.mer := rfl
@[simp] theorem State.setKeys_pipe (s : State) (n : Nat) (a b : List Byte) : (s.setKeys n a b).pipe = s.pipe := rfl
@[simp] theorem State.setKeys_boot (s : State) (n : Nat) (a b : List Byte) : (s.setKeys n a b).boot = s.boot := rfl
@[simp] theorem State.setKeys_nor (s : State) (n : Nat) (a b : List Byte) : (s.setKeys n a b).nor = s.nor := rfl
@[simp] theorem State.setKeys_fcu (s : State) (n : Nat) (a b : List Byte) : (s.setKeys n a b).fcu = s.fcu := rfl
@[simp] theorem State.setKeys_pwr (s : State) (n : Nat) (a b : List Byte) : (s.setKeys n a b).pwr = s.pwr := rfl
@[simp] theorem State.setKeys_d2d (s : State) (n : Nat) (a b : List Byte) : (s.setKeys n a b).d2d = s.d2d := rfl
@[simp] theorem State.setKeys_sb (s : State) (n : Nat) (a b : List Byte) : (s.setKeys n a b).sb = s.sb := rfl
@[simp] theorem State.setKeys_dbg (s : State) (n : Nat) (a b : List Byte) : (s.setKeys n a b).dbg = s.dbg := rfl
@[simp] theorem State.setKeys_pcie (s : State) (n : Nat) (a b : List Byte) : (s.setKeys n a b).pcie = s.pcie := rfl
@[simp] theorem State.setKeys_mbx (s : State) (n : Nat) (a b : List Byte) : (s.setKeys n a b).mbx = s.mbx := rfl
@[simp] theorem State.setKeys_coel (s : State) (n : Nat) (a b : List Byte) : (s.setKeys n a b).coel = s.coel := rfl
@[simp] theorem State.setKeys_flush (s : State) (n : Nat) (a b : List Byte) : (s.setKeys n a b).flush = s.flush := rfl
@[simp] theorem State.setKeys_reads (s : State) (n : Nat) (a b : List Byte) : (s.setKeys n a b).reads = s.reads := rfl
@[simp] theorem State.setKeys_free (s : State) (n : Nat) (a b : List Byte) : (s.setKeys n a b).free = s.free := rfl
@[simp] theorem State.setKeys_out (s : State) (n : Nat) (a b : List Byte) : (s.setKeys n a b).out = s.out := rfl
@[simp] theorem State.setKeys_pending (s : State) (n : Nat) (a b : List Byte) : (s.setKeys n a b).pending = s.pending := rfl

/-! ## State.modScheds -/

@[simp] theorem State.modScheds_variant64 (s : State) (r : Request) (f : Sched → Sched) : (s.modScheds r f).variant64 = s.variant64 := rfl
@[simp] theorem State.modScheds_mer (s : State) (r : Request) (f : Sched → Sched) : (s.modScheds r f).mer = s.mer := rfl
@[simp] theorem State.modScheds_boot (s : State) (r : Request) (f : Sched → Sched) : (s.modScheds r f).boot = s.boot := rfl
@[simp] theorem State.modScheds_nor (s : State) (r : Request) (f : Sched → Sched) : (s.modScheds r f).nor = s.nor := rfl
@[simp] theorem State.modScheds_fcu (s : State) (r : Request) (f : Sched → Sched) : (s.modScheds r f).fcu = s.fcu := rfl
@[simp] theorem State.modScheds_pwr (s : State) (r : Request) (f : Sched → Sched) : (s.modScheds r f).pwr = s.pwr := rfl
@[simp] theorem State.modScheds_d2d (s : State) (r : Request) (f : Sched → Sched) : (s.modScheds r f).d2d = s.d2d := rfl
@[simp] theorem State.modScheds_sb (s : State) (r : Request) (f : Sched → Sched) : (s.modScheds r f).sb = s.sb := rfl
@[simp] theorem State.modScheds_dbg (s : State) (r : Request) (f : Sched → Sched) : (s.modScheds r f).dbg = s.dbg := rfl
@[simp] theorem State.modScheds_pcie (s : State) (r : Request) (f : Sched → Sched) : (s.modScheds r f).pcie = s.pcie := rfl
@[simp] theorem State.modScheds_mbx (s : State) (r : Request) (f : Sched → Sched) : (s.modScheds r f).mbx = s.mbx := rfl
@[simp] theorem State.modScheds_coel (s : State) (r : Request) (f : Sched → Sched) : (s.modScheds r f).coel = s.coel := rfl
@[simp] theorem State.modScheds_fab (s : State) (r : Request) (f : Sched → Sched) : (s.modScheds r f).fab = s.fab := rfl
@[simp] theorem State.modScheds_flush (s : State) (r : Request) (f : Sched → Sched) : (s.modScheds r f).flush = s.flush := rfl
@[simp] theorem State.modScheds_reads (s : State) (r : Request) (f : Sched → Sched) : (s.modScheds r f).reads = s.reads := rfl
@[simp] theorem State.modScheds_free (s : State) (r : Request) (f : Sched → Sched) : (s.modScheds r f).free = s.free := rfl
@[simp] theorem State.modScheds_out (s : State) (r : Request) (f : Sched → Sched) : (s.modScheds r f).out = s.out := rfl
@[simp] theorem State.modScheds_pending (s : State) (r : Request) (f : Sched → Sched) : (s.modScheds r f).pending = s.pending := rfl

/-! ## State.clear -/

@[simp] theorem State.clear_variant64 (s : State) : (s.clear).variant64 = s.variant64 := rfl
@[simp] theorem State.clear_boot (s : State) : (s.clear).boot = s.boot := rfl
@[simp] theorem State.clear_nor (s : State) : (s.clear).nor = s.nor := rfl
@[simp] theorem State.clear_fcu (s : State) : (s.clear).fcu = s.fcu := rfl
@[simp] theorem State.clear_reads (s : State) : (s.clear).reads = s.reads := rfl
@[simp] theorem State.clear_free (s : State) : (s.clear).free = s.free := rfl
@[simp] theorem State.clear_out (s : State) : (s.clear).out = s.out := rfl
@[simp] theorem State.clear_pending (s : State) : (s.clear).pending = s.pending := rfl

/-! ## State.packageReset -/

@[simp] theorem State.packageReset_variant64 (s : State) (w : LastRst) : (s.packageReset w).variant64 = s.variant64 := rfl
@[simp] theorem State.packageReset_nor (s : State) (w : LastRst) : (s.packageReset w).nor = s.nor := rfl
@[simp] theorem State.packageReset_reads (s : State) (w : LastRst) : (s.packageReset w).reads = s.reads := rfl
@[simp] theorem State.packageReset_free (s : State) (w : LastRst) : (s.packageReset w).free = s.free := rfl
@[simp] theorem State.packageReset_out (s : State) (w : LastRst) : (s.packageReset w).out = s.out := rfl
@[simp] theorem State.packageReset_pending (s : State) (w : LastRst) : (s.packageReset w).pending = s.pending := rfl

/-! ## State.releaseOut -/

@[simp] theorem State.releaseOut_variant64 (s : State) : (s.releaseOut).variant64 = s.variant64 := rfl
@[simp] theorem State.releaseOut_mer (s : State) : (s.releaseOut).mer = s.mer := rfl
@[simp] theorem State.releaseOut_pipe (s : State) : (s.releaseOut).pipe = s.pipe := rfl
@[simp] theorem State.releaseOut_boot (s : State) : (s.releaseOut).boot = s.boot := rfl
@[simp] theorem State.releaseOut_nor (s : State) : (s.releaseOut).nor = s.nor := rfl
@[simp] theorem State.releaseOut_fcu (s : State) : (s.releaseOut).fcu = s.fcu := rfl
@[simp] theorem State.releaseOut_pwr (s : State) : (s.releaseOut).pwr = s.pwr := rfl
@[simp] theorem State.releaseOut_d2d (s : State) : (s.releaseOut).d2d = s.d2d := rfl
@[simp] theorem State.releaseOut_sb (s : State) : (s.releaseOut).sb = s.sb := rfl
@[simp] theorem State.releaseOut_dbg (s : State) : (s.releaseOut).dbg = s.dbg := rfl
@[simp] theorem State.releaseOut_mbx (s : State) : (s.releaseOut).mbx = s.mbx := rfl
@[simp] theorem State.releaseOut_coel (s : State) : (s.releaseOut).coel = s.coel := rfl
@[simp] theorem State.releaseOut_fab (s : State) : (s.releaseOut).fab = s.fab := rfl
@[simp] theorem State.releaseOut_flush (s : State) : (s.releaseOut).flush = s.flush := rfl
@[simp] theorem State.releaseOut_reads (s : State) : (s.releaseOut).reads = s.reads := rfl
@[simp] theorem State.releaseOut_free (s : State) : (s.releaseOut).free = s.free := rfl
@[simp] theorem State.releaseOut_pending (s : State) : (s.releaseOut).pending = s.pending := rfl

/-! ## Pipe.modPart -/

@[simp] theorem Pipe.modPart_variant64 (p : Pipe) (k : Nat) (f : Part → Part) : (p.modPart k f).variant64 = p.variant64 := rfl
@[simp] theorem Pipe.modPart_hbm (p : Pipe) (k : Nat) (f : Part → Part) : (p.modPart k f).hbm = p.hbm := rfl
@[simp] theorem Pipe.modPart_poison (p : Pipe) (k : Nat) (f : Part → Part) : (p.modPart k f).poison = p.poison := rfl
@[simp] theorem Pipe.modPart_weak (p : Pipe) (k : Nat) (f : Part → Part) : (p.modPart k f).weak = p.weak := rfl
@[simp] theorem Pipe.modPart_unissued (p : Pipe) (k : Nat) (f : Part → Part) : (p.modPart k f).unissued = p.unissued := rfl
@[simp] theorem Pipe.modPart_plate (p : Pipe) (k : Nat) (f : Part → Part) : (p.modPart k f).plate = p.plate := rfl
@[simp] theorem Pipe.modPart_media (p : Pipe) (k : Nat) (f : Part → Part) : (p.modPart k f).media = p.media := rfl
@[simp] theorem Pipe.modPart_nand (p : Pipe) (k : Nat) (f : Part → Part) : (p.modPart k f).nand = p.nand := rfl
@[simp] theorem Pipe.modPart_jobs (p : Pipe) (k : Nat) (f : Part → Part) : (p.modPart k f).jobs = p.jobs := rfl
@[simp] theorem Pipe.modPart_nextJob (p : Pipe) (k : Nat) (f : Part → Part) : (p.modPart k f).nextJob = p.nextJob := rfl
@[simp] theorem Pipe.modPart_order (p : Pipe) (k : Nat) (f : Part → Part) : (p.modPart k f).order = p.order := rfl
@[simp] theorem Pipe.modPart_handles (p : Pipe) (k : Nat) (f : Part → Part) : (p.modPart k f).handles = p.handles := rfl
@[simp] theorem Pipe.modPart_idx (p : Pipe) (k : Nat) (f : Part → Part) : (p.modPart k f).idx = p.idx := rfl
@[simp] theorem Pipe.modPart_nextLoad (p : Pipe) (k : Nat) (f : Part → Part) : (p.modPart k f).nextLoad = p.nextLoad := rfl
@[simp] theorem Pipe.modPart_cacheTier (p : Pipe) (k : Nat) (f : Part → Part) : (p.modPart k f).cacheTier = p.cacheTier := rfl
@[simp] theorem Pipe.modPart_etabs (p : Pipe) (k : Nat) (f : Part → Part) : (p.modPart k f).etabs = p.etabs := rfl
@[simp] theorem Pipe.modPart_etabHandles (p : Pipe) (k : Nat) (f : Part → Part) : (p.modPart k f).etabHandles = p.etabHandles := rfl
@[simp] theorem Pipe.modPart_kernels (p : Pipe) (k : Nat) (f : Part → Part) : (p.modPart k f).kernels = p.kernels := rfl
@[simp] theorem Pipe.modPart_rnets (p : Pipe) (k : Nat) (f : Part → Part) : (p.modPart k f).rnets = p.rnets := rfl
@[simp] theorem Pipe.modPart_image (p : Pipe) (k : Nat) (f : Part → Part) : (p.modPart k f).image = p.image := rfl
@[simp] theorem Pipe.modPart_general (p : Pipe) (k : Nat) (f : Part → Part) : (p.modPart k f).general = p.general := rfl
@[simp] theorem Pipe.modPart_bank (p : Pipe) (k : Nat) (f : Part → Part) : (p.modPart k f).bank = p.bank := rfl
@[simp] theorem Pipe.modPart_tables (p : Pipe) (k : Nat) (f : Part → Part) : (p.modPart k f).tables = p.tables := rfl
@[simp] theorem Pipe.modPart_plateSlots (p : Pipe) (k : Nat) (f : Part → Part) : (p.modPart k f).plateSlots = p.plateSlots := rfl
@[simp] theorem Pipe.modPart_oldest (p : Pipe) (k : Nat) (f : Part → Part) : (p.modPart k f).oldest = p.oldest := rfl
@[simp] theorem Pipe.modPart_nbuSeq (p : Pipe) (k : Nat) (f : Part → Part) : (p.modPart k f).nbuSeq = p.nbuSeq := rfl
@[simp] theorem Pipe.modPart_walks (p : Pipe) (k : Nat) (f : Part → Part) : (p.modPart k f).walks = p.walks := rfl
@[simp] theorem Pipe.modPart_pageUse (p : Pipe) (k : Nat) (f : Part → Part) : (p.modPart k f).pageUse = p.pageUse := rfl
@[simp] theorem Pipe.modPart_ckptMs (p : Pipe) (k : Nat) (f : Part → Part) : (p.modPart k f).ckptMs = p.ckptMs := rfl
@[simp] theorem Pipe.modPart_ckptNow (p : Pipe) (k : Nat) (f : Part → Part) : (p.modPart k f).ckptNow = p.ckptNow := rfl
@[simp] theorem Pipe.modPart_ckptCut (p : Pipe) (k : Nat) (f : Part → Part) : (p.modPart k f).ckptCut = p.ckptCut := rfl
@[simp] theorem Pipe.modPart_scrubDays (p : Pipe) (k : Nat) (f : Part → Part) : (p.modPart k f).scrubDays = p.scrubDays := rfl
@[simp] theorem Pipe.modPart_ecpct (p : Pipe) (k : Nat) (f : Part → Part) : (p.modPart k f).ecpct = p.ecpct := rfl
@[simp] theorem Pipe.modPart_wllim (p : Pipe) (k : Nat) (f : Part → Part) : (p.modPart k f).wllim = p.wllim := rfl
@[simp] theorem Pipe.modPart_pecmax (p : Pipe) (k : Nat) (f : Part → Part) : (p.modPart k f).pecmax = p.pecmax := rfl
@[simp] theorem Pipe.modPart_dirtyMax (p : Pipe) (k : Nat) (f : Part → Part) : (p.modPart k f).dirtyMax = p.dirtyMax := rfl
@[simp] theorem Pipe.modPart_pair (p : Pipe) (k : Nat) (f : Part → Part) : (p.modPart k f).pair = p.pair := rfl
@[simp] theorem Pipe.modPart_late (p : Pipe) (k : Nat) (f : Part → Part) : (p.modPart k f).late = p.late := rfl
@[simp] theorem Pipe.modPart_edits (p : Pipe) (k : Nat) (f : Part → Part) : (p.modPart k f).edits = p.edits := rfl
@[simp] theorem Pipe.modPart_out (p : Pipe) (k : Nat) (f : Part → Part) : (p.modPart k f).out = p.out := rfl

/-! ## Pipe.modCore -/

@[simp] theorem Pipe.modCore_variant64 (p : Pipe) (k : Nat) (f : CoreSt → CoreSt) : (p.modCore k f).variant64 = p.variant64 := rfl
@[simp] theorem Pipe.modCore_hbm (p : Pipe) (k : Nat) (f : CoreSt → CoreSt) : (p.modCore k f).hbm = p.hbm := rfl
@[simp] theorem Pipe.modCore_poison (p : Pipe) (k : Nat) (f : CoreSt → CoreSt) : (p.modCore k f).poison = p.poison := rfl
@[simp] theorem Pipe.modCore_weak (p : Pipe) (k : Nat) (f : CoreSt → CoreSt) : (p.modCore k f).weak = p.weak := rfl
@[simp] theorem Pipe.modCore_unissued (p : Pipe) (k : Nat) (f : CoreSt → CoreSt) : (p.modCore k f).unissued = p.unissued := rfl
@[simp] theorem Pipe.modCore_plate (p : Pipe) (k : Nat) (f : CoreSt → CoreSt) : (p.modCore k f).plate = p.plate := rfl
@[simp] theorem Pipe.modCore_media (p : Pipe) (k : Nat) (f : CoreSt → CoreSt) : (p.modCore k f).media = p.media := rfl
@[simp] theorem Pipe.modCore_nand (p : Pipe) (k : Nat) (f : CoreSt → CoreSt) : (p.modCore k f).nand = p.nand := rfl
@[simp] theorem Pipe.modCore_jobs (p : Pipe) (k : Nat) (f : CoreSt → CoreSt) : (p.modCore k f).jobs = p.jobs := rfl
@[simp] theorem Pipe.modCore_nextJob (p : Pipe) (k : Nat) (f : CoreSt → CoreSt) : (p.modCore k f).nextJob = p.nextJob := rfl
@[simp] theorem Pipe.modCore_order (p : Pipe) (k : Nat) (f : CoreSt → CoreSt) : (p.modCore k f).order = p.order := rfl
@[simp] theorem Pipe.modCore_handles (p : Pipe) (k : Nat) (f : CoreSt → CoreSt) : (p.modCore k f).handles = p.handles := rfl
@[simp] theorem Pipe.modCore_idx (p : Pipe) (k : Nat) (f : CoreSt → CoreSt) : (p.modCore k f).idx = p.idx := rfl
@[simp] theorem Pipe.modCore_nextLoad (p : Pipe) (k : Nat) (f : CoreSt → CoreSt) : (p.modCore k f).nextLoad = p.nextLoad := rfl
@[simp] theorem Pipe.modCore_cacheTier (p : Pipe) (k : Nat) (f : CoreSt → CoreSt) : (p.modCore k f).cacheTier = p.cacheTier := rfl
@[simp] theorem Pipe.modCore_etabs (p : Pipe) (k : Nat) (f : CoreSt → CoreSt) : (p.modCore k f).etabs = p.etabs := rfl
@[simp] theorem Pipe.modCore_etabHandles (p : Pipe) (k : Nat) (f : CoreSt → CoreSt) : (p.modCore k f).etabHandles = p.etabHandles := rfl
@[simp] theorem Pipe.modCore_kernels (p : Pipe) (k : Nat) (f : CoreSt → CoreSt) : (p.modCore k f).kernels = p.kernels := rfl
@[simp] theorem Pipe.modCore_rnets (p : Pipe) (k : Nat) (f : CoreSt → CoreSt) : (p.modCore k f).rnets = p.rnets := rfl
@[simp] theorem Pipe.modCore_image (p : Pipe) (k : Nat) (f : CoreSt → CoreSt) : (p.modCore k f).image = p.image := rfl
@[simp] theorem Pipe.modCore_general (p : Pipe) (k : Nat) (f : CoreSt → CoreSt) : (p.modCore k f).general = p.general := rfl
@[simp] theorem Pipe.modCore_bank (p : Pipe) (k : Nat) (f : CoreSt → CoreSt) : (p.modCore k f).bank = p.bank := rfl
@[simp] theorem Pipe.modCore_tables (p : Pipe) (k : Nat) (f : CoreSt → CoreSt) : (p.modCore k f).tables = p.tables := rfl
@[simp] theorem Pipe.modCore_plateSlots (p : Pipe) (k : Nat) (f : CoreSt → CoreSt) : (p.modCore k f).plateSlots = p.plateSlots := rfl
@[simp] theorem Pipe.modCore_oldest (p : Pipe) (k : Nat) (f : CoreSt → CoreSt) : (p.modCore k f).oldest = p.oldest := rfl
@[simp] theorem Pipe.modCore_nbuSeq (p : Pipe) (k : Nat) (f : CoreSt → CoreSt) : (p.modCore k f).nbuSeq = p.nbuSeq := rfl
@[simp] theorem Pipe.modCore_walks (p : Pipe) (k : Nat) (f : CoreSt → CoreSt) : (p.modCore k f).walks = p.walks := rfl
@[simp] theorem Pipe.modCore_pageUse (p : Pipe) (k : Nat) (f : CoreSt → CoreSt) : (p.modCore k f).pageUse = p.pageUse := rfl
@[simp] theorem Pipe.modCore_ckptMs (p : Pipe) (k : Nat) (f : CoreSt → CoreSt) : (p.modCore k f).ckptMs = p.ckptMs := rfl
@[simp] theorem Pipe.modCore_ckptNow (p : Pipe) (k : Nat) (f : CoreSt → CoreSt) : (p.modCore k f).ckptNow = p.ckptNow := rfl
@[simp] theorem Pipe.modCore_ckptCut (p : Pipe) (k : Nat) (f : CoreSt → CoreSt) : (p.modCore k f).ckptCut = p.ckptCut := rfl
@[simp] theorem Pipe.modCore_scrubDays (p : Pipe) (k : Nat) (f : CoreSt → CoreSt) : (p.modCore k f).scrubDays = p.scrubDays := rfl
@[simp] theorem Pipe.modCore_ecpct (p : Pipe) (k : Nat) (f : CoreSt → CoreSt) : (p.modCore k f).ecpct = p.ecpct := rfl
@[simp] theorem Pipe.modCore_wllim (p : Pipe) (k : Nat) (f : CoreSt → CoreSt) : (p.modCore k f).wllim = p.wllim := rfl
@[simp] theorem Pipe.modCore_pecmax (p : Pipe) (k : Nat) (f : CoreSt → CoreSt) : (p.modCore k f).pecmax = p.pecmax := rfl
@[simp] theorem Pipe.modCore_dirtyMax (p : Pipe) (k : Nat) (f : CoreSt → CoreSt) : (p.modCore k f).dirtyMax = p.dirtyMax := rfl
@[simp] theorem Pipe.modCore_pair (p : Pipe) (k : Nat) (f : CoreSt → CoreSt) : (p.modCore k f).pair = p.pair := rfl
@[simp] theorem Pipe.modCore_late (p : Pipe) (k : Nat) (f : CoreSt → CoreSt) : (p.modCore k f).late = p.late := rfl
@[simp] theorem Pipe.modCore_edits (p : Pipe) (k : Nat) (f : CoreSt → CoreSt) : (p.modCore k f).edits = p.edits := rfl
@[simp] theorem Pipe.modCore_out (p : Pipe) (k : Nat) (f : CoreSt → CoreSt) : (p.modCore k f).out = p.out := rfl

/-! ## Pipe.modNbu -/

@[simp] theorem Pipe.modNbu_variant64 (p : Pipe) (k pc : Nat) (f : Nbu → Nbu) : (p.modNbu k pc f).variant64 = p.variant64 := rfl
@[simp] theorem Pipe.modNbu_hbm (p : Pipe) (k pc : Nat) (f : Nbu → Nbu) : (p.modNbu k pc f).hbm = p.hbm := rfl
@[simp] theorem Pipe.modNbu_poison (p : Pipe) (k pc : Nat) (f : Nbu → Nbu) : (p.modNbu k pc f).poison = p.poison := rfl
@[simp] theorem Pipe.modNbu_weak (p : Pipe) (k pc : Nat) (f : Nbu → Nbu) : (p.modNbu k pc f).weak = p.weak := rfl
@[simp] theorem Pipe.modNbu_unissued (p : Pipe) (k pc : Nat) (f : Nbu → Nbu) : (p.modNbu k pc f).unissued = p.unissued := rfl
@[simp] theorem Pipe.modNbu_plate (p : Pipe) (k pc : Nat) (f : Nbu → Nbu) : (p.modNbu k pc f).plate = p.plate := rfl
@[simp] theorem Pipe.modNbu_media (p : Pipe) (k pc : Nat) (f : Nbu → Nbu) : (p.modNbu k pc f).media = p.media := rfl
@[simp] theorem Pipe.modNbu_nand (p : Pipe) (k pc : Nat) (f : Nbu → Nbu) : (p.modNbu k pc f).nand = p.nand := rfl
@[simp] theorem Pipe.modNbu_jobs (p : Pipe) (k pc : Nat) (f : Nbu → Nbu) : (p.modNbu k pc f).jobs = p.jobs := rfl
@[simp] theorem Pipe.modNbu_nextJob (p : Pipe) (k pc : Nat) (f : Nbu → Nbu) : (p.modNbu k pc f).nextJob = p.nextJob := rfl
@[simp] theorem Pipe.modNbu_order (p : Pipe) (k pc : Nat) (f : Nbu → Nbu) : (p.modNbu k pc f).order = p.order := rfl
@[simp] theorem Pipe.modNbu_handles (p : Pipe) (k pc : Nat) (f : Nbu → Nbu) : (p.modNbu k pc f).handles = p.handles := rfl
@[simp] theorem Pipe.modNbu_idx (p : Pipe) (k pc : Nat) (f : Nbu → Nbu) : (p.modNbu k pc f).idx = p.idx := rfl
@[simp] theorem Pipe.modNbu_nextLoad (p : Pipe) (k pc : Nat) (f : Nbu → Nbu) : (p.modNbu k pc f).nextLoad = p.nextLoad := rfl
@[simp] theorem Pipe.modNbu_cacheTier (p : Pipe) (k pc : Nat) (f : Nbu → Nbu) : (p.modNbu k pc f).cacheTier = p.cacheTier := rfl
@[simp] theorem Pipe.modNbu_etabs (p : Pipe) (k pc : Nat) (f : Nbu → Nbu) : (p.modNbu k pc f).etabs = p.etabs := rfl
@[simp] theorem Pipe.modNbu_etabHandles (p : Pipe) (k pc : Nat) (f : Nbu → Nbu) : (p.modNbu k pc f).etabHandles = p.etabHandles := rfl
@[simp] theorem Pipe.modNbu_kernels (p : Pipe) (k pc : Nat) (f : Nbu → Nbu) : (p.modNbu k pc f).kernels = p.kernels := rfl
@[simp] theorem Pipe.modNbu_rnets (p : Pipe) (k pc : Nat) (f : Nbu → Nbu) : (p.modNbu k pc f).rnets = p.rnets := rfl
@[simp] theorem Pipe.modNbu_image (p : Pipe) (k pc : Nat) (f : Nbu → Nbu) : (p.modNbu k pc f).image = p.image := rfl
@[simp] theorem Pipe.modNbu_general (p : Pipe) (k pc : Nat) (f : Nbu → Nbu) : (p.modNbu k pc f).general = p.general := rfl
@[simp] theorem Pipe.modNbu_bank (p : Pipe) (k pc : Nat) (f : Nbu → Nbu) : (p.modNbu k pc f).bank = p.bank := rfl
@[simp] theorem Pipe.modNbu_tables (p : Pipe) (k pc : Nat) (f : Nbu → Nbu) : (p.modNbu k pc f).tables = p.tables := rfl
@[simp] theorem Pipe.modNbu_plateSlots (p : Pipe) (k pc : Nat) (f : Nbu → Nbu) : (p.modNbu k pc f).plateSlots = p.plateSlots := rfl
@[simp] theorem Pipe.modNbu_oldest (p : Pipe) (k pc : Nat) (f : Nbu → Nbu) : (p.modNbu k pc f).oldest = p.oldest := rfl
@[simp] theorem Pipe.modNbu_nbuSeq (p : Pipe) (k pc : Nat) (f : Nbu → Nbu) : (p.modNbu k pc f).nbuSeq = p.nbuSeq := rfl
@[simp] theorem Pipe.modNbu_walks (p : Pipe) (k pc : Nat) (f : Nbu → Nbu) : (p.modNbu k pc f).walks = p.walks := rfl
@[simp] theorem Pipe.modNbu_pageUse (p : Pipe) (k pc : Nat) (f : Nbu → Nbu) : (p.modNbu k pc f).pageUse = p.pageUse := rfl
@[simp] theorem Pipe.modNbu_ckptMs (p : Pipe) (k pc : Nat) (f : Nbu → Nbu) : (p.modNbu k pc f).ckptMs = p.ckptMs := rfl
@[simp] theorem Pipe.modNbu_ckptNow (p : Pipe) (k pc : Nat) (f : Nbu → Nbu) : (p.modNbu k pc f).ckptNow = p.ckptNow := rfl
@[simp] theorem Pipe.modNbu_ckptCut (p : Pipe) (k pc : Nat) (f : Nbu → Nbu) : (p.modNbu k pc f).ckptCut = p.ckptCut := rfl
@[simp] theorem Pipe.modNbu_scrubDays (p : Pipe) (k pc : Nat) (f : Nbu → Nbu) : (p.modNbu k pc f).scrubDays = p.scrubDays := rfl
@[simp] theorem Pipe.modNbu_ecpct (p : Pipe) (k pc : Nat) (f : Nbu → Nbu) : (p.modNbu k pc f).ecpct = p.ecpct := rfl
@[simp] theorem Pipe.modNbu_wllim (p : Pipe) (k pc : Nat) (f : Nbu → Nbu) : (p.modNbu k pc f).wllim = p.wllim := rfl
@[simp] theorem Pipe.modNbu_pecmax (p : Pipe) (k pc : Nat) (f : Nbu → Nbu) : (p.modNbu k pc f).pecmax = p.pecmax := rfl
@[simp] theorem Pipe.modNbu_dirtyMax (p : Pipe) (k pc : Nat) (f : Nbu → Nbu) : (p.modNbu k pc f).dirtyMax = p.dirtyMax := rfl
@[simp] theorem Pipe.modNbu_pair (p : Pipe) (k pc : Nat) (f : Nbu → Nbu) : (p.modNbu k pc f).pair = p.pair := rfl
@[simp] theorem Pipe.modNbu_late (p : Pipe) (k pc : Nat) (f : Nbu → Nbu) : (p.modNbu k pc f).late = p.late := rfl
@[simp] theorem Pipe.modNbu_edits (p : Pipe) (k pc : Nat) (f : Nbu → Nbu) : (p.modNbu k pc f).edits = p.edits := rfl
@[simp] theorem Pipe.modNbu_out (p : Pipe) (k pc : Nat) (f : Nbu → Nbu) : (p.modNbu k pc f).out = p.out := rfl

/-! ## Pipe.modThread -/

@[simp] theorem Pipe.modThread_variant64 (p : Pipe) (k pc th : Nat) (f : Thread → Thread) : (p.modThread k pc th f).variant64 = p.variant64 := rfl
@[simp] theorem Pipe.modThread_hbm (p : Pipe) (k pc th : Nat) (f : Thread → Thread) : (p.modThread k pc th f).hbm = p.hbm := rfl
@[simp] theorem Pipe.modThread_poison (p : Pipe) (k pc th : Nat) (f : Thread → Thread) : (p.modThread k pc th f).poison = p.poison := rfl
@[simp] theorem Pipe.modThread_weak (p : Pipe) (k pc th : Nat) (f : Thread → Thread) : (p.modThread k pc th f).weak = p.weak := rfl
@[simp] theorem Pipe.modThread_unissued (p : Pipe) (k pc th : Nat) (f : Thread → Thread) : (p.modThread k pc th f).unissued = p.unissued := rfl
@[simp] theorem Pipe.modThread_plate (p : Pipe) (k pc th : Nat) (f : Thread → Thread) : (p.modThread k pc th f).plate = p.plate := rfl
@[simp] theorem Pipe.modThread_media (p : Pipe) (k pc th : Nat) (f : Thread → Thread) : (p.modThread k pc th f).media = p.media := rfl
@[simp] theorem Pipe.modThread_nand (p : Pipe) (k pc th : Nat) (f : Thread → Thread) : (p.modThread k pc th f).nand = p.nand := rfl
@[simp] theorem Pipe.modThread_jobs (p : Pipe) (k pc th : Nat) (f : Thread → Thread) : (p.modThread k pc th f).jobs = p.jobs := rfl
@[simp] theorem Pipe.modThread_nextJob (p : Pipe) (k pc th : Nat) (f : Thread → Thread) : (p.modThread k pc th f).nextJob = p.nextJob := rfl
@[simp] theorem Pipe.modThread_order (p : Pipe) (k pc th : Nat) (f : Thread → Thread) : (p.modThread k pc th f).order = p.order := rfl
@[simp] theorem Pipe.modThread_handles (p : Pipe) (k pc th : Nat) (f : Thread → Thread) : (p.modThread k pc th f).handles = p.handles := rfl
@[simp] theorem Pipe.modThread_idx (p : Pipe) (k pc th : Nat) (f : Thread → Thread) : (p.modThread k pc th f).idx = p.idx := rfl
@[simp] theorem Pipe.modThread_nextLoad (p : Pipe) (k pc th : Nat) (f : Thread → Thread) : (p.modThread k pc th f).nextLoad = p.nextLoad := rfl
@[simp] theorem Pipe.modThread_cacheTier (p : Pipe) (k pc th : Nat) (f : Thread → Thread) : (p.modThread k pc th f).cacheTier = p.cacheTier := rfl
@[simp] theorem Pipe.modThread_etabs (p : Pipe) (k pc th : Nat) (f : Thread → Thread) : (p.modThread k pc th f).etabs = p.etabs := rfl
@[simp] theorem Pipe.modThread_etabHandles (p : Pipe) (k pc th : Nat) (f : Thread → Thread) : (p.modThread k pc th f).etabHandles = p.etabHandles := rfl
@[simp] theorem Pipe.modThread_kernels (p : Pipe) (k pc th : Nat) (f : Thread → Thread) : (p.modThread k pc th f).kernels = p.kernels := rfl
@[simp] theorem Pipe.modThread_rnets (p : Pipe) (k pc th : Nat) (f : Thread → Thread) : (p.modThread k pc th f).rnets = p.rnets := rfl
@[simp] theorem Pipe.modThread_image (p : Pipe) (k pc th : Nat) (f : Thread → Thread) : (p.modThread k pc th f).image = p.image := rfl
@[simp] theorem Pipe.modThread_general (p : Pipe) (k pc th : Nat) (f : Thread → Thread) : (p.modThread k pc th f).general = p.general := rfl
@[simp] theorem Pipe.modThread_bank (p : Pipe) (k pc th : Nat) (f : Thread → Thread) : (p.modThread k pc th f).bank = p.bank := rfl
@[simp] theorem Pipe.modThread_tables (p : Pipe) (k pc th : Nat) (f : Thread → Thread) : (p.modThread k pc th f).tables = p.tables := rfl
@[simp] theorem Pipe.modThread_plateSlots (p : Pipe) (k pc th : Nat) (f : Thread → Thread) : (p.modThread k pc th f).plateSlots = p.plateSlots := rfl
@[simp] theorem Pipe.modThread_oldest (p : Pipe) (k pc th : Nat) (f : Thread → Thread) : (p.modThread k pc th f).oldest = p.oldest := rfl
@[simp] theorem Pipe.modThread_nbuSeq (p : Pipe) (k pc th : Nat) (f : Thread → Thread) : (p.modThread k pc th f).nbuSeq = p.nbuSeq := rfl
@[simp] theorem Pipe.modThread_walks (p : Pipe) (k pc th : Nat) (f : Thread → Thread) : (p.modThread k pc th f).walks = p.walks := rfl
@[simp] theorem Pipe.modThread_pageUse (p : Pipe) (k pc th : Nat) (f : Thread → Thread) : (p.modThread k pc th f).pageUse = p.pageUse := rfl
@[simp] theorem Pipe.modThread_ckptMs (p : Pipe) (k pc th : Nat) (f : Thread → Thread) : (p.modThread k pc th f).ckptMs = p.ckptMs := rfl
@[simp] theorem Pipe.modThread_ckptNow (p : Pipe) (k pc th : Nat) (f : Thread → Thread) : (p.modThread k pc th f).ckptNow = p.ckptNow := rfl
@[simp] theorem Pipe.modThread_ckptCut (p : Pipe) (k pc th : Nat) (f : Thread → Thread) : (p.modThread k pc th f).ckptCut = p.ckptCut := rfl
@[simp] theorem Pipe.modThread_scrubDays (p : Pipe) (k pc th : Nat) (f : Thread → Thread) : (p.modThread k pc th f).scrubDays = p.scrubDays := rfl
@[simp] theorem Pipe.modThread_ecpct (p : Pipe) (k pc th : Nat) (f : Thread → Thread) : (p.modThread k pc th f).ecpct = p.ecpct := rfl
@[simp] theorem Pipe.modThread_wllim (p : Pipe) (k pc th : Nat) (f : Thread → Thread) : (p.modThread k pc th f).wllim = p.wllim := rfl
@[simp] theorem Pipe.modThread_pecmax (p : Pipe) (k pc th : Nat) (f : Thread → Thread) : (p.modThread k pc th f).pecmax = p.pecmax := rfl
@[simp] theorem Pipe.modThread_dirtyMax (p : Pipe) (k pc th : Nat) (f : Thread → Thread) : (p.modThread k pc th f).dirtyMax = p.dirtyMax := rfl
@[simp] theorem Pipe.modThread_pair (p : Pipe) (k pc th : Nat) (f : Thread → Thread) : (p.modThread k pc th f).pair = p.pair := rfl
@[simp] theorem Pipe.modThread_late (p : Pipe) (k pc th : Nat) (f : Thread → Thread) : (p.modThread k pc th f).late = p.late := rfl
@[simp] theorem Pipe.modThread_edits (p : Pipe) (k pc th : Nat) (f : Thread → Thread) : (p.modThread k pc th f).edits = p.edits := rfl
@[simp] theorem Pipe.modThread_out (p : Pipe) (k pc th : Nat) (f : Thread → Thread) : (p.modThread k pc th f).out = p.out := rfl

/-! ## Pipe.setCtx -/

@[simp] theorem Pipe.setCtx_variant64 (p : Pipe) (k x : Nat) (c : CoreCtx) : (p.setCtx k x c).variant64 = p.variant64 := rfl
@[simp] theorem Pipe.setCtx_hbm (p : Pipe) (k x : Nat) (c : CoreCtx) : (p.setCtx k x c).hbm = p.hbm := rfl
@[simp] theorem Pipe.setCtx_poison (p : Pipe) (k x : Nat) (c : CoreCtx) : (p.setCtx k x c).poison = p.poison := rfl
@[simp] theorem Pipe.setCtx_weak (p : Pipe) (k x : Nat) (c : CoreCtx) : (p.setCtx k x c).weak = p.weak := rfl
@[simp] theorem Pipe.setCtx_unissued (p : Pipe) (k x : Nat) (c : CoreCtx) : (p.setCtx k x c).unissued = p.unissued := rfl
@[simp] theorem Pipe.setCtx_plate (p : Pipe) (k x : Nat) (c : CoreCtx) : (p.setCtx k x c).plate = p.plate := rfl
@[simp] theorem Pipe.setCtx_media (p : Pipe) (k x : Nat) (c : CoreCtx) : (p.setCtx k x c).media = p.media := rfl
@[simp] theorem Pipe.setCtx_nand (p : Pipe) (k x : Nat) (c : CoreCtx) : (p.setCtx k x c).nand = p.nand := rfl
@[simp] theorem Pipe.setCtx_jobs (p : Pipe) (k x : Nat) (c : CoreCtx) : (p.setCtx k x c).jobs = p.jobs := rfl
@[simp] theorem Pipe.setCtx_nextJob (p : Pipe) (k x : Nat) (c : CoreCtx) : (p.setCtx k x c).nextJob = p.nextJob := rfl
@[simp] theorem Pipe.setCtx_order (p : Pipe) (k x : Nat) (c : CoreCtx) : (p.setCtx k x c).order = p.order := rfl
@[simp] theorem Pipe.setCtx_handles (p : Pipe) (k x : Nat) (c : CoreCtx) : (p.setCtx k x c).handles = p.handles := rfl
@[simp] theorem Pipe.setCtx_idx (p : Pipe) (k x : Nat) (c : CoreCtx) : (p.setCtx k x c).idx = p.idx := rfl
@[simp] theorem Pipe.setCtx_nextLoad (p : Pipe) (k x : Nat) (c : CoreCtx) : (p.setCtx k x c).nextLoad = p.nextLoad := rfl
@[simp] theorem Pipe.setCtx_cacheTier (p : Pipe) (k x : Nat) (c : CoreCtx) : (p.setCtx k x c).cacheTier = p.cacheTier := rfl
@[simp] theorem Pipe.setCtx_etabs (p : Pipe) (k x : Nat) (c : CoreCtx) : (p.setCtx k x c).etabs = p.etabs := rfl
@[simp] theorem Pipe.setCtx_etabHandles (p : Pipe) (k x : Nat) (c : CoreCtx) : (p.setCtx k x c).etabHandles = p.etabHandles := rfl
@[simp] theorem Pipe.setCtx_kernels (p : Pipe) (k x : Nat) (c : CoreCtx) : (p.setCtx k x c).kernels = p.kernels := rfl
@[simp] theorem Pipe.setCtx_rnets (p : Pipe) (k x : Nat) (c : CoreCtx) : (p.setCtx k x c).rnets = p.rnets := rfl
@[simp] theorem Pipe.setCtx_image (p : Pipe) (k x : Nat) (c : CoreCtx) : (p.setCtx k x c).image = p.image := rfl
@[simp] theorem Pipe.setCtx_general (p : Pipe) (k x : Nat) (c : CoreCtx) : (p.setCtx k x c).general = p.general := rfl
@[simp] theorem Pipe.setCtx_bank (p : Pipe) (k x : Nat) (c : CoreCtx) : (p.setCtx k x c).bank = p.bank := rfl
@[simp] theorem Pipe.setCtx_tables (p : Pipe) (k x : Nat) (c : CoreCtx) : (p.setCtx k x c).tables = p.tables := rfl
@[simp] theorem Pipe.setCtx_plateSlots (p : Pipe) (k x : Nat) (c : CoreCtx) : (p.setCtx k x c).plateSlots = p.plateSlots := rfl
@[simp] theorem Pipe.setCtx_oldest (p : Pipe) (k x : Nat) (c : CoreCtx) : (p.setCtx k x c).oldest = p.oldest := rfl
@[simp] theorem Pipe.setCtx_nbuSeq (p : Pipe) (k x : Nat) (c : CoreCtx) : (p.setCtx k x c).nbuSeq = p.nbuSeq := rfl
@[simp] theorem Pipe.setCtx_walks (p : Pipe) (k x : Nat) (c : CoreCtx) : (p.setCtx k x c).walks = p.walks := rfl
@[simp] theorem Pipe.setCtx_pageUse (p : Pipe) (k x : Nat) (c : CoreCtx) : (p.setCtx k x c).pageUse = p.pageUse := rfl
@[simp] theorem Pipe.setCtx_ckptMs (p : Pipe) (k x : Nat) (c : CoreCtx) : (p.setCtx k x c).ckptMs = p.ckptMs := rfl
@[simp] theorem Pipe.setCtx_ckptNow (p : Pipe) (k x : Nat) (c : CoreCtx) : (p.setCtx k x c).ckptNow = p.ckptNow := rfl
@[simp] theorem Pipe.setCtx_ckptCut (p : Pipe) (k x : Nat) (c : CoreCtx) : (p.setCtx k x c).ckptCut = p.ckptCut := rfl
@[simp] theorem Pipe.setCtx_scrubDays (p : Pipe) (k x : Nat) (c : CoreCtx) : (p.setCtx k x c).scrubDays = p.scrubDays := rfl
@[simp] theorem Pipe.setCtx_ecpct (p : Pipe) (k x : Nat) (c : CoreCtx) : (p.setCtx k x c).ecpct = p.ecpct := rfl
@[simp] theorem Pipe.setCtx_wllim (p : Pipe) (k x : Nat) (c : CoreCtx) : (p.setCtx k x c).wllim = p.wllim := rfl
@[simp] theorem Pipe.setCtx_pecmax (p : Pipe) (k x : Nat) (c : CoreCtx) : (p.setCtx k x c).pecmax = p.pecmax := rfl
@[simp] theorem Pipe.setCtx_dirtyMax (p : Pipe) (k x : Nat) (c : CoreCtx) : (p.setCtx k x c).dirtyMax = p.dirtyMax := rfl
@[simp] theorem Pipe.setCtx_pair (p : Pipe) (k x : Nat) (c : CoreCtx) : (p.setCtx k x c).pair = p.pair := rfl
@[simp] theorem Pipe.setCtx_late (p : Pipe) (k x : Nat) (c : CoreCtx) : (p.setCtx k x c).late = p.late := rfl
@[simp] theorem Pipe.setCtx_edits (p : Pipe) (k x : Nat) (c : CoreCtx) : (p.setCtx k x c).edits = p.edits := rfl
@[simp] theorem Pipe.setCtx_out (p : Pipe) (k x : Nat) (c : CoreCtx) : (p.setCtx k x c).out = p.out := rfl

/-! ## Pipe.setVec -/

@[simp] theorem Pipe.setVec_variant64 (p : Pipe) (k x n : Nat) (v : VSlot) (c : CoreCtx) : (p.setVec k x n v c).variant64 = p.variant64 := rfl
@[simp] theorem Pipe.setVec_hbm (p : Pipe) (k x n : Nat) (v : VSlot) (c : CoreCtx) : (p.setVec k x n v c).hbm = p.hbm := rfl
@[simp] theorem Pipe.setVec_poison (p : Pipe) (k x n : Nat) (v : VSlot) (c : CoreCtx) : (p.setVec k x n v c).poison = p.poison := rfl
@[simp] theorem Pipe.setVec_weak (p : Pipe) (k x n : Nat) (v : VSlot) (c : CoreCtx) : (p.setVec k x n v c).weak = p.weak := rfl
@[simp] theorem Pipe.setVec_unissued (p : Pipe) (k x n : Nat) (v : VSlot) (c : CoreCtx) : (p.setVec k x n v c).unissued = p.unissued := rfl
@[simp] theorem Pipe.setVec_plate (p : Pipe) (k x n : Nat) (v : VSlot) (c : CoreCtx) : (p.setVec k x n v c).plate = p.plate := rfl
@[simp] theorem Pipe.setVec_media (p : Pipe) (k x n : Nat) (v : VSlot) (c : CoreCtx) : (p.setVec k x n v c).media = p.media := rfl
@[simp] theorem Pipe.setVec_nand (p : Pipe) (k x n : Nat) (v : VSlot) (c : CoreCtx) : (p.setVec k x n v c).nand = p.nand := rfl
@[simp] theorem Pipe.setVec_jobs (p : Pipe) (k x n : Nat) (v : VSlot) (c : CoreCtx) : (p.setVec k x n v c).jobs = p.jobs := rfl
@[simp] theorem Pipe.setVec_nextJob (p : Pipe) (k x n : Nat) (v : VSlot) (c : CoreCtx) : (p.setVec k x n v c).nextJob = p.nextJob := rfl
@[simp] theorem Pipe.setVec_order (p : Pipe) (k x n : Nat) (v : VSlot) (c : CoreCtx) : (p.setVec k x n v c).order = p.order := rfl
@[simp] theorem Pipe.setVec_handles (p : Pipe) (k x n : Nat) (v : VSlot) (c : CoreCtx) : (p.setVec k x n v c).handles = p.handles := rfl
@[simp] theorem Pipe.setVec_idx (p : Pipe) (k x n : Nat) (v : VSlot) (c : CoreCtx) : (p.setVec k x n v c).idx = p.idx := rfl
@[simp] theorem Pipe.setVec_nextLoad (p : Pipe) (k x n : Nat) (v : VSlot) (c : CoreCtx) : (p.setVec k x n v c).nextLoad = p.nextLoad := rfl
@[simp] theorem Pipe.setVec_cacheTier (p : Pipe) (k x n : Nat) (v : VSlot) (c : CoreCtx) : (p.setVec k x n v c).cacheTier = p.cacheTier := rfl
@[simp] theorem Pipe.setVec_etabs (p : Pipe) (k x n : Nat) (v : VSlot) (c : CoreCtx) : (p.setVec k x n v c).etabs = p.etabs := rfl
@[simp] theorem Pipe.setVec_etabHandles (p : Pipe) (k x n : Nat) (v : VSlot) (c : CoreCtx) : (p.setVec k x n v c).etabHandles = p.etabHandles := rfl
@[simp] theorem Pipe.setVec_kernels (p : Pipe) (k x n : Nat) (v : VSlot) (c : CoreCtx) : (p.setVec k x n v c).kernels = p.kernels := rfl
@[simp] theorem Pipe.setVec_rnets (p : Pipe) (k x n : Nat) (v : VSlot) (c : CoreCtx) : (p.setVec k x n v c).rnets = p.rnets := rfl
@[simp] theorem Pipe.setVec_image (p : Pipe) (k x n : Nat) (v : VSlot) (c : CoreCtx) : (p.setVec k x n v c).image = p.image := rfl
@[simp] theorem Pipe.setVec_general (p : Pipe) (k x n : Nat) (v : VSlot) (c : CoreCtx) : (p.setVec k x n v c).general = p.general := rfl
@[simp] theorem Pipe.setVec_bank (p : Pipe) (k x n : Nat) (v : VSlot) (c : CoreCtx) : (p.setVec k x n v c).bank = p.bank := rfl
@[simp] theorem Pipe.setVec_tables (p : Pipe) (k x n : Nat) (v : VSlot) (c : CoreCtx) : (p.setVec k x n v c).tables = p.tables := rfl
@[simp] theorem Pipe.setVec_plateSlots (p : Pipe) (k x n : Nat) (v : VSlot) (c : CoreCtx) : (p.setVec k x n v c).plateSlots = p.plateSlots := rfl
@[simp] theorem Pipe.setVec_oldest (p : Pipe) (k x n : Nat) (v : VSlot) (c : CoreCtx) : (p.setVec k x n v c).oldest = p.oldest := rfl
@[simp] theorem Pipe.setVec_nbuSeq (p : Pipe) (k x n : Nat) (v : VSlot) (c : CoreCtx) : (p.setVec k x n v c).nbuSeq = p.nbuSeq := rfl
@[simp] theorem Pipe.setVec_walks (p : Pipe) (k x n : Nat) (v : VSlot) (c : CoreCtx) : (p.setVec k x n v c).walks = p.walks := rfl
@[simp] theorem Pipe.setVec_pageUse (p : Pipe) (k x n : Nat) (v : VSlot) (c : CoreCtx) : (p.setVec k x n v c).pageUse = p.pageUse := rfl
@[simp] theorem Pipe.setVec_ckptMs (p : Pipe) (k x n : Nat) (v : VSlot) (c : CoreCtx) : (p.setVec k x n v c).ckptMs = p.ckptMs := rfl
@[simp] theorem Pipe.setVec_ckptNow (p : Pipe) (k x n : Nat) (v : VSlot) (c : CoreCtx) : (p.setVec k x n v c).ckptNow = p.ckptNow := rfl
@[simp] theorem Pipe.setVec_ckptCut (p : Pipe) (k x n : Nat) (v : VSlot) (c : CoreCtx) : (p.setVec k x n v c).ckptCut = p.ckptCut := rfl
@[simp] theorem Pipe.setVec_scrubDays (p : Pipe) (k x n : Nat) (v : VSlot) (c : CoreCtx) : (p.setVec k x n v c).scrubDays = p.scrubDays := rfl
@[simp] theorem Pipe.setVec_ecpct (p : Pipe) (k x n : Nat) (v : VSlot) (c : CoreCtx) : (p.setVec k x n v c).ecpct = p.ecpct := rfl
@[simp] theorem Pipe.setVec_wllim (p : Pipe) (k x n : Nat) (v : VSlot) (c : CoreCtx) : (p.setVec k x n v c).wllim = p.wllim := rfl
@[simp] theorem Pipe.setVec_pecmax (p : Pipe) (k x n : Nat) (v : VSlot) (c : CoreCtx) : (p.setVec k x n v c).pecmax = p.pecmax := rfl
@[simp] theorem Pipe.setVec_dirtyMax (p : Pipe) (k x n : Nat) (v : VSlot) (c : CoreCtx) : (p.setVec k x n v c).dirtyMax = p.dirtyMax := rfl
@[simp] theorem Pipe.setVec_pair (p : Pipe) (k x n : Nat) (v : VSlot) (c : CoreCtx) : (p.setVec k x n v c).pair = p.pair := rfl
@[simp] theorem Pipe.setVec_late (p : Pipe) (k x n : Nat) (v : VSlot) (c : CoreCtx) : (p.setVec k x n v c).late = p.late := rfl
@[simp] theorem Pipe.setVec_edits (p : Pipe) (k x n : Nat) (v : VSlot) (c : CoreCtx) : (p.setVec k x n v c).edits = p.edits := rfl
@[simp] theorem Pipe.setVec_out (p : Pipe) (k x n : Nat) (v : VSlot) (c : CoreCtx) : (p.setVec k x n v c).out = p.out := rfl

/-! ## Pipe.modFlash -/

@[simp] theorem Pipe.modFlash_variant64 (p : Pipe) (k : Nat) (f : FlashPart → FlashPart) : (p.modFlash k f).variant64 = p.variant64 := rfl
@[simp] theorem Pipe.modFlash_hbm (p : Pipe) (k : Nat) (f : FlashPart → FlashPart) : (p.modFlash k f).hbm = p.hbm := rfl
@[simp] theorem Pipe.modFlash_poison (p : Pipe) (k : Nat) (f : FlashPart → FlashPart) : (p.modFlash k f).poison = p.poison := rfl
@[simp] theorem Pipe.modFlash_weak (p : Pipe) (k : Nat) (f : FlashPart → FlashPart) : (p.modFlash k f).weak = p.weak := rfl
@[simp] theorem Pipe.modFlash_unissued (p : Pipe) (k : Nat) (f : FlashPart → FlashPart) : (p.modFlash k f).unissued = p.unissued := rfl
@[simp] theorem Pipe.modFlash_plate (p : Pipe) (k : Nat) (f : FlashPart → FlashPart) : (p.modFlash k f).plate = p.plate := rfl
@[simp] theorem Pipe.modFlash_media (p : Pipe) (k : Nat) (f : FlashPart → FlashPart) : (p.modFlash k f).media = p.media := rfl
@[simp] theorem Pipe.modFlash_nand (p : Pipe) (k : Nat) (f : FlashPart → FlashPart) : (p.modFlash k f).nand = p.nand := rfl
@[simp] theorem Pipe.modFlash_jobs (p : Pipe) (k : Nat) (f : FlashPart → FlashPart) : (p.modFlash k f).jobs = p.jobs := rfl
@[simp] theorem Pipe.modFlash_nextJob (p : Pipe) (k : Nat) (f : FlashPart → FlashPart) : (p.modFlash k f).nextJob = p.nextJob := rfl
@[simp] theorem Pipe.modFlash_order (p : Pipe) (k : Nat) (f : FlashPart → FlashPart) : (p.modFlash k f).order = p.order := rfl
@[simp] theorem Pipe.modFlash_handles (p : Pipe) (k : Nat) (f : FlashPart → FlashPart) : (p.modFlash k f).handles = p.handles := rfl
@[simp] theorem Pipe.modFlash_idx (p : Pipe) (k : Nat) (f : FlashPart → FlashPart) : (p.modFlash k f).idx = p.idx := rfl
@[simp] theorem Pipe.modFlash_nextLoad (p : Pipe) (k : Nat) (f : FlashPart → FlashPart) : (p.modFlash k f).nextLoad = p.nextLoad := rfl
@[simp] theorem Pipe.modFlash_cacheTier (p : Pipe) (k : Nat) (f : FlashPart → FlashPart) : (p.modFlash k f).cacheTier = p.cacheTier := rfl
@[simp] theorem Pipe.modFlash_etabs (p : Pipe) (k : Nat) (f : FlashPart → FlashPart) : (p.modFlash k f).etabs = p.etabs := rfl
@[simp] theorem Pipe.modFlash_etabHandles (p : Pipe) (k : Nat) (f : FlashPart → FlashPart) : (p.modFlash k f).etabHandles = p.etabHandles := rfl
@[simp] theorem Pipe.modFlash_kernels (p : Pipe) (k : Nat) (f : FlashPart → FlashPart) : (p.modFlash k f).kernels = p.kernels := rfl
@[simp] theorem Pipe.modFlash_rnets (p : Pipe) (k : Nat) (f : FlashPart → FlashPart) : (p.modFlash k f).rnets = p.rnets := rfl
@[simp] theorem Pipe.modFlash_image (p : Pipe) (k : Nat) (f : FlashPart → FlashPart) : (p.modFlash k f).image = p.image := rfl
@[simp] theorem Pipe.modFlash_general (p : Pipe) (k : Nat) (f : FlashPart → FlashPart) : (p.modFlash k f).general = p.general := rfl
@[simp] theorem Pipe.modFlash_bank (p : Pipe) (k : Nat) (f : FlashPart → FlashPart) : (p.modFlash k f).bank = p.bank := rfl
@[simp] theorem Pipe.modFlash_tables (p : Pipe) (k : Nat) (f : FlashPart → FlashPart) : (p.modFlash k f).tables = p.tables := rfl
@[simp] theorem Pipe.modFlash_plateSlots (p : Pipe) (k : Nat) (f : FlashPart → FlashPart) : (p.modFlash k f).plateSlots = p.plateSlots := rfl
@[simp] theorem Pipe.modFlash_oldest (p : Pipe) (k : Nat) (f : FlashPart → FlashPart) : (p.modFlash k f).oldest = p.oldest := rfl
@[simp] theorem Pipe.modFlash_nbuSeq (p : Pipe) (k : Nat) (f : FlashPart → FlashPart) : (p.modFlash k f).nbuSeq = p.nbuSeq := rfl
@[simp] theorem Pipe.modFlash_walks (p : Pipe) (k : Nat) (f : FlashPart → FlashPart) : (p.modFlash k f).walks = p.walks := rfl
@[simp] theorem Pipe.modFlash_pageUse (p : Pipe) (k : Nat) (f : FlashPart → FlashPart) : (p.modFlash k f).pageUse = p.pageUse := rfl
@[simp] theorem Pipe.modFlash_ckptMs (p : Pipe) (k : Nat) (f : FlashPart → FlashPart) : (p.modFlash k f).ckptMs = p.ckptMs := rfl
@[simp] theorem Pipe.modFlash_ckptNow (p : Pipe) (k : Nat) (f : FlashPart → FlashPart) : (p.modFlash k f).ckptNow = p.ckptNow := rfl
@[simp] theorem Pipe.modFlash_ckptCut (p : Pipe) (k : Nat) (f : FlashPart → FlashPart) : (p.modFlash k f).ckptCut = p.ckptCut := rfl
@[simp] theorem Pipe.modFlash_scrubDays (p : Pipe) (k : Nat) (f : FlashPart → FlashPart) : (p.modFlash k f).scrubDays = p.scrubDays := rfl
@[simp] theorem Pipe.modFlash_ecpct (p : Pipe) (k : Nat) (f : FlashPart → FlashPart) : (p.modFlash k f).ecpct = p.ecpct := rfl
@[simp] theorem Pipe.modFlash_wllim (p : Pipe) (k : Nat) (f : FlashPart → FlashPart) : (p.modFlash k f).wllim = p.wllim := rfl
@[simp] theorem Pipe.modFlash_pecmax (p : Pipe) (k : Nat) (f : FlashPart → FlashPart) : (p.modFlash k f).pecmax = p.pecmax := rfl
@[simp] theorem Pipe.modFlash_dirtyMax (p : Pipe) (k : Nat) (f : FlashPart → FlashPart) : (p.modFlash k f).dirtyMax = p.dirtyMax := rfl
@[simp] theorem Pipe.modFlash_pair (p : Pipe) (k : Nat) (f : FlashPart → FlashPart) : (p.modFlash k f).pair = p.pair := rfl
@[simp] theorem Pipe.modFlash_late (p : Pipe) (k : Nat) (f : FlashPart → FlashPart) : (p.modFlash k f).late = p.late := rfl
@[simp] theorem Pipe.modFlash_edits (p : Pipe) (k : Nat) (f : FlashPart → FlashPart) : (p.modFlash k f).edits = p.edits := rfl
@[simp] theorem Pipe.modFlash_out (p : Pipe) (k : Nat) (f : FlashPart → FlashPart) : (p.modFlash k f).out = p.out := rfl

/-! ## Pipe.setQueue -/

@[simp] theorem Pipe.setQueue_variant64 (p : Pipe) (q : Nat) (e : AlmEntry) : (p.setQueue q e).variant64 = p.variant64 := rfl
@[simp] theorem Pipe.setQueue_hbm (p : Pipe) (q : Nat) (e : AlmEntry) : (p.setQueue q e).hbm = p.hbm := rfl
@[simp] theorem Pipe.setQueue_poison (p : Pipe) (q : Nat) (e : AlmEntry) : (p.setQueue q e).poison = p.poison := rfl
@[simp] theorem Pipe.setQueue_weak (p : Pipe) (q : Nat) (e : AlmEntry) : (p.setQueue q e).weak = p.weak := rfl
@[simp] theorem Pipe.setQueue_unissued (p : Pipe) (q : Nat) (e : AlmEntry) : (p.setQueue q e).unissued = p.unissued := rfl
@[simp] theorem Pipe.setQueue_plate (p : Pipe) (q : Nat) (e : AlmEntry) : (p.setQueue q e).plate = p.plate := rfl
@[simp] theorem Pipe.setQueue_media (p : Pipe) (q : Nat) (e : AlmEntry) : (p.setQueue q e).media = p.media := rfl
@[simp] theorem Pipe.setQueue_nand (p : Pipe) (q : Nat) (e : AlmEntry) : (p.setQueue q e).nand = p.nand := rfl
@[simp] theorem Pipe.setQueue_jobs (p : Pipe) (q : Nat) (e : AlmEntry) : (p.setQueue q e).jobs = p.jobs := rfl
@[simp] theorem Pipe.setQueue_nextJob (p : Pipe) (q : Nat) (e : AlmEntry) : (p.setQueue q e).nextJob = p.nextJob := rfl
@[simp] theorem Pipe.setQueue_order (p : Pipe) (q : Nat) (e : AlmEntry) : (p.setQueue q e).order = p.order := rfl
@[simp] theorem Pipe.setQueue_handles (p : Pipe) (q : Nat) (e : AlmEntry) : (p.setQueue q e).handles = p.handles := rfl
@[simp] theorem Pipe.setQueue_idx (p : Pipe) (q : Nat) (e : AlmEntry) : (p.setQueue q e).idx = p.idx := rfl
@[simp] theorem Pipe.setQueue_nextLoad (p : Pipe) (q : Nat) (e : AlmEntry) : (p.setQueue q e).nextLoad = p.nextLoad := rfl
@[simp] theorem Pipe.setQueue_cacheTier (p : Pipe) (q : Nat) (e : AlmEntry) : (p.setQueue q e).cacheTier = p.cacheTier := rfl
@[simp] theorem Pipe.setQueue_etabs (p : Pipe) (q : Nat) (e : AlmEntry) : (p.setQueue q e).etabs = p.etabs := rfl
@[simp] theorem Pipe.setQueue_etabHandles (p : Pipe) (q : Nat) (e : AlmEntry) : (p.setQueue q e).etabHandles = p.etabHandles := rfl
@[simp] theorem Pipe.setQueue_kernels (p : Pipe) (q : Nat) (e : AlmEntry) : (p.setQueue q e).kernels = p.kernels := rfl
@[simp] theorem Pipe.setQueue_rnets (p : Pipe) (q : Nat) (e : AlmEntry) : (p.setQueue q e).rnets = p.rnets := rfl
@[simp] theorem Pipe.setQueue_image (p : Pipe) (q : Nat) (e : AlmEntry) : (p.setQueue q e).image = p.image := rfl
@[simp] theorem Pipe.setQueue_general (p : Pipe) (q : Nat) (e : AlmEntry) : (p.setQueue q e).general = p.general := rfl
@[simp] theorem Pipe.setQueue_bank (p : Pipe) (q : Nat) (e : AlmEntry) : (p.setQueue q e).bank = p.bank := rfl
@[simp] theorem Pipe.setQueue_tables (p : Pipe) (q : Nat) (e : AlmEntry) : (p.setQueue q e).tables = p.tables := rfl
@[simp] theorem Pipe.setQueue_plateSlots (p : Pipe) (q : Nat) (e : AlmEntry) : (p.setQueue q e).plateSlots = p.plateSlots := rfl
@[simp] theorem Pipe.setQueue_oldest (p : Pipe) (q : Nat) (e : AlmEntry) : (p.setQueue q e).oldest = p.oldest := rfl
@[simp] theorem Pipe.setQueue_nbuSeq (p : Pipe) (q : Nat) (e : AlmEntry) : (p.setQueue q e).nbuSeq = p.nbuSeq := rfl
@[simp] theorem Pipe.setQueue_walks (p : Pipe) (q : Nat) (e : AlmEntry) : (p.setQueue q e).walks = p.walks := rfl
@[simp] theorem Pipe.setQueue_pageUse (p : Pipe) (q : Nat) (e : AlmEntry) : (p.setQueue q e).pageUse = p.pageUse := rfl
@[simp] theorem Pipe.setQueue_ckptMs (p : Pipe) (q : Nat) (e : AlmEntry) : (p.setQueue q e).ckptMs = p.ckptMs := rfl
@[simp] theorem Pipe.setQueue_ckptNow (p : Pipe) (q : Nat) (e : AlmEntry) : (p.setQueue q e).ckptNow = p.ckptNow := rfl
@[simp] theorem Pipe.setQueue_ckptCut (p : Pipe) (q : Nat) (e : AlmEntry) : (p.setQueue q e).ckptCut = p.ckptCut := rfl
@[simp] theorem Pipe.setQueue_scrubDays (p : Pipe) (q : Nat) (e : AlmEntry) : (p.setQueue q e).scrubDays = p.scrubDays := rfl
@[simp] theorem Pipe.setQueue_ecpct (p : Pipe) (q : Nat) (e : AlmEntry) : (p.setQueue q e).ecpct = p.ecpct := rfl
@[simp] theorem Pipe.setQueue_wllim (p : Pipe) (q : Nat) (e : AlmEntry) : (p.setQueue q e).wllim = p.wllim := rfl
@[simp] theorem Pipe.setQueue_pecmax (p : Pipe) (q : Nat) (e : AlmEntry) : (p.setQueue q e).pecmax = p.pecmax := rfl
@[simp] theorem Pipe.setQueue_dirtyMax (p : Pipe) (q : Nat) (e : AlmEntry) : (p.setQueue q e).dirtyMax = p.dirtyMax := rfl
@[simp] theorem Pipe.setQueue_pair (p : Pipe) (q : Nat) (e : AlmEntry) : (p.setQueue q e).pair = p.pair := rfl
@[simp] theorem Pipe.setQueue_late (p : Pipe) (q : Nat) (e : AlmEntry) : (p.setQueue q e).late = p.late := rfl
@[simp] theorem Pipe.setQueue_edits (p : Pipe) (q : Nat) (e : AlmEntry) : (p.setQueue q e).edits = p.edits := rfl
@[simp] theorem Pipe.setQueue_out (p : Pipe) (q : Nat) (e : AlmEntry) : (p.setQueue q e).out = p.out := rfl

/-! ## Pipe.modQueue -/

@[simp] theorem Pipe.modQueue_variant64 (p : Pipe) (q : Nat) (f : AlmEntry → AlmEntry) : (p.modQueue q f).variant64 = p.variant64 := rfl
@[simp] theorem Pipe.modQueue_hbm (p : Pipe) (q : Nat) (f : AlmEntry → AlmEntry) : (p.modQueue q f).hbm = p.hbm := rfl
@[simp] theorem Pipe.modQueue_poison (p : Pipe) (q : Nat) (f : AlmEntry → AlmEntry) : (p.modQueue q f).poison = p.poison := rfl
@[simp] theorem Pipe.modQueue_weak (p : Pipe) (q : Nat) (f : AlmEntry → AlmEntry) : (p.modQueue q f).weak = p.weak := rfl
@[simp] theorem Pipe.modQueue_unissued (p : Pipe) (q : Nat) (f : AlmEntry → AlmEntry) : (p.modQueue q f).unissued = p.unissued := rfl
@[simp] theorem Pipe.modQueue_plate (p : Pipe) (q : Nat) (f : AlmEntry → AlmEntry) : (p.modQueue q f).plate = p.plate := rfl
@[simp] theorem Pipe.modQueue_media (p : Pipe) (q : Nat) (f : AlmEntry → AlmEntry) : (p.modQueue q f).media = p.media := rfl
@[simp] theorem Pipe.modQueue_nand (p : Pipe) (q : Nat) (f : AlmEntry → AlmEntry) : (p.modQueue q f).nand = p.nand := rfl
@[simp] theorem Pipe.modQueue_jobs (p : Pipe) (q : Nat) (f : AlmEntry → AlmEntry) : (p.modQueue q f).jobs = p.jobs := rfl
@[simp] theorem Pipe.modQueue_nextJob (p : Pipe) (q : Nat) (f : AlmEntry → AlmEntry) : (p.modQueue q f).nextJob = p.nextJob := rfl
@[simp] theorem Pipe.modQueue_order (p : Pipe) (q : Nat) (f : AlmEntry → AlmEntry) : (p.modQueue q f).order = p.order := rfl
@[simp] theorem Pipe.modQueue_handles (p : Pipe) (q : Nat) (f : AlmEntry → AlmEntry) : (p.modQueue q f).handles = p.handles := rfl
@[simp] theorem Pipe.modQueue_idx (p : Pipe) (q : Nat) (f : AlmEntry → AlmEntry) : (p.modQueue q f).idx = p.idx := rfl
@[simp] theorem Pipe.modQueue_nextLoad (p : Pipe) (q : Nat) (f : AlmEntry → AlmEntry) : (p.modQueue q f).nextLoad = p.nextLoad := rfl
@[simp] theorem Pipe.modQueue_cacheTier (p : Pipe) (q : Nat) (f : AlmEntry → AlmEntry) : (p.modQueue q f).cacheTier = p.cacheTier := rfl
@[simp] theorem Pipe.modQueue_etabs (p : Pipe) (q : Nat) (f : AlmEntry → AlmEntry) : (p.modQueue q f).etabs = p.etabs := rfl
@[simp] theorem Pipe.modQueue_etabHandles (p : Pipe) (q : Nat) (f : AlmEntry → AlmEntry) : (p.modQueue q f).etabHandles = p.etabHandles := rfl
@[simp] theorem Pipe.modQueue_kernels (p : Pipe) (q : Nat) (f : AlmEntry → AlmEntry) : (p.modQueue q f).kernels = p.kernels := rfl
@[simp] theorem Pipe.modQueue_rnets (p : Pipe) (q : Nat) (f : AlmEntry → AlmEntry) : (p.modQueue q f).rnets = p.rnets := rfl
@[simp] theorem Pipe.modQueue_image (p : Pipe) (q : Nat) (f : AlmEntry → AlmEntry) : (p.modQueue q f).image = p.image := rfl
@[simp] theorem Pipe.modQueue_general (p : Pipe) (q : Nat) (f : AlmEntry → AlmEntry) : (p.modQueue q f).general = p.general := rfl
@[simp] theorem Pipe.modQueue_bank (p : Pipe) (q : Nat) (f : AlmEntry → AlmEntry) : (p.modQueue q f).bank = p.bank := rfl
@[simp] theorem Pipe.modQueue_tables (p : Pipe) (q : Nat) (f : AlmEntry → AlmEntry) : (p.modQueue q f).tables = p.tables := rfl
@[simp] theorem Pipe.modQueue_plateSlots (p : Pipe) (q : Nat) (f : AlmEntry → AlmEntry) : (p.modQueue q f).plateSlots = p.plateSlots := rfl
@[simp] theorem Pipe.modQueue_oldest (p : Pipe) (q : Nat) (f : AlmEntry → AlmEntry) : (p.modQueue q f).oldest = p.oldest := rfl
@[simp] theorem Pipe.modQueue_nbuSeq (p : Pipe) (q : Nat) (f : AlmEntry → AlmEntry) : (p.modQueue q f).nbuSeq = p.nbuSeq := rfl
@[simp] theorem Pipe.modQueue_walks (p : Pipe) (q : Nat) (f : AlmEntry → AlmEntry) : (p.modQueue q f).walks = p.walks := rfl
@[simp] theorem Pipe.modQueue_pageUse (p : Pipe) (q : Nat) (f : AlmEntry → AlmEntry) : (p.modQueue q f).pageUse = p.pageUse := rfl
@[simp] theorem Pipe.modQueue_ckptMs (p : Pipe) (q : Nat) (f : AlmEntry → AlmEntry) : (p.modQueue q f).ckptMs = p.ckptMs := rfl
@[simp] theorem Pipe.modQueue_ckptNow (p : Pipe) (q : Nat) (f : AlmEntry → AlmEntry) : (p.modQueue q f).ckptNow = p.ckptNow := rfl
@[simp] theorem Pipe.modQueue_ckptCut (p : Pipe) (q : Nat) (f : AlmEntry → AlmEntry) : (p.modQueue q f).ckptCut = p.ckptCut := rfl
@[simp] theorem Pipe.modQueue_scrubDays (p : Pipe) (q : Nat) (f : AlmEntry → AlmEntry) : (p.modQueue q f).scrubDays = p.scrubDays := rfl
@[simp] theorem Pipe.modQueue_ecpct (p : Pipe) (q : Nat) (f : AlmEntry → AlmEntry) : (p.modQueue q f).ecpct = p.ecpct := rfl
@[simp] theorem Pipe.modQueue_wllim (p : Pipe) (q : Nat) (f : AlmEntry → AlmEntry) : (p.modQueue q f).wllim = p.wllim := rfl
@[simp] theorem Pipe.modQueue_pecmax (p : Pipe) (q : Nat) (f : AlmEntry → AlmEntry) : (p.modQueue q f).pecmax = p.pecmax := rfl
@[simp] theorem Pipe.modQueue_dirtyMax (p : Pipe) (q : Nat) (f : AlmEntry → AlmEntry) : (p.modQueue q f).dirtyMax = p.dirtyMax := rfl
@[simp] theorem Pipe.modQueue_pair (p : Pipe) (q : Nat) (f : AlmEntry → AlmEntry) : (p.modQueue q f).pair = p.pair := rfl
@[simp] theorem Pipe.modQueue_late (p : Pipe) (q : Nat) (f : AlmEntry → AlmEntry) : (p.modQueue q f).late = p.late := rfl
@[simp] theorem Pipe.modQueue_edits (p : Pipe) (q : Nat) (f : AlmEntry → AlmEntry) : (p.modQueue q f).edits = p.edits := rfl
@[simp] theorem Pipe.modQueue_out (p : Pipe) (q : Nat) (f : AlmEntry → AlmEntry) : (p.modQueue q f).out = p.out := rfl

/-! ## Pipe.modJob -/

@[simp] theorem Pipe.modJob_variant64 (p : Pipe) (j : Nat) (f : Job → Job) : (p.modJob j f).variant64 = p.variant64 := rfl
@[simp] theorem Pipe.modJob_parts (p : Pipe) (j : Nat) (f : Job → Job) : (p.modJob j f).parts = p.parts := rfl
@[simp] theorem Pipe.modJob_hbm (p : Pipe) (j : Nat) (f : Job → Job) : (p.modJob j f).hbm = p.hbm := rfl
@[simp] theorem Pipe.modJob_poison (p : Pipe) (j : Nat) (f : Job → Job) : (p.modJob j f).poison = p.poison := rfl
@[simp] theorem Pipe.modJob_weak (p : Pipe) (j : Nat) (f : Job → Job) : (p.modJob j f).weak = p.weak := rfl
@[simp] theorem Pipe.modJob_unissued (p : Pipe) (j : Nat) (f : Job → Job) : (p.modJob j f).unissued = p.unissued := rfl
@[simp] theorem Pipe.modJob_plate (p : Pipe) (j : Nat) (f : Job → Job) : (p.modJob j f).plate = p.plate := rfl
@[simp] theorem Pipe.modJob_media (p : Pipe) (j : Nat) (f : Job → Job) : (p.modJob j f).media = p.media := rfl
@[simp] theorem Pipe.modJob_nand (p : Pipe) (j : Nat) (f : Job → Job) : (p.modJob j f).nand = p.nand := rfl
@[simp] theorem Pipe.modJob_nextJob (p : Pipe) (j : Nat) (f : Job → Job) : (p.modJob j f).nextJob = p.nextJob := rfl
@[simp] theorem Pipe.modJob_order (p : Pipe) (j : Nat) (f : Job → Job) : (p.modJob j f).order = p.order := rfl
@[simp] theorem Pipe.modJob_handles (p : Pipe) (j : Nat) (f : Job → Job) : (p.modJob j f).handles = p.handles := rfl
@[simp] theorem Pipe.modJob_idx (p : Pipe) (j : Nat) (f : Job → Job) : (p.modJob j f).idx = p.idx := rfl
@[simp] theorem Pipe.modJob_nextLoad (p : Pipe) (j : Nat) (f : Job → Job) : (p.modJob j f).nextLoad = p.nextLoad := rfl
@[simp] theorem Pipe.modJob_cacheTier (p : Pipe) (j : Nat) (f : Job → Job) : (p.modJob j f).cacheTier = p.cacheTier := rfl
@[simp] theorem Pipe.modJob_etabs (p : Pipe) (j : Nat) (f : Job → Job) : (p.modJob j f).etabs = p.etabs := rfl
@[simp] theorem Pipe.modJob_etabHandles (p : Pipe) (j : Nat) (f : Job → Job) : (p.modJob j f).etabHandles = p.etabHandles := rfl
@[simp] theorem Pipe.modJob_kernels (p : Pipe) (j : Nat) (f : Job → Job) : (p.modJob j f).kernels = p.kernels := rfl
@[simp] theorem Pipe.modJob_rnets (p : Pipe) (j : Nat) (f : Job → Job) : (p.modJob j f).rnets = p.rnets := rfl
@[simp] theorem Pipe.modJob_image (p : Pipe) (j : Nat) (f : Job → Job) : (p.modJob j f).image = p.image := rfl
@[simp] theorem Pipe.modJob_general (p : Pipe) (j : Nat) (f : Job → Job) : (p.modJob j f).general = p.general := rfl
@[simp] theorem Pipe.modJob_bank (p : Pipe) (j : Nat) (f : Job → Job) : (p.modJob j f).bank = p.bank := rfl
@[simp] theorem Pipe.modJob_tables (p : Pipe) (j : Nat) (f : Job → Job) : (p.modJob j f).tables = p.tables := rfl
@[simp] theorem Pipe.modJob_plateSlots (p : Pipe) (j : Nat) (f : Job → Job) : (p.modJob j f).plateSlots = p.plateSlots := rfl
@[simp] theorem Pipe.modJob_oldest (p : Pipe) (j : Nat) (f : Job → Job) : (p.modJob j f).oldest = p.oldest := rfl
@[simp] theorem Pipe.modJob_nbuSeq (p : Pipe) (j : Nat) (f : Job → Job) : (p.modJob j f).nbuSeq = p.nbuSeq := rfl
@[simp] theorem Pipe.modJob_walks (p : Pipe) (j : Nat) (f : Job → Job) : (p.modJob j f).walks = p.walks := rfl
@[simp] theorem Pipe.modJob_pageUse (p : Pipe) (j : Nat) (f : Job → Job) : (p.modJob j f).pageUse = p.pageUse := rfl
@[simp] theorem Pipe.modJob_ckptMs (p : Pipe) (j : Nat) (f : Job → Job) : (p.modJob j f).ckptMs = p.ckptMs := rfl
@[simp] theorem Pipe.modJob_ckptNow (p : Pipe) (j : Nat) (f : Job → Job) : (p.modJob j f).ckptNow = p.ckptNow := rfl
@[simp] theorem Pipe.modJob_ckptCut (p : Pipe) (j : Nat) (f : Job → Job) : (p.modJob j f).ckptCut = p.ckptCut := rfl
@[simp] theorem Pipe.modJob_scrubDays (p : Pipe) (j : Nat) (f : Job → Job) : (p.modJob j f).scrubDays = p.scrubDays := rfl
@[simp] theorem Pipe.modJob_ecpct (p : Pipe) (j : Nat) (f : Job → Job) : (p.modJob j f).ecpct = p.ecpct := rfl
@[simp] theorem Pipe.modJob_wllim (p : Pipe) (j : Nat) (f : Job → Job) : (p.modJob j f).wllim = p.wllim := rfl
@[simp] theorem Pipe.modJob_pecmax (p : Pipe) (j : Nat) (f : Job → Job) : (p.modJob j f).pecmax = p.pecmax := rfl
@[simp] theorem Pipe.modJob_dirtyMax (p : Pipe) (j : Nat) (f : Job → Job) : (p.modJob j f).dirtyMax = p.dirtyMax := rfl
@[simp] theorem Pipe.modJob_pair (p : Pipe) (j : Nat) (f : Job → Job) : (p.modJob j f).pair = p.pair := rfl
@[simp] theorem Pipe.modJob_late (p : Pipe) (j : Nat) (f : Job → Job) : (p.modJob j f).late = p.late := rfl
@[simp] theorem Pipe.modJob_edits (p : Pipe) (j : Nat) (f : Job → Job) : (p.modJob j f).edits = p.edits := rfl
@[simp] theorem Pipe.modJob_out (p : Pipe) (j : Nat) (f : Job → Job) : (p.modJob j f).out = p.out := rfl

/-! ## Pipe.modWalk -/

@[simp] theorem Pipe.modWalk_variant64 (p : Pipe) (w : Nat) (f : Walk → Walk) : (p.modWalk w f).variant64 = p.variant64 := rfl
@[simp] theorem Pipe.modWalk_parts (p : Pipe) (w : Nat) (f : Walk → Walk) : (p.modWalk w f).parts = p.parts := rfl
@[simp] theorem Pipe.modWalk_hbm (p : Pipe) (w : Nat) (f : Walk → Walk) : (p.modWalk w f).hbm = p.hbm := rfl
@[simp] theorem Pipe.modWalk_poison (p : Pipe) (w : Nat) (f : Walk → Walk) : (p.modWalk w f).poison = p.poison := rfl
@[simp] theorem Pipe.modWalk_weak (p : Pipe) (w : Nat) (f : Walk → Walk) : (p.modWalk w f).weak = p.weak := rfl
@[simp] theorem Pipe.modWalk_unissued (p : Pipe) (w : Nat) (f : Walk → Walk) : (p.modWalk w f).unissued = p.unissued := rfl
@[simp] theorem Pipe.modWalk_plate (p : Pipe) (w : Nat) (f : Walk → Walk) : (p.modWalk w f).plate = p.plate := rfl
@[simp] theorem Pipe.modWalk_media (p : Pipe) (w : Nat) (f : Walk → Walk) : (p.modWalk w f).media = p.media := rfl
@[simp] theorem Pipe.modWalk_nand (p : Pipe) (w : Nat) (f : Walk → Walk) : (p.modWalk w f).nand = p.nand := rfl
@[simp] theorem Pipe.modWalk_jobs (p : Pipe) (w : Nat) (f : Walk → Walk) : (p.modWalk w f).jobs = p.jobs := rfl
@[simp] theorem Pipe.modWalk_nextJob (p : Pipe) (w : Nat) (f : Walk → Walk) : (p.modWalk w f).nextJob = p.nextJob := rfl
@[simp] theorem Pipe.modWalk_order (p : Pipe) (w : Nat) (f : Walk → Walk) : (p.modWalk w f).order = p.order := rfl
@[simp] theorem Pipe.modWalk_handles (p : Pipe) (w : Nat) (f : Walk → Walk) : (p.modWalk w f).handles = p.handles := rfl
@[simp] theorem Pipe.modWalk_idx (p : Pipe) (w : Nat) (f : Walk → Walk) : (p.modWalk w f).idx = p.idx := rfl
@[simp] theorem Pipe.modWalk_nextLoad (p : Pipe) (w : Nat) (f : Walk → Walk) : (p.modWalk w f).nextLoad = p.nextLoad := rfl
@[simp] theorem Pipe.modWalk_cacheTier (p : Pipe) (w : Nat) (f : Walk → Walk) : (p.modWalk w f).cacheTier = p.cacheTier := rfl
@[simp] theorem Pipe.modWalk_etabs (p : Pipe) (w : Nat) (f : Walk → Walk) : (p.modWalk w f).etabs = p.etabs := rfl
@[simp] theorem Pipe.modWalk_etabHandles (p : Pipe) (w : Nat) (f : Walk → Walk) : (p.modWalk w f).etabHandles = p.etabHandles := rfl
@[simp] theorem Pipe.modWalk_kernels (p : Pipe) (w : Nat) (f : Walk → Walk) : (p.modWalk w f).kernels = p.kernels := rfl
@[simp] theorem Pipe.modWalk_rnets (p : Pipe) (w : Nat) (f : Walk → Walk) : (p.modWalk w f).rnets = p.rnets := rfl
@[simp] theorem Pipe.modWalk_image (p : Pipe) (w : Nat) (f : Walk → Walk) : (p.modWalk w f).image = p.image := rfl
@[simp] theorem Pipe.modWalk_general (p : Pipe) (w : Nat) (f : Walk → Walk) : (p.modWalk w f).general = p.general := rfl
@[simp] theorem Pipe.modWalk_bank (p : Pipe) (w : Nat) (f : Walk → Walk) : (p.modWalk w f).bank = p.bank := rfl
@[simp] theorem Pipe.modWalk_tables (p : Pipe) (w : Nat) (f : Walk → Walk) : (p.modWalk w f).tables = p.tables := rfl
@[simp] theorem Pipe.modWalk_plateSlots (p : Pipe) (w : Nat) (f : Walk → Walk) : (p.modWalk w f).plateSlots = p.plateSlots := rfl
@[simp] theorem Pipe.modWalk_oldest (p : Pipe) (w : Nat) (f : Walk → Walk) : (p.modWalk w f).oldest = p.oldest := rfl
@[simp] theorem Pipe.modWalk_nbuSeq (p : Pipe) (w : Nat) (f : Walk → Walk) : (p.modWalk w f).nbuSeq = p.nbuSeq := rfl
@[simp] theorem Pipe.modWalk_pageUse (p : Pipe) (w : Nat) (f : Walk → Walk) : (p.modWalk w f).pageUse = p.pageUse := rfl
@[simp] theorem Pipe.modWalk_ckptMs (p : Pipe) (w : Nat) (f : Walk → Walk) : (p.modWalk w f).ckptMs = p.ckptMs := rfl
@[simp] theorem Pipe.modWalk_ckptNow (p : Pipe) (w : Nat) (f : Walk → Walk) : (p.modWalk w f).ckptNow = p.ckptNow := rfl
@[simp] theorem Pipe.modWalk_ckptCut (p : Pipe) (w : Nat) (f : Walk → Walk) : (p.modWalk w f).ckptCut = p.ckptCut := rfl
@[simp] theorem Pipe.modWalk_scrubDays (p : Pipe) (w : Nat) (f : Walk → Walk) : (p.modWalk w f).scrubDays = p.scrubDays := rfl
@[simp] theorem Pipe.modWalk_ecpct (p : Pipe) (w : Nat) (f : Walk → Walk) : (p.modWalk w f).ecpct = p.ecpct := rfl
@[simp] theorem Pipe.modWalk_wllim (p : Pipe) (w : Nat) (f : Walk → Walk) : (p.modWalk w f).wllim = p.wllim := rfl
@[simp] theorem Pipe.modWalk_pecmax (p : Pipe) (w : Nat) (f : Walk → Walk) : (p.modWalk w f).pecmax = p.pecmax := rfl
@[simp] theorem Pipe.modWalk_dirtyMax (p : Pipe) (w : Nat) (f : Walk → Walk) : (p.modWalk w f).dirtyMax = p.dirtyMax := rfl
@[simp] theorem Pipe.modWalk_pair (p : Pipe) (w : Nat) (f : Walk → Walk) : (p.modWalk w f).pair = p.pair := rfl
@[simp] theorem Pipe.modWalk_late (p : Pipe) (w : Nat) (f : Walk → Walk) : (p.modWalk w f).late = p.late := rfl
@[simp] theorem Pipe.modWalk_edits (p : Pipe) (w : Nat) (f : Walk → Walk) : (p.modWalk w f).edits = p.edits := rfl
@[simp] theorem Pipe.modWalk_out (p : Pipe) (w : Nat) (f : Walk → Walk) : (p.modWalk w f).out = p.out := rfl

/-! ## Pipe.plateWrite -/

@[simp] theorem Pipe.plateWrite_variant64 (p : Pipe) (k a : Nat) (bs : List Byte) : (p.plateWrite k a bs).variant64 = p.variant64 := rfl
@[simp] theorem Pipe.plateWrite_parts (p : Pipe) (k a : Nat) (bs : List Byte) : (p.plateWrite k a bs).parts = p.parts := rfl
@[simp] theorem Pipe.plateWrite_hbm (p : Pipe) (k a : Nat) (bs : List Byte) : (p.plateWrite k a bs).hbm = p.hbm := rfl
@[simp] theorem Pipe.plateWrite_poison (p : Pipe) (k a : Nat) (bs : List Byte) : (p.plateWrite k a bs).poison = p.poison := rfl
@[simp] theorem Pipe.plateWrite_weak (p : Pipe) (k a : Nat) (bs : List Byte) : (p.plateWrite k a bs).weak = p.weak := rfl
@[simp] theorem Pipe.plateWrite_unissued (p : Pipe) (k a : Nat) (bs : List Byte) : (p.plateWrite k a bs).unissued = p.unissued := rfl
@[simp] theorem Pipe.plateWrite_media (p : Pipe) (k a : Nat) (bs : List Byte) : (p.plateWrite k a bs).media = p.media := rfl
@[simp] theorem Pipe.plateWrite_nand (p : Pipe) (k a : Nat) (bs : List Byte) : (p.plateWrite k a bs).nand = p.nand := rfl
@[simp] theorem Pipe.plateWrite_jobs (p : Pipe) (k a : Nat) (bs : List Byte) : (p.plateWrite k a bs).jobs = p.jobs := rfl
@[simp] theorem Pipe.plateWrite_nextJob (p : Pipe) (k a : Nat) (bs : List Byte) : (p.plateWrite k a bs).nextJob = p.nextJob := rfl
@[simp] theorem Pipe.plateWrite_order (p : Pipe) (k a : Nat) (bs : List Byte) : (p.plateWrite k a bs).order = p.order := rfl
@[simp] theorem Pipe.plateWrite_handles (p : Pipe) (k a : Nat) (bs : List Byte) : (p.plateWrite k a bs).handles = p.handles := rfl
@[simp] theorem Pipe.plateWrite_idx (p : Pipe) (k a : Nat) (bs : List Byte) : (p.plateWrite k a bs).idx = p.idx := rfl
@[simp] theorem Pipe.plateWrite_nextLoad (p : Pipe) (k a : Nat) (bs : List Byte) : (p.plateWrite k a bs).nextLoad = p.nextLoad := rfl
@[simp] theorem Pipe.plateWrite_cacheTier (p : Pipe) (k a : Nat) (bs : List Byte) : (p.plateWrite k a bs).cacheTier = p.cacheTier := rfl
@[simp] theorem Pipe.plateWrite_etabs (p : Pipe) (k a : Nat) (bs : List Byte) : (p.plateWrite k a bs).etabs = p.etabs := rfl
@[simp] theorem Pipe.plateWrite_etabHandles (p : Pipe) (k a : Nat) (bs : List Byte) : (p.plateWrite k a bs).etabHandles = p.etabHandles := rfl
@[simp] theorem Pipe.plateWrite_kernels (p : Pipe) (k a : Nat) (bs : List Byte) : (p.plateWrite k a bs).kernels = p.kernels := rfl
@[simp] theorem Pipe.plateWrite_rnets (p : Pipe) (k a : Nat) (bs : List Byte) : (p.plateWrite k a bs).rnets = p.rnets := rfl
@[simp] theorem Pipe.plateWrite_image (p : Pipe) (k a : Nat) (bs : List Byte) : (p.plateWrite k a bs).image = p.image := rfl
@[simp] theorem Pipe.plateWrite_general (p : Pipe) (k a : Nat) (bs : List Byte) : (p.plateWrite k a bs).general = p.general := rfl
@[simp] theorem Pipe.plateWrite_bank (p : Pipe) (k a : Nat) (bs : List Byte) : (p.plateWrite k a bs).bank = p.bank := rfl
@[simp] theorem Pipe.plateWrite_tables (p : Pipe) (k a : Nat) (bs : List Byte) : (p.plateWrite k a bs).tables = p.tables := rfl
@[simp] theorem Pipe.plateWrite_plateSlots (p : Pipe) (k a : Nat) (bs : List Byte) : (p.plateWrite k a bs).plateSlots = p.plateSlots := rfl
@[simp] theorem Pipe.plateWrite_oldest (p : Pipe) (k a : Nat) (bs : List Byte) : (p.plateWrite k a bs).oldest = p.oldest := rfl
@[simp] theorem Pipe.plateWrite_nbuSeq (p : Pipe) (k a : Nat) (bs : List Byte) : (p.plateWrite k a bs).nbuSeq = p.nbuSeq := rfl
@[simp] theorem Pipe.plateWrite_walks (p : Pipe) (k a : Nat) (bs : List Byte) : (p.plateWrite k a bs).walks = p.walks := rfl
@[simp] theorem Pipe.plateWrite_pageUse (p : Pipe) (k a : Nat) (bs : List Byte) : (p.plateWrite k a bs).pageUse = p.pageUse := rfl
@[simp] theorem Pipe.plateWrite_ckptMs (p : Pipe) (k a : Nat) (bs : List Byte) : (p.plateWrite k a bs).ckptMs = p.ckptMs := rfl
@[simp] theorem Pipe.plateWrite_ckptNow (p : Pipe) (k a : Nat) (bs : List Byte) : (p.plateWrite k a bs).ckptNow = p.ckptNow := rfl
@[simp] theorem Pipe.plateWrite_ckptCut (p : Pipe) (k a : Nat) (bs : List Byte) : (p.plateWrite k a bs).ckptCut = p.ckptCut := rfl
@[simp] theorem Pipe.plateWrite_scrubDays (p : Pipe) (k a : Nat) (bs : List Byte) : (p.plateWrite k a bs).scrubDays = p.scrubDays := rfl
@[simp] theorem Pipe.plateWrite_ecpct (p : Pipe) (k a : Nat) (bs : List Byte) : (p.plateWrite k a bs).ecpct = p.ecpct := rfl
@[simp] theorem Pipe.plateWrite_wllim (p : Pipe) (k a : Nat) (bs : List Byte) : (p.plateWrite k a bs).wllim = p.wllim := rfl
@[simp] theorem Pipe.plateWrite_pecmax (p : Pipe) (k a : Nat) (bs : List Byte) : (p.plateWrite k a bs).pecmax = p.pecmax := rfl
@[simp] theorem Pipe.plateWrite_dirtyMax (p : Pipe) (k a : Nat) (bs : List Byte) : (p.plateWrite k a bs).dirtyMax = p.dirtyMax := rfl
@[simp] theorem Pipe.plateWrite_pair (p : Pipe) (k a : Nat) (bs : List Byte) : (p.plateWrite k a bs).pair = p.pair := rfl
@[simp] theorem Pipe.plateWrite_late (p : Pipe) (k a : Nat) (bs : List Byte) : (p.plateWrite k a bs).late = p.late := rfl
@[simp] theorem Pipe.plateWrite_edits (p : Pipe) (k a : Nat) (bs : List Byte) : (p.plateWrite k a bs).edits = p.edits := rfl
@[simp] theorem Pipe.plateWrite_out (p : Pipe) (k a : Nat) (bs : List Byte) : (p.plateWrite k a bs).out = p.out := rfl

end Sys2Proof.Machine
end

