-- ==== Sys2Proof/Laws/Tbl.lean ====
section
/-!
SUPPORT. Sys2Proof/Laws/Tbl.lean: tables and lists after a change.
-/
namespace Sys2Proof.Machine

theorem get?_set_same {α : Type} (t : Tbl α) (n : Nat) (x : α) : (t.set n x).get? n = some x := by
  induction t with
  | nil => simp [Tbl.set, Tbl.get?]
  | cons d t ih =>
    obtain ⟨k, v⟩ := d
    simp only [Tbl.set]
    split
    · simp [Tbl.get?]
    · split
      · simp [Tbl.get?]
      · rename_i h1 h2; simp [Tbl.get?, h1, h2, ih]

theorem get?_set_ne {α : Type} (t : Tbl α) (n m : Nat) (x : α) (h : m ≠ n) : (t.set n x).get? m = t.get? m := by
  induction t with
  | nil => simp [Tbl.set, Tbl.get?, h]
  | cons d t ih =>
    obtain ⟨k, v⟩ := d
    simp only [Tbl.set]
    split
    · rename_i hk; subst hk; simp [Tbl.get?, h]
    · split
      · rename_i h1 h2
        simp only [Tbl.get?, h, if_false]
        split
        · have e1 : m ≠ k := by omega
          have e2 : m < k := by omega
          simp [e1, e2]
        · rfl
      · simp only [Tbl.get?, ih]

theorem getD_set_same {α : Type} (t : Tbl α) (n : Nat) (x d : α) : (t.set n x).getD n d = x := by
  simp [Tbl.getD, get?_set_same]

@[simp] theorem length_modNth {α : Type} (l : List α) (i : Nat) (f : α → α) : (modNth l i f).length = l.length := by
  induction l generalizing i with
  | nil => rfl
  | cons x xs ih => cases i with
    | zero => rfl
    | succ n => simp [modNth, ih]

@[simp] theorem length_setNth {α : Type} (l : List α) (i : Nat) (x : α) : (setNth l i x).length = l.length :=
  length_modNth l i _

theorem getElem?_modNth {α : Type} (l : List α) (i j : Nat) (f : α → α) :
    (modNth l i f)[j]? = if i = j then l[j]?.map f else l[j]? := by
  induction l generalizing i j with
  | nil => simp [modNth]
  | cons x xs ih =>
    cases i with
    | zero => cases j <;> simp [modNth]
    | succ n => cases j with
      | zero => simp [modNth]
      | succ m => simp [modNth, ih]

theorem modNth_id {α : Type} (l : List α) (i : Nat) (f : α → α) (h : ∀ x ∈ l, f x = x) : modNth l i f = l := by
  induction l generalizing i with
  | nil => rfl
  | cons x xs ih => cases i with
    | zero => simp [modNth, h x (by simp)]
    | succ n => simp [modNth, ih n (fun y hy => h y (by simp [hy]))]

end Sys2Proof.Machine
end

