-- ==== Sys2Proof/Laws/Ops.lean ====
section
/-!
SUPPORT. Sys2Proof/Laws/Ops.lean: what the operations that rows share can do. What goes out of the package changes its output,
the PCIe endpoint and the mailboxes alone; a reaction to a fault, the effects of the pipeline and those of the fabric leave the
time base, the NOR flash, the power block and what stands beside them.
-/
namespace Sys2Proof.Machine

/-- What an operation that only sends can do: nothing but the output, the endpoint and the mailboxes changes, and no mailbox
is added or lost. -/
structure Sends (s t : State) : Prop where
  variant64 : t.variant64 = s.variant64
  mer : t.mer = s.mer
  pipe : t.pipe = s.pipe
  boot : t.boot = s.boot
  nor : t.nor = s.nor
  fcu : t.fcu = s.fcu
  pwr : t.pwr = s.pwr
  d2d : t.d2d = s.d2d
  sb : t.sb = s.sb
  dbg : t.dbg = s.dbg
  coel : t.coel = s.coel
  fab : t.fab = s.fab
  flush : t.flush = s.flush
  reads : t.reads = s.reads
  free : t.free = s.free
  pending : t.pending = s.pending
  boxes : t.mbx.length = s.mbx.length

theorem Sends.refl (s : State) : Sends s s := by constructor <;> rfl

theorem Sends.trans {s t u : State} (a : Sends s t) (b : Sends t u) : Sends s u where
  variant64 := b.variant64.trans a.variant64
  mer := b.mer.trans a.mer
  pipe := b.pipe.trans a.pipe
  boot := b.boot.trans a.boot
  nor := b.nor.trans a.nor
  fcu := b.fcu.trans a.fcu
  pwr := b.pwr.trans a.pwr
  d2d := b.d2d.trans a.d2d
  sb := b.sb.trans a.sb
  dbg := b.dbg.trans a.dbg
  coel := b.coel.trans a.coel
  fab := b.fab.trans a.fab
  flush := b.flush.trans a.flush
  reads := b.reads.trans a.reads
  free := b.free.trans a.free
  pending := b.pending.trans a.pending
  boxes := b.boxes.trans a.boxes

theorem Sends.foldl {α : Type} (l : List α) (f : State → α → State) (h : ∀ s x, Sends s (f s x)) :
    ∀ s, Sends s (l.foldl f s) := by
  induction l with
  | nil => exact Sends.refl
  | cons x t ih => exact fun s => (h s x).trans (ih _)

theorem Sends.fold {α : Type} {l : List α} {f : State → α → State} {s t : State} (a : Sends s t)
    (h : ∀ s x, Sends s (f s x)) : Sends s (l.foldl f t) := a.trans (Sends.foldl l f h t)

/-- What a reaction can do: the pipeline, the fabric, the collector, the mailboxes and the state of boot and flush may change. -/
structure Reacts (s t : State) : Prop where
  variant64 : t.variant64 = s.variant64
  mer : t.mer = s.mer
  nor : t.nor = s.nor
  pwr : t.pwr = s.pwr
  d2d : t.d2d = s.d2d
  sb : t.sb = s.sb
  dbg : t.dbg = s.dbg
  reads : t.reads = s.reads
  free : t.free = s.free
  pending : t.pending = s.pending
  boxes : t.mbx.length = s.mbx.length

theorem Reacts.refl (s : State) : Reacts s s := by constructor <;> rfl

theorem Reacts.trans {s t u : State} (a : Reacts s t) (b : Reacts t u) : Reacts s u where
  variant64 := b.variant64.trans a.variant64
  mer := b.mer.trans a.mer
  nor := b.nor.trans a.nor
  pwr := b.pwr.trans a.pwr
  d2d := b.d2d.trans a.d2d
  sb := b.sb.trans a.sb
  dbg := b.dbg.trans a.dbg
  reads := b.reads.trans a.reads
  free := b.free.trans a.free
  pending := b.pending.trans a.pending
  boxes := b.boxes.trans a.boxes

theorem Reacts.foldl {α : Type} (l : List α) (f : State → α → State) (h : ∀ s x, Reacts s (f s x)) :
    ∀ s, Reacts s (l.foldl f s) := by
  induction l with
  | nil => exact Reacts.refl
  | cons x t ih => exact fun s => (h s x).trans (ih _)

theorem Reacts.fold {α : Type} {l : List α} {f : State → α → State} {s t : State} (a : Reacts s t)
    (h : ∀ s x, Reacts s (f s x)) : Reacts s (l.foldl f t) := a.trans (Reacts.foldl l f h t)

theorem Sends.reacts {s t : State} (h : Sends s t) : Reacts s t where
  variant64 := h.variant64
  mer := h.mer
  nor := h.nor
  pwr := h.pwr
  d2d := h.d2d
  sb := h.sb
  dbg := h.dbg
  reads := h.reads
  free := h.free
  pending := h.pending
  boxes := h.boxes

theorem Reacts.of_pipe (s : State) (p : Pipe) : Reacts s { s with pipe := p } := by constructor <;> rfl

/-! ## What leaves the package -/

theorem sends_modMbx (s : State) (m : Nat) (f : Mailbox → Mailbox) : Sends s (s.modMbx m f) := by
  constructor <;> first | rfl | simp [State.modMbx]

theorem sends_hostWrite (s : State) (f a : Nat) (bs : List Byte) (r : Option Bool) :
    Sends s (s.hostWrite f a bs r) := by
  unfold State.hostWrite; constructor <;> (repeat' split) <;> rfl

theorem sends_msix (s : State) (f v : Nat) : Sends s (s.msix f v) := by
  unfold State.msix; constructor <;> dsimp only <;> (repeat' split) <;> rfl

theorem sends_releaseOut (s : State) : Sends s s.releaseOut := by
  unfold State.releaseOut; constructor <;> rfl

theorem sends_slotWrite (s : State) (m : Nat) (resp : Bool) (bs : List Byte) : Sends s (s.slotWrite m resp bs) := by
  unfold State.slotWrite
  exact (((sends_hostWrite s _ _ _ _).trans (sends_msix _ _ _)).trans (sends_modMbx _ _ _))

theorem sends_slotOut (s : State) (m : Nat) (resp : Bool) (bs : List Byte) : Sends s (s.slotOut m resp bs) := by
  unfold State.slotOut
  split
  · exact sends_slotWrite s m resp bs
  · exact sends_modMbx s m _

theorem sends_release (s : State) : Sends s s.release := by
  unfold State.release
  refine (sends_releaseOut s).trans (Sends.foldl _ _ ?_ _)
  intro s m
  dsimp only
  split
  · refine Sends.fold (sends_modMbx s m _) ?_
    intro s h; exact sends_slotWrite s m h.1 h.2
  · exact Sends.refl s

theorem sends_event (s : State) (m code part : Nat) (c : Bool) (src : Nat) : Sends s (s.event m code part c src) := by
  unfold State.event
  dsimp only
  split
  · exact (sends_modMbx s m _).trans (sends_slotOut _ _ _ _)
  · exact (sends_modMbx s m _).trans (sends_modMbx _ _ _)

theorem sends_eventAll (s : State) (code : Nat) : Sends s (s.eventAll code) := by
  unfold State.eventAll
  refine Sends.foldl _ _ ?_ _
  intro s m
  split
  · exact sends_event s m code 0 false 0
  · exact Sends.refl s

theorem sends_result (s : State) (r : Request) (st : ResState) (status gen : Nat) : Sends s (s.result r st status gen) := by
  unfold State.result
  split
  · exact Sends.refl s
  · exact sends_modMbx s _ _

theorem sends_answer (s : State) (r : Request) (a : Answer) : Sends s (s.answer r a) := by
  unfold State.answer
  exact (sends_slotOut s _ _ _).trans (sends_result _ _ _ _ _)

/-! ## Faults, fences and the effects of pipeline and fabric -/

theorem reacts_fabEff (s : State) (e : FabEff) : Reacts s (s.fabEff e) := by
  unfold State.fabEff
  split
  · exact (sends_hostWrite s _ _ _ _).reacts
  · exact (sends_msix s _ _).reacts
  all_goals (constructor <;> rfl)

theorem reacts_withFab (s : State) (r : Fabric × List FabEff) : Reacts s (s.withFab r) := by
  unfold State.withFab
  have h : Reacts s { s with fab := r.1 } := by constructor <;> rfl
  exact (h.trans (Reacts.foldl _ _ reacts_fabEff _)).trans (Reacts.of_pipe _ _)

theorem reacts_fabFence (s : State) (k : Nat) : Reacts s (s.fabFence k) := by
  unfold State.fabFence
  exact Reacts.foldl _ _ (fun s n => reacts_withFab s _) _

theorem reacts_fence (s : State) (k : Nat) (c : Option Nat) : Reacts s (s.fence k c) := by
  unfold State.fence
  split
  · exact Reacts.refl s
  · exact Reacts.refl s
  · dsimp only
    have h : Reacts s { s with coel := { s.coel with
        waiters := s.coel.waiters.filter (fun w => !(w.unfence && w.part == k)) } } := by constructor <;> rfl
    refine Reacts.trans (Reacts.trans (Reacts.fold h ?_) (Reacts.of_pipe _ _)) (reacts_fabFence _ _)
    intro s w; exact (sends_answer s w.req _).reacts

theorem reacts_enterSafe (s : State) : Reacts s s.enterSafe := by
  unfold State.enterSafe; constructor <;> rfl

theorem reacts_raise (s : State) (srcs : List Nat) : Reacts s (s.raise srcs) := by
  unfold State.raise
  dsimp only
  have h0 : Reacts s { s with fcu := (s.fcu.fresh srcs).foldl Fcu.set1 s.fcu } := by constructor <;> rfl
  split
  · exact h0
  · split
    · split
      · split
        · refine Reacts.trans ?_ (reacts_enterSafe _); constructor <;> rfl
        · refine Reacts.trans ?_ (reacts_enterSafe _); constructor <;> rfl
      · split <;> (constructor <;> rfl)
    · have h1 : ∀ b : Bool, Reacts s (if b = true then
          State.msix { s with fcu := (s.fcu.fresh srcs).foldl Fcu.set1 s.fcu } 0 1
          else { s with fcu := (s.fcu.fresh srcs).foldl Fcu.set1 s.fcu }) := by
        intro b; split
        · exact h0.trans (sends_msix _ _ _).reacts
        · exact h0
      split
      · exact (h1 _).trans (reacts_enterSafe _)
      · exact Reacts.fold (h1 _) (fun s x => reacts_fence s _ _)

theorem reacts_pipeOut (s : State) (o : PipeOut) : Reacts s (s.pipeOut o) := by
  unfold State.pipeOut
  split
  · exact (sends_hostWrite s _ _ _ _).reacts
  · exact (sends_msix s _ _).reacts
  · exact reacts_raise s _
  · constructor <;> rfl

theorem reacts_drain (s : State) : Reacts s s.drain := by
  unfold State.drain
  exact (Reacts.of_pipe s _).trans (Reacts.foldl _ _ reacts_pipeOut _)

theorem reacts_settle (s : State) : Reacts s s.settle := by
  unfold State.settle
  exact ((reacts_drain s).trans (reacts_drain _)).trans (reacts_drain _)

theorem reacts_onPipe (s : State) (f : Pipe → Pipe) : Reacts s (s.onPipe f) := by
  unfold State.onPipe
  split
  · exact (Reacts.of_pipe s _).trans (reacts_settle _)
  · exact Reacts.refl s

theorem reacts_completeFab (s : State) (j : Nat) (jb : Job) (t : Bool) : Reacts s (s.completeFab j jb t) := by
  unfold State.completeFab
  dsimp only
  split
  · constructor <;> rfl
  · split
    · constructor <;> rfl
    · split <;> constructor <;> rfl

theorem reacts_completeJob (s : State) (j : Nat) (t : Bool) : Reacts s (s.completeJob j t) := by
  unfold State.completeJob
  split
  · exact Reacts.refl s
  · split
    · constructor <;> rfl
    · split
      · split
        · exact (Reacts.of_pipe s _).trans (reacts_settle _)
        · exact Reacts.refl s
      · split
        · exact reacts_completeFab s j _ t
        · exact (Reacts.of_pipe s _).trans (reacts_settle _)

theorem reacts_startFlush (s : State) (a : AfterFlush) : Reacts s (s.startFlush a) := by
  unfold State.startFlush
  dsimp only
  have h : ∀ p l, Reacts s (List.foldl (fun s j => s.completeJob j true) { s with pipe := p } l) := fun p l =>
    Reacts.fold (Reacts.of_pipe s p) (fun s j => reacts_completeJob s j true)
  generalize hs : List.foldl (fun (s : State) j => s.completeJob j true) _ _ = s2
  have h2 : Reacts s s2 := hs ▸ h _ _
  exact h2.trans (by constructor <;> rfl)

/-! ## A row of the pipeline that tells the rest of the package nothing -/

theorem drain_empty (s : State) (h : s.pipe.out = []) : s.drain = s := by
  unfold State.drain; rw [h]
  obtain ⟨v, mer, pipe, boot, nor, fcu, pwr, d2d, sb, dbg, pcie, mbx, coel, fab, flush, reads, free, out, pending⟩ := s
  obtain ⟨⟩ := pipe
  simp only at h
  subst h
  rfl

theorem settle_empty (s : State) (h : s.pipe.out = []) : s.settle = s := by
  unfold State.settle; simp [drain_empty s h]

/-- While the package works, a row with nothing to tell changes the pipeline alone. -/
theorem onPipe_quiet (s : State) (f : Pipe → Pipe) (hw : s.works = true) (h : (f s.pipe).out = []) :
    s.onPipe f = { s with pipe := f s.pipe } := by
  unfold State.onPipe; rw [if_pos hw]; exact settle_empty _ h

/-- While it does not, nothing happens. -/
theorem onPipe_stopped (s : State) (f : Pipe → Pipe) (hw : s.works = false) : s.onPipe f = s := by
  unfold State.onPipe; simp [hw]

end Sys2Proof.Machine
end

