-- ==== Sys2Proof/WellFormed.lean ====
section
/-!
DEFINITION. Sys2Proof/WellFormed.lean: which operands the rows of the table can have: the numbers of partitions, threads,
registers, links and mailboxes that exist, and the immediates that an encoding holds.
-/
namespace Sys2Proof

/-! ## Checks of single operands -/

/-- A partition, its core and its stack (R7: P = 16). -/
def partOk (k : Nat) : Bool := k < 16
/-- A pseudo-channel of a stack, and its near-bank unit (R194, R201). -/
def pcOk (c : Nat) : Bool := c < 64
/-- A hardware thread (R194). -/
def thrOk (t : ThrId) : Bool := partOk t.part && pcOk t.pc && decide (t.th < 4)
/-- A core of the Coelostat (R552). -/
def coelOk (c : Nat) : Bool := c < 8
/-- A context of a search core (R136). -/
def ctxOk (x : Nat) : Bool := x < 4096
/-- A register field of an NBU instruction (R238). -/
def nbuRegOk (r : Nat) : Bool := r < 16
/-- The function field of an NBU instruction (R238). -/
def fnOk (f : Nat) : Bool := f < 64
/-- IMM18, IMM15 and IMM22 (R238). -/
def imm18Ok (x : Int) : Bool := decide (-131072 ≤ x) && decide (x ≤ 131071)
def imm15Ok (x : Int) : Bool := decide (-16384 ≤ x) && decide (x ≤ 16383)
def imm22Ok (x : Int) : Bool := decide (-2097152 ≤ x) && decide (x ≤ 2097151)
/-- The bytes of an access. -/
def widthOk (w : Nat) : Bool := [1, 2, 4, 8].contains w
/-- Registers s0 to s31, q0 to q31, m0 to m7 (R136, R137). -/
def sRegOk (r : Nat) : Bool := r < 32
def qRegOk (r : Nat) : Bool := r < 32
def mRegOk (r : Nat) : Bool := r < 8
/-- Lanes that VSEL delivers: at most the 32 of a q register in fp32 (R137, R267). -/
def selLanesOk (n : Nat) : Bool := n ≤ 32
/-- A link, a port, a connection of the fabric (R485, R492). -/
def linkOk (n : Nat) : Bool := n < 32
def portOk (n : Nat) : Bool := n < 8
def connOk (n : Nat) : Bool := n < 262144
/-- A mailbox: MBG and MB0 to MB15 (R545). -/
def mbxOk (m : Nat) : Bool := m < 17
/-- A die-to-die link, and a lane of one of its modules (R599). -/
def d2dOk (l : Nat) : Bool := l < 12
def laneOk (l m lane : Nat) : Bool := d2dOk l && decide (m < if l < 4 then 4 else 2) && decide (lane < 66)
def lanesOk (xs : List (Nat × Nat × Nat)) : Bool := xs.all (fun x => laneOk x.1 x.2.1 x.2.2)
/-- A die that the thermal rules watch, a search die, a rail (R606 to R608, R656). -/
def dieOk (d : Nat) : Bool := d < 6
def searchDieOk (d : Nat) : Bool := d < 4
def railOk (r : Nat) : Bool := r < 10
def railsOk (rs : List Nat) : Bool := rs.all railOk
/-- A PCIe function: PF, or VF k + 1 (R537). -/
def funcOk (f : Nat) : Bool := f ≤ 16
def vfOk (f : Option Nat) : Bool := f.all (fun k => k < 16)
/-- An MSI-X vector of a function (R541). -/
def vecOk (f v : Nat) : Bool := decide (v < (if f = 0 then 256 else 112))
/-- A selection request of a core (R264). -/
def selReqOk (n : Nat) : Bool := n < 4096
/-- A word of FCU_STAT (R590). -/
def fcuWordOk (w : Nat) : Bool := w < 16
/-- A sideband pin (R650). -/
def pinOk (n : Nat) : Bool := n < 16
/-- A queue of the Almanac: 2^20 entries in each partition (R430). -/
def queueOk (q : Nat) : Bool := q < 16777216
/-- A margin of the table of R603. -/
def marginOk (kind idx : Nat) : Bool :=
  (kind == 0 && decide (idx < 48)) || (kind == 1 && decide (idx < 1024)) || (kind == 2 && decide (idx < 10))
    || (kind == 3 && decide (idx < 64))
/-- A PTP domain and sequence number (R71). -/
def byteOk (n : Nat) : Bool := n < 256
def seqOk (n : Nat) : Bool := n < 65536
/-- A message interval of a PTP header: one signed byte (R71). -/
def headOk (h : PtpHead) : Bool := decide (-128 ≤ h.interval) && decide (h.interval < 128)
def partsOk (ks : List Nat) : Bool := ks.all partOk
/-- The tile formats (R155). -/
def fmtOk (f : Nat) : Bool := f < 8

/-! ## Instructions of a search core (R137) -/

def scalarOk : ScalarOp → Bool
  | .alu _ sd sa sb => sRegOk sd && sRegOk sa && sRegOk sb
  | .aluImm _ sd sa _ => sRegOk sd && sRegOk sa
  | .branch _ sa sb _ => sRegOk sa && sRegOk sb
  | .reserved => true

def plateOpOk : PlateOp → Bool
  | .load sd sa _ bytes _ => sRegOk sd && sRegOk sa && widthOk bytes
  | .store ss sa _ bytes => sRegOk ss && sRegOk sa && widthOk bytes
  | .vload qd sa _ => qRegOk qd && sRegOk sa
  | .vstore qs sa _ => qRegOk qs && sRegOk sa

def vecOpOk : VecOp → Bool
  | .elem _ fmt qd qa qb qc => fmtOk fmt && qRegOk qd && qRegOk qa && qRegOk qb && qRegOk qc
  | .cmp _ fmt md qa qb => fmtOk fmt && mRegOk md && qRegOk qa && qRegOk qb
  | .select fmt qd qa qb ma => fmtOk fmt && qRegOk qd && qRegOk qa && qRegOk qb && mRegOk ma
  | .convert src dst qd qa => fmtOk src && fmtOk dst && qRegOk qd && qRegOk qa
  | .reduce _ fmt sd qa => fmtOk fmt && sRegOk sd && qRegOk qa

def handOk : HandTo → Bool
  | .sel sa => sRegOk sa
  | .nbu sd sn => sRegOk sd && sRegOk sn

/-- The 8-byte words that an access can read: at most 16. -/
def eccOk (l : List (Nat × Bool)) : Bool := l.all (fun e => e.1 < 16)
/-- 32-byte units of the sixteen stacks (R201). -/
def unitsOk (l : List (Nat × Bool)) : Bool := l.all (fun e => e.1 < 34359738368)

/-! ## Commands -/

/-- The operands of a command are ones that its row can have. -/
def Instr.wf : Instr → Bool
  | .powerOnReset _ => true
  | .packageReset => true
  | .rstCtl _ => true
  | .pcieLinkReset => true
  | .functionLevelReset k => partOk k
  | .pfFunctionLevelReset => true
  | .vfEnableClear => true
  | .bootStart => true
  | .norRead _ => true
  | .fwStart => true
  | .clocks lanes => lanesOk lanes
  | .hbm bad => partsOk bad
  | .flash bad found => partsOk bad && (found.luns == 64 || found.luns == 32 || found.luns == 16)
  | .restore => true
  | .ready => true
  | .trialExpired => true
  | .activationWindow => true
  | .activated => true
  | .watchdogRestart => true
  | .coelRestart => true
  | .holdup _ => true
  | .flushPartDone k => partOk k
  | .flushRecord => true
  | .pulseEdge => true
  | .merClkLoss => true
  | .merSyncLoss => true
  | .holdLimit => true
  | .ptpSync port domain head _ seqNo _ _ => portOk port && byteOk domain && headOk head && seqOk seqNo
  | .ptpAnnounce port domain head _ => portOk port && byteOk domain && headOk head
  | .ptpDelayResp port domain head _ => portOk port && byteOk domain && headOk head
  | .announceTimeout => true
  | .watchEnd => true
  | .transitTakeover => true
  | .transitWindow k => partOk k
  | .epochPublish => true
  | .wheelDrain k => partOk k
  | .bucketMove k => partOk k
  | .merNowLo => true
  | .merPubLo => true
  | .merStat _ => true
  | .merLateCnt => true
  | .merSkipCnt => true
  | .fcuStat w _ => fcuWordOk w
  | .nbuUe k _ _ => partOk k
  | .nbuCe k => partOk k
  | .nbuTrapcnt k => partOk k
  | .nbuTrapcause k _ => partOk k
  | .flsHoldstat _ => true
  | .flsUe k => partOk k
  | .almDbdrop k => partOk k
  | .almOrphan k => partOk k
  | .almMiss k => partOk k
  | .schFinder k => partOk k
  | .schForgive k => partOk k
  | .fabLink n _ => linkOk n
  | .bftRnr => true
  | .bftBadpkt => true
  | .bftAuthfail => true
  | .bftEvdrop => true
  | .bftOrphan => true
  | .bftDbdrop => true
  | .coelWdcnt => true
  | .mbxCfg m _ => mbxOk m
  | .mbxDoorbell m _ => mbxOk m
  | .mbxStat m _ => mbxOk m
  | .almDoorbell k _ nbytes _ _ => partOk k && widthOk nbytes
  | .sendRingDoorbell vf nbytes _ => vfOk vf && widthOk nbytes
  | .receiveRingDoorbell vf nbytes _ => vfOk vf && widthOk nbytes
  | .errorRingDoorbell vf nbytes _ => vfOk vf && widthOk nbytes
  | .eventRingDoorbell vf nbytes _ => vfOk vf && widthOk nbytes
  | .sbFunc _ => true
  | .sbInertEnd n => pinOk n
  | .dbgInject _ => true
  | .registerWrite func _ size _ => funcOk func && widthOk size
  | .tapInstruction _ _ => true
  | .thermtrip d _ => dieOk d
  | .throttle d _ => dieOk d
  | .throttleStep d _ _ => dieOk d
  | .currentLimit d _ => searchDieOk d
  | .hbmTemp k _ => partOk k
  | .undervolt rail => railOk rail
  | .railFault rail => railOk rail
  | .domainPower k => partOk k
  | .pcieRefclkLoss => true
  | .fabRefclkLoss => true
  | .laneFail l m lane => laneOk l m lane
  | .d2dDown l => d2dOk l
  | .marginMeasure kind idx _ => marginOk kind idx
  | .safeStateFlashIdle => true
  | .fencePowerOff k => partOk k
  | .fenceCompletions k => partOk k
  | .unfence k => partOk k
  | .entropyReady => true
  | .entropyFail => true
  | .mbxRequestTake m _ => mbxOk m
  | .cmdStart core => coelOk core
  | .deferredStart => true
  | .dpEnable core _ => coelOk core
  | .pkgStatus core _ => coelOk core
  | .coreStatus core _ => coelOk core
  | .cmdResult core _ => coelOk core
  | .merLoadNext core _ => coelOk core
  | .merConfig core _ => coelOk core
  | .ptpConfig core _ => coelOk core
  | .ephWrite core _ => coelOk core
  | .ephRead core _ => coelOk core
  | .queCreate core _ => coelOk core
  | .queModify core _ => coelOk core
  | .quePause core _ => coelOk core
  | .queResume core _ => coelOk core
  | .queDestroy core _ => coelOk core
  | .queReset core _ => coelOk core
  | .queRead core _ => coelOk core
  | .qryAbort core _ => coelOk core
  | .shpSet core _ => coelOk core
  | .shpRead core _ => coelOk core
  | .trnWrite core _ => coelOk core
  | .trnRead core _ => coelOk core
  | .budSet core _ => coelOk core
  | .budRead core _ => coelOk core
  | .idxLoad core _ => coelOk core
  | .idxUnload core _ => coelOk core
  | .idxTier core _ => coelOk core
  | .idxCompact core _ => coelOk core
  | .epochRetain core _ => coelOk core
  | .ckptConfig core _ => coelOk core
  | .fltLoad core _ => coelOk core
  | .fltDrop core _ => coelOk core
  | .fltEdit core _ => coelOk core
  | .etabLoad core _ => coelOk core
  | .poolConfig core _ => coelOk core
  | .krnLoad core _ => coelOk core
  | .nbuLoad core _ => coelOk core
  | .rnetLoad core _ => coelOk core
  | .iasAlloc core _ => coelOk core
  | .iasFree core _ => coelOk core
  | .iasWrite core _ => coelOk core
  | .iasRead core _ => coelOk core
  | .iasAttr core _ => coelOk core
  | .tierConfig core _ => coelOk core
  | .tierStatus core _ => coelOk core
  | .flsConfig core _ => coelOk core
  | .flsStatus core _ => coelOk core
  | .fabPortConfig core _ => coelOk core
  | .fabStatus core _ => coelOk core
  | .bftPdCreate core _ => coelOk core
  | .bftPdDestroy core _ => coelOk core
  | .bftRegCreate core _ => coelOk core
  | .bftRegDestroy core _ => coelOk core
  | .bftRrCreate core _ => coelOk core
  | .bftRrDestroy core _ => coelOk core
  | .bftConnCreate core _ => coelOk core
  | .bftConnReset core _ => coelOk core
  | .bftKeyLoad core _ => coelOk core
  | .bftKeyAgreeGenerate core _ => coelOk core
  | .bftKeyAgreeComplete core _ => coelOk core
  | .partFence core _ => coelOk core
  | .partUnfence core _ => coelOk core
  | .fcuReact core _ => coelOk core
  | .marginRead core _ => coelOk core
  | .fwChunk core _ => coelOk core
  | .fwVerify core _ => coelOk core
  | .fwActivate core _ => coelOk core
  | .fwConfirm core _ => coelOk core
  | .fwStatus core _ => coelOk core
  | .fwDiscard core _ => coelOk core
  | .schedVisit k => partOk k
  | .descriptorFetch k q _ _ => partOk k && queueOk q.n && unitsOk q.raw
  | .ringAccessError k q _ => partOk k && queueOk q
  | .derotator core _ => partOk core
  | .poolIssue _ => true
  | .poolPartial _ => true
  | .mtile core ctx sd sa => partOk core && ctxOk ctx && sRegOk sd && sRegOk sa
  | .mwait core ctx sa => partOk core && ctxOk ctx && sRegOk sa
  | .mtest core ctx sd sa => partOk core && ctxOk ctx && sRegOk sd && sRegOk sa
  | .mdrain core ctx => partOk core && ctxOk ctx
  | .vsel core ctx qs qi target lanes => partOk core && ctxOk ctx && qRegOk qs && qRegOk qi && handOk target && selLanesOk lanes
  | .vfree core ctx => partOk core && ctxOk ctx
  | .kend core ctx => partOk core && ctxOk ctx
  | .coreScalar core ctx op => partOk core && ctxOk ctx && scalarOk op
  | .plateAccess core ctx op => partOk core && ctxOk ctx && plateOpOk op.op && eccOk op.ecc
  | .coreVector core ctx op => partOk core && ctxOk ctx && vecOpOk op
  | .kernelInvoke core => partOk core
  | .limit core ctx => partOk core && ctxOk ctx
  | .tilePass core _ => partOk core
  | .openReq core n => partOk core && selReqOk n
  | .closeReq core req => partOk core && selReqOk req.n && unitsOk req.raw
  | .discard core n => partOk core && selReqOk n
  | .bound core n => partOk core && selReqOk n
  | .selBlockServed core _ => partOk core
  | .nbuRequestTake thr => thrOk thr
  | .scan thr _ => thrOk thr
  | .block thr _ => thrOk thr
  | .append thr _ => thrOk thr
  | .stamp thr _ => thrOk thr
  | .pool thr _ => thrOk thr
  | .compact thr _ => thrOk thr
  | .bitmap thr _ => thrOk thr
  | .scrub thr _ => thrOk thr
  | .nop thr => thrOk thr
  | .nbuProgram thr _ _ => thrOk thr
  | .nbuImageSwitch k pc => partOk k && pcOk pc
  | .epochMarker k pc src => partOk k && pcOk pc && partOk src
  | .cancel k pc _ => partOk k && pcOk pc
  | .cancelled stop => thrOk stop.thr
  | .endMessage core => partOk core
  | .alu thr fn fa fb fc => thrOk thr && fnOk fn && nbuRegOk fa && nbuRegOk fb && nbuRegOk fc
  | .addi thr fa fb imm => thrOk thr && nbuRegOk fa && nbuRegOk fb && imm18Ok imm
  | .andi thr fa fb imm => thrOk thr && nbuRegOk fa && nbuRegOk fb && imm18Ok imm
  | .ori thr fa fb imm => thrOk thr && nbuRegOk fa && nbuRegOk fb && imm18Ok imm
  | .xori thr fa fb imm => thrOk thr && nbuRegOk fa && nbuRegOk fb && imm18Ok imm
  | .shli thr fa fb imm => thrOk thr && nbuRegOk fa && nbuRegOk fb && imm18Ok imm
  | .shri thr fa fb imm => thrOk thr && nbuRegOk fa && nbuRegOk fb && imm18Ok imm
  | .srai thr fa fb imm => thrOk thr && nbuRegOk fa && nbuRegOk fb && imm18Ok imm
  | .lui thr fa imm => thrOk thr && nbuRegOk fa && imm18Ok imm
  | .ld thr _ fa fb width _ imm => thrOk thr && nbuRegOk fa && nbuRegOk fb && widthOk width && imm15Ok imm
  | .st thr _ fa fb width _ imm => thrOk thr && nbuRegOk fa && nbuRegOk fb && widthOk width && imm15Ok imm
  | .vld thr _ fa fb _ imm => thrOk thr && nbuRegOk fa && nbuRegOk fb && imm15Ok imm
  | .vst thr _ fa fb _ imm => thrOk thr && nbuRegOk fa && nbuRegOk fb && imm15Ok imm
  | .tld thr _ fa fb _ imm => thrOk thr && nbuRegOk fa && nbuRegOk fb && imm15Ok imm
  | .fenceInstr thr => thrOk thr
  | .beq thr fa fb imm => thrOk thr && nbuRegOk fa && nbuRegOk fb && imm18Ok imm
  | .bne thr fa fb imm => thrOk thr && nbuRegOk fa && nbuRegOk fb && imm18Ok imm
  | .blt thr fa fb imm => thrOk thr && nbuRegOk fa && nbuRegOk fb && imm18Ok imm
  | .bge thr fa fb imm => thrOk thr && nbuRegOk fa && nbuRegOk fb && imm18Ok imm
  | .bltu thr fa fb imm => thrOk thr && nbuRegOk fa && nbuRegOk fb && imm18Ok imm
  | .bgeu thr fa fb imm => thrOk thr && nbuRegOk fa && nbuRegOk fb && imm18Ok imm
  | .jal thr fa imm => thrOk thr && nbuRegOk fa && imm22Ok imm
  | .jalr thr fa fb => thrOk thr && nbuRegOk fa && nbuRegOk fb
  | .endProg thr => thrOk thr
  | .valu thr fn fa fb fc => thrOk thr && fnOk fn && nbuRegOk fa && nbuRegOk fb && nbuRegOk fc
  | .vred thr fn fa fb fc => thrOk thr && fnOk fn && nbuRegOk fa && nbuRegOk fb && nbuRegOk fc
  | .vlut thr fa fb => thrOk thr.thr && nbuRegOk fa && nbuRegOk fb
  | .vmovg thr fn fa fb => thrOk thr && fnOk fn && nbuRegOk fa && nbuRegOk fb
  | .pset thr _ fn fa fb fc => thrOk thr && fnOk fn && nbuRegOk fa && nbuRegOk fb && nbuRegOk fc
  | .enext thr _ fn fa fb fc => thrOk thr && fnOk fn && nbuRegOk fa && nbuRegOk fb && nbuRegOk fc
  | .escore thr _ fn fa fb fc => thrOk thr && fnOk fn && nbuRegOk fa && nbuRegOk fb && nbuRegOk fc
  | .eacc thr _ fn fa fb fc => thrOk thr && fnOk fn && nbuRegOk fa && nbuRegOk fb && nbuRegOk fc
  | .epil thr _ fn fa fb fc => thrOk thr && fnOk fn && nbuRegOk fa && nbuRegOk fb && nbuRegOk fc
  | .efilt thr _ fn fa fb fc => thrOk thr && fnOk fn && nbuRegOk fa && nbuRegOk fb && nbuRegOk fc
  | .evis thr _ fn fa fb fc => thrOk thr && fnOk fn && nbuRegOk fa && nbuRegOk fb && nbuRegOk fc
  | .elast thr _ fn fa fb fc => thrOk thr && fnOk fn && nbuRegOk fa && nbuRegOk fb && nbuRegOk fc
  | .ethr thr _ fn fa fb fc => thrOk thr && fnOk fn && nbuRegOk fa && nbuRegOk fb && nbuRegOk fc
  | .emit thr _ fn fa fb fc => thrOk thr && fnOk fn && nbuRegOk fa && nbuRegOk fb && nbuRegOk fc
  | .sttail thr _ fb fc => thrOk thr && nbuRegOk fb && nbuRegOk fc
  | .nbuLimit thr => thrOk thr
  | .walkStart _ => true
  | .walkHop w => unitsOk w.raw
  | .walkPageLoad _ => true
  | .completion _ => true
  | .ingestRecord _ => true
  | .dirLock k => partOk k.n && unitsOk k.raw
  | .pieceGrow _ => true
  | .stampRetry k => partOk k
  | .pieceCompact k _ _ _ => partOk k
  | .pieceRetire k => partOk k
  | .checkpoint => true
  | .ckpt => true
  | .pageMoveIn k _ _ _ _ => partOk k
  | .writeBack k => partOk k
  | .spill k pc _ => partOk k && pcOk pc
  | .flashReadDone k _ _ _ _ => partOk k
  | .programDone k => partOk k
  | .programFail k => partOk k
  | .eraseDone k => partOk k
  | .eraseFail k _ => partOk k
  | .extentRetire k _ => partOk k
  | .extentCompact k _ => partOk k
  | .relocation k _ _ => partOk k
  | .scrubPeriod k => partOk k.k
  | .sendEntry conn _ _ => connOk conn
  | .packetSend link => linkOk link
  | .data link _ _ => linkOk link
  | .query link _ _ => linkOk link
  | .abortMsg link _ _ => linkOk link
  | .abortreply link _ _ => linkOk link
  | .qctlRead link _ _ => linkOk link
  | .qctlModify link _ _ => linkOk link
  | .qctlPause link _ _ => linkOk link
  | .qctlResume link _ _ => linkOk link
  | .qctlreply link _ _ => linkOk link
  | .poolMessage link _ _ => linkOk link
  | .poolreply link _ _ => linkOk link
  | .cqdb link _ _ => linkOk link
  | .write link _ _ => linkOk link
  | .writePlace conn => connOk conn
  | .ack link _ => linkOk link
  | .nakSeq link _ => linkOk link
  | .nakRnr link _ => linkOk link
  | .credit link _ => linkOk link
  | .keepalive link _ => linkOk link
  | .errorPacket link _ => linkOk link
  | .arpRequest link _ => linkOk link
  | .neighborSolicitation link _ => linkOk link
  | .retransmitTimeout conn => connOk conn
  | .ackTimer conn => connOk conn
  | .gapTimer conn => connOk conn
  | .creditTimer conn => connOk conn
  | .keepaliveTimer conn => connOk conn
  | .silent conn => connOk conn
  | .rnrDelay conn => connOk conn
  | .linkDown n => linkOk n
  | .linkUp n => linkOk n
  | .counterAdvance => true
  | .merClkReturn => true
  | .pcieRefclkReturn => true
  | .pwrGood bad => railsOk bad
  | .pcieLinkTrained => true
  | .vfEnableSet => true
  | .busMasterEnable func _ _ => funcOk func
  | .msixVectorUnmask func vec => funcOk func && vecOk func vec
  | .nonBftFrame link _ => linkOk link
  | .followUp port domain head seqNo _ => portOk port && byteOk domain && headOk head && seqOk seqNo
  | .delayReq _ => true
  | .localFault link _ _ _ => linkOk link
  | .tapReset => true
  | .hbmTempClear k _ => partOk k
  | .pcieFatal => true

end Sys2Proof
end

