-- ==== Sys2Proof/Tests/Slice0.lean ====
section
/-!
SUPPORT. Sys2Proof/Tests/Slice0.lean: the model's own tests: ill-formed operands, numbers of the spec's tables, and states
that meet the hypotheses of the statements.
-/
namespace Sys2Proof.Tests

open Sys2Proof Sys2Proof.Machine Sys2Proof.Claims

/- One theorem at a time: each evaluation by the kernel waits for the theorems before it. -/
set_option Elab.async false

/-! ## States -/

/-- A package that serves: every partition SERVING, the data path enabled, the PCIe link up and every function a master. -/
def serving : State :=
  { State.reset with
    boot := { Boot.reset with stage := .serving }
    pwr := { Power.reset.ungate with perst := false }
    coel := { Coel.reset with state := .ready, dpen := true }
    pcie := { Pcie.reset with trained := true, vfEnable := true, bme := List.replicate 17 true }
    pipe := { State.reset.pipe with parts := List.replicate 16 { Part.reset with st := .serving }, pair := some [0, 0, 0, 0, 0] } }

/-- The package with another pipeline, partition 0, core 0, or NBU 0 of partition 0. -/
def pipeIs (f : Pipe → Pipe) : State := { serving with pipe := f serving.pipe }
def partIs (f : Part → Part) : State := pipeIs (fun p => p.modPart 0 f)
def coreIs (f : CoreSt → CoreSt) : State := partIs (fun q => { q with core := f q.core })
def nbuIs (n : Nbu) : State := partIs (fun q => { q with nbus := [(0, n)] })

theorem test_serving : serving.works = true ∧ serving.reach = true ∧ serving.serves = true ∧ serving.quiet = false ∧
    serving.owed = 7 ∧ serving.canMaster 3 = true ∧ serving.pipe.fenced 0 = false := by decide +kernel

/-! ## Ill-formed operands (numbers of R7, R136, R137, R194, R231, R238, R264, R430, R485, R541, R545, R552, R599, R650) -/

theorem test_wf_package : (Instr.functionLevelReset 16).wf = false ∧ (Instr.clocks [(4, 2, 0)]).wf = false ∧
    (Instr.clocks [(0, 3, 65)]).wf = true ∧ (Instr.hbm [16]).wf = false ∧ (Instr.fcuStat 16 0).wf = false ∧
    (Instr.fabLink 32 0).wf = false ∧ (Instr.mbxCfg 17 0).wf = false ∧ (Instr.sbInertEnd 16).wf = false ∧
    (Instr.almDoorbell 0 false 3 0 none).wf = false ∧ (Instr.sendRingDoorbell (some 16) 8 0).wf = false ∧
    (Instr.registerWrite 17 0 4 0).wf = false ∧ (Instr.thermtrip 6 0).wf = false ∧ (Instr.currentLimit 4 0).wf = false ∧
    (Instr.railFault 10).wf = false ∧ (Instr.d2dDown 12).wf = false ∧ (Instr.laneFail 11 2 0).wf = false ∧
    (Instr.laneFail 0 0 66).wf = false ∧ (Instr.marginMeasure 0 48 0).wf = false ∧ (Instr.marginMeasure 4 0 0).wf = false ∧
    (Instr.sendEntry 262144 none none).wf = false ∧ (Instr.sendEntry 262143 none none).wf = true ∧ (Instr.pwrGood [10]).wf = false ∧
    (Instr.msixVectorUnmask 1 112).wf = false ∧ (Instr.msixVectorUnmask 0 255).wf = true := by
  decide +kernel

theorem test_wf_ptp : (Instr.ptpSync 8 0 ⟨0, false, 0⟩ false 0 0 0).wf = false ∧
    (Instr.ptpSync 7 256 ⟨0, false, 0⟩ false 0 0 0).wf = false ∧ (Instr.ptpSync 7 255 ⟨0, false, 0⟩ false 65536 0 0).wf = false ∧
    (Instr.ptpSync 7 255 ⟨0, false, 0⟩ false 65535 0 0).wf = true := by decide +kernel

theorem test_wf_commands : (Instr.cmdStart 8).wf = false ∧ (Instr.dpEnable 8 none).wf = false ∧
    (Instr.fwDiscard 7 none).wf = true ∧ (Instr.descriptorFetch 0 ⟨16777216, []⟩ none none).wf = false := by decide +kernel

theorem test_wf_core : (Instr.mtile 16 0 0 0).wf = false ∧ (Instr.mtile 0 4096 0 0).wf = false ∧
    (Instr.mtile 0 0 32 0).wf = false ∧ (Instr.vsel 0 0 32 0 (.sel 0) 32).wf = false ∧
    (Instr.vsel 0 0 31 31 (.sel 31) 33).wf = false ∧ (Instr.vsel 0 0 0 0 (.nbu 32 0) 32).wf = false ∧
    (Instr.coreScalar 0 0 (.alu .add 32 0 0)).wf = false ∧ (Instr.coreScalar 0 0 .reserved).wf = true ∧
    (Instr.plateAccess 0 0 ⟨.load 0 0 0 3 false, []⟩).wf = false ∧ (Instr.plateAccess 0 0 ⟨.vload 32 0 0, []⟩).wf = false ∧
    (Instr.coreVector 0 0 (.cmp .eq 0 8 0 0)).wf = false ∧ (Instr.coreVector 0 0 (.elem .add 8 0 0 0 0)).wf = false ∧
    (Instr.openReq 0 4096).wf = false ∧ (Instr.closeReq 0 ⟨4096, false, []⟩).wf = false := by decide +kernel

theorem test_wf_nbu : (Instr.scan ⟨16, 0, 0⟩ RawErrs.none).wf = false ∧ (Instr.scan ⟨0, 64, 0⟩ RawErrs.none).wf = false ∧
    (Instr.scan ⟨0, 0, 4⟩ RawErrs.none).wf = false ∧ (Instr.alu ⟨0, 0, 0⟩ 64 0 0 0).wf = false ∧
    (Instr.alu ⟨0, 0, 0⟩ 0 16 0 0).wf = false ∧ (Instr.addi ⟨0, 0, 0⟩ 0 0 131072).wf = false ∧
    (Instr.addi ⟨0, 0, 0⟩ 0 0 (-131072)).wf = true ∧ (Instr.ld ⟨0, 0, 0⟩ RawErrs.none 0 0 3 true 0).wf = false ∧
    (Instr.ld ⟨0, 0, 0⟩ RawErrs.none 0 0 8 true 16384).wf = false ∧ (Instr.jal ⟨0, 0, 0⟩ 0 2097152).wf = false ∧
    (Instr.nbuImageSwitch 0 64).wf = false ∧ (Instr.epochMarker 0 0 16).wf = false := by decide +kernel

/-! ## Numbers -/

/-- R137: division by zero and the shift of a negative number; R240: MULs wrap, SRA extends the sign. -/
theorem test_scalar : scalarEval .divU 7 0 = BitVec.allOnes 64 ∧ scalarEval .sar (-8) 2 = -2 ∧ scalarEval .sub 0 1 = -1 ∧
    scalarEval .cmpLt (-1) 0 = 1 ∧ scalarEval .cmpLtU (-1) 0 = 0 := by decide +kernel

theorem test_alu : aluFn 0x07 (-8) 2 = some (-2) ∧ aluFn 0x05 1 64 = some 1 ∧ aluFn 0x09 (-1) 0 = some 1 ∧
    aluFn 0x0A (-1) 0 = some 0 ∧ aluFn 0x17 0 0 = none := by decide +kernel

/-- R60, R61: a value is taken at the next multiple of 10; it steps forward, or holds. -/
theorem test_take : (Meridian.reset.take 1001).now = 1010 ∧ (Meridian.reset.take 1001).stepped = true ∧
    (Meridian.reset.take 10).stepped = false ∧ (({ Meridian.reset with now := 1000 } : Meridian).take 900).hold = 10 := by decide +kernel

/-- R12: the identity registers of the 48L build. -/
theorem test_identity : readReg { serving with variant64 := false } 4 = 0x00200804 ∧ readReg serving 0 = 0x0002B1C1 := by decide +kernel

/-! ## Search cores: states that meet the hypotheses -/

theorem test_ctx : CtxOn serving 0 0 ∧ CtxOn serving 15 4095 ∧ (serving.pipe.core 0).inKernel 0 = false ∧
    branchHolds .always 0 0 = true ∧ branchHolds .ne 0 0 = false := by decide +kernel

/-- A custom kernel runs in context 0 of core 0 for job 5. -/
def inKernel : State :=
  coreIs (fun c => { c with
    ctxs := [(0, { CoreCtx.start with s := 0 :: List.replicate 31 0x1400000#64 })],
    inv := some { job := 5, slot := 1, ords := [(0, 7)], vectors := [], selreq := 0, ctx := 0 } })

theorem test_kernel_ctx : CtxOn inKernel 0 0 ∧ (inKernel.pipe.core 0).inKernel 0 = true ∧
    ((ctxOf inKernel 0 0).reg 1).toNat = 0x1400000 ∧ (ctxOf inKernel 0 0).s.length = 32 := by decide +kernel

/-- The effective address of an access: at both ends of the kernel window, past it, and unaligned. -/
theorem test_plate : (0x1400000 : Nat) ≤ ((ctxOf inKernel 0 0).reg 1 + BitVec.ofInt 64 0).toNat % 2 ^ 25 ∧
    ((ctxOf inKernel 0 0).reg 1 + BitVec.ofInt 64 0xBFFFF8).toNat % 2 ^ 25 + 8 ≤ 0x2000000 ∧
    inWindow (plateRange (.load 2 1 (-1) 8 false) (ctxOf inKernel 0 0)).1
      (plateRange (.load 2 1 (-1) 8 false) (ctxOf inKernel 0 0)).2 = false ∧
    (plateVector (.vload 0 1 64) = true ∧ (plateRange (.vload 0 1 64) (ctxOf inKernel 0 0)).1 % 128 ≠ 0) ∧
    ((inKernel.pipe.core 0).acquire 0).isSome = true := by decide +kernel

/-- Every vector slot is held by another context (R137). -/
def slotsHeld : State := coreIs (fun c => { c with vslots := (List.range 16).map (fun n => (n, VSlot.fresh (n + 1))) })

theorem test_vector : ((serving.pipe.core 0).acquire 0).isSome = true ∧ ((slotsHeld.pipe.core 0).acquire 0).isNone = true ∧
    CtxOn slotsHeld 0 0 ∧ vecValid (.reduce .sum 6 1 0) = true := by decide +kernel

/-- A tile of no rows. -/
def emptyTile (h : Nat) : Tile :=
  { handle := h, cls := 1, d := 1, afmt := 0, bfmt := 0, epi := 0, arows := [], brows := [], rowc := [], colc := [], cb := .none,
    ids := [], sel := [0], out := none, use := .plain, jobs := [], kernel := none, next := 0, acc := [] }

/-- One tile in the queue, and a full queue (R153, R154). -/
def oneTile : State := coreIs (fun c => { c with
  tiles := [emptyTile 3], ctxs := [(0, { CoreCtx.start with s := 0 :: 3 :: List.replicate 30 0#64, issued := [3] })] })
def fullQueue : State := coreIs (fun c => { c with tiles := List.replicate 64 (emptyTile 3) })

theorem test_tiles : CtxOn oneTile 0 0 ∧ (∀ t ∈ (oneTile.pipe.core 0).tiles, t.handle ≠ ((ctxOf oneTile 0 0).reg 2).toNat % 65536) ∧
    (∃ t ∈ (oneTile.pipe.core 0).tiles, t.handle = ((ctxOf oneTile 0 0).reg 1).toNat % 65536) ∧
    3 ∈ (ctxOf oneTile 0 0).issued ∧ (ctxOf serving 0 0).issued = [] ∧ (oneTile.pipe.core 0).tiles.length < 64 ∧
    CtxOn fullQueue 0 0 ∧ 64 ≤ (fullQueue.pipe.core 0).tiles.length ∧ (fullQueue.pipe.core 0).inKernel 0 = false ∧
    (decodeTile (oneTile.pipe.plateRead 0 0 64)).reads = [] := by decide +kernel

/-- A request of core 0 whose CLOSE awaits blocks, with four commands behind it; and memory words with errors (R139, R265). -/
def closing4 : State := coreIs (fun c => { c with sel := [(2, { SelReq.reset with state := .closing, owed := 1, cmds := 4 })] })

theorem test_plate_waits : CtxOn closing4 0 0 ∧ (closing4.pipe.core 0).inKernel 0 = false ∧
    closing4.pipe.loadWaits 0 (0x1000000 + 64 * 2) 8 = true ∧ closing4.pipe.loadWaits 0 (0x1000000 + 64 * 2 + 8) 8 = false ∧
    closing4.pipe.storeWaits 0 (0x1000000 + 64 * 2) [2#8] = true ∧ closing4.pipe.storeWaits 0 (0x1000000 + 64 * 2) [1#8] = false ∧
    (∃ e ∈ [((0 : Nat), false)], e.2 = false) ∧ metBy [(0, false), (9, true)] (plateWords false 4 8) = [(0, false)] := by decide +kernel

/-- It is the turn of another context (R135); and a request of a context still waits in the network (R220). -/
theorem test_turns : let c : CoreSt := { CoreSt.reset with turn := some 3, ctxs := [(3, CoreCtx.start), (5, CoreCtx.start)] }
    c.mayIssue 3 = true ∧ c.mayIssue 5 = false ∧ ({ c with waits := [3] } : CoreSt).mayIssue 5 = true := by decide +kernel

/-- A tile whose column constants come from the stream of an unreadable unit (R155, R212). -/
def badTile : State := pipeIs (fun p => { p with
  plate := p.plate.writeN 0 (List.replicate 6 0#8 ++ [2#8] ++ List.replicate 25 0#8 ++ leBytes 8 (bankAddr 0 0 0x3EF00000)),
  poison := [hbmKey 0 0 0x3EF00000 / 32] })

theorem test_tile_reads : CtxOn badTile 0 0 ∧ (badTile.pipe.core 0).inKernel 0 = false ∧ (badTile.pipe.core 0).tiles.length < 64 ∧
    (let d := decodeTile (badTile.pipe.plateRead 0 0 64)
     (∀ r ∈ d.reads, badTile.pipe.iasReady r.1 r.2 = true) ∧
     (badTile.pipe.readUnits ((d.reads.flatMap (fun r => badTile.pipe.iasUnits r.1 r.2)).eraseDups)).2 = some 0) := by decide +kernel

/-- A full queue of blocks; and VSEL of a kernel to a request that a stage opened, and to one that a program opened. -/
def fullBlocks : State := coreIs (fun c => { c with
  blocks := List.replicate 256 { target := 0, src := .nbu, entries := [], runEnd := none, job := 0, mapped := false } })

theorem test_vsel : CtxOn fullBlocks 0 0 ∧ 256 ≤ (fullBlocks.pipe.core 0).blocks.length ∧
    (inKernel.pipe.core 0).blocks.length < 256 ∧ ((inKernel.pipe.core 0).inv.map (·.ctx)) = some 0 ∧
    (inKernel.pipe.core 0).stageSel 0 = false ∧
    (CoreSt.stageSel { CoreSt.reset with sel := [(0, { SelReq.reset with use := .rerank })] } 0) = true := by decide +kernel

/-- The other hand-off (R137, R214): inside the kernel window and outside, to a partition that is fenced and to one that is not. -/
theorem test_hand_off : 0x1400000 ≤ ((ctxOf inKernel 0 0).reg 1).toNat % 2 ^ 25 ∧
    ((ctxOf inKernel 0 0).reg 1).toNat % 2 ^ 25 + (64 + reqOperand (inKernel.pipe.plateRead 0 0x1400000 64)) ≤ 0x2000000 ∧
    ((ctxOf inKernel 0 0).reg 0).toNat % 2 ^ 25 < 0x1400000 ∧ inKernel.pipe.fenced (((ctxOf inKernel 0 0).reg 0).toNat / 64 % 16) = false ∧
    (partIs (fun q => { q with st := .fenced })).pipe.fenced 0 = true ∧ (serving.pipe.core 0).inKernel 0 = false := by decide +kernel

/-- A loaded index of dimension 1, and a job of it that waits in core 0 for an invocation of kernel slot 1. -/
def ixZero : IdxCopy :=
  { handle := 1, addr := 0, desc := decodeIDesc [], drp := decodeDrp [] [] [], book := [], rows := [], norms := [], dormant := false, nodes := [] }
def formsZero : QueryForms := { plain := ⟨0, 0, [], 0, 0⟩, coarse := ⟨0, 0, [], 0, 0⟩, scan := ⟨0, 0, [], 0, 0⟩, rerank := ⟨0, 0, [], 0, 0⟩, rotated := [] }
def jobIs (f : Pipe → Pipe) (jb : Job) : State :=
  pipeIs (fun p => f { p with jobs := [(5, { jb with idx := some 1, forms := some formsZero })], idx := [(1, ixZero)], handles := [(1, 1)] })

def invoking : State := jobIs (fun p => p.modCore 0 (fun c => { c with
  invWait := [{ job := 5, slot := 1, ords := [(0, 7)], vectors := [], selreq := 0, ctx := 0 }] })) Job.zero

theorem test_invoke : Calm invoking ∧ (invoking.pipe.core 0).inv = none ∧ (invoking.pipe.core 0).invWait.length = 1 ∧
    (invoking.pipe.core 0).ctxs.freeKey 4096 = some 0 ∧ invoking.pipe.jobs.has 5 = true ∧
    ((invoking.pipe.jobs.get? 5).bind invoking.pipe.idxOf).isSome = true := by decide +kernel

/-! ## Selection and arrays -/

/-- Core 0 with one request and one block for it. -/
def selIs (r : SelReq) (b : List SelBlock) : State := coreIs (fun c => { c with sel := [(2, r)], blocks := b })
def blockOf (target job : Nat) (src : BlockSrc) : SelBlock :=
  { target := target, src := src, entries := [(0x3F800000#32, 0, 9)], runEnd := none, job := job, mapped := false }

theorem test_selection : Calm (selIs SelReq.reset []) ∧ (selIs SelReq.reset []).pipe.fenced 0 = false ∧
    (((selIs SelReq.reset []).pipe.core 0).sel.get? 2).isSome = true := by decide +kernel

theorem test_open_request : let s := selIs { SelReq.reset with state := .opened } [blockOf 3 0 .tile]
    Calm s ∧ ((s.pipe.core 0).sel.get? 2).map (·.state) = some .opened ∧ ((s.pipe.core 0).sel.get? 2).map (·.use) = some .user ∧
    (∀ b ∈ (s.pipe.core 0).blocks, b.target ≠ 2) ∧ (serving.pipe.core 15).sel.get? 4095 = none := by decide +kernel

theorem test_blocks_wait : let s := selIs { SelReq.reset with state := .opened } [blockOf 2 0 .tile]
    (∃ b ∈ (s.pipe.core 0).blocks, b.target = 2) ∧ ((s.pipe.core 0).nextBlock).map (·.target) = some 2 ∧
    ((s.pipe.core 0).nextBlock).map (·.src) = some .tile := by decide +kernel

theorem test_stray_blocks : let idle := selIs SelReq.reset [blockOf 3 0 .vsel]
    let other := selIs { SelReq.reset with use := .merge, job := 7, state := .opened } [blockOf 2 8 .nbu]
    ((idle.pipe.core 0).nextBlock).map (·.target) = some 3 ∧ (idle.pipe.core 0).sel.get? 3 = none ∧
    ((other.pipe.core 0).nextBlock).map (·.job) = some 8 ∧ ((other.pipe.core 0).sel.get? 2).map (·.job) = some 7 := by decide +kernel

/-- Requests to close: with a COMPACT, with FWD, with a block before the CLOSE, and while a CLOSE awaits its blocks. -/
theorem test_close : let r := { SelReq.reset with state := .opened }
    let f := fun (y : SelReq) (bs : List SelBlock) => selIs y bs
    (∀ y ∈ [r, { r with compact := true }, { r with fwd := true }, { r with state := .closing, owed := 1 }],
      CoreOn (f y []) 0 ∧ ((f y []).pipe.core 0).sel.get? 2 = some y ∧ y.use = .user ∧
      (((f y []).pipe.rawErrors []).core 0).blocks.filter (fun b => b.target == 2) = []) ∧
    ((((f r [blockOf 2 0 .tile]).pipe.rawErrors []).core 0).blocks.filter (fun b => b.target == 2)).length = 1 := by decide +kernel

theorem test_blocks_closing : ∀ y ∈ [{ SelReq.reset with state := .closing, owed := 1 }, { SelReq.reset with state := .closing, owed := 2 },
      { SelReq.reset with state := .closing }, { SelReq.reset with state := .done }, SelReq.reset],
    ((selIs y [blockOf 2 0 .tile]).pipe.core 0).sel.get? 2 = some y ∧
    ((selIs y [blockOf 2 0 .tile]).pipe.core 0).nextBlock = some (blockOf 2 0 .tile) := by decide +kernel

theorem test_key_order : KeyOrder [⟨0#32, 0, 1, 0⟩, ⟨0#32, 0, 2, 0⟩, ⟨5#32, 0, 0, 0⟩] ∧
    entBefore ⟨5#32, 0, 0, 0⟩ ⟨0#32, 0, 2, 0⟩ = false := by
  exact ⟨⟨by decide, by decide, trivial⟩, by decide⟩

theorem test_arrays : let s := oneTile
    Calm s ∧ (s.pipe.core 0).coarse = [] ∧ (s.pipe.core 0).blocks.length < 256 ∧ ((s.pipe.core 0).nextTile).map (·.handle) = some 3 ∧
    (emptyTile 3).out = none ∧ (emptyTile 3).use = .plain ∧ (emptyTile 3).sel ≠ [] ∧ (emptyTile 3).passes ≤ (emptyTile 3).next + 1 := by
  decide +kernel

theorem test_derotator : let s := coreIs (fun c => { c with derot := [⟨1, 5, 0⟩, ⟨2, 6, 0⟩] })
    [0, 1, 2].findSome? (fun g => (s.pipe.core 0).derot.find? (fun w => w.group == g)) = some ⟨1, 5, 0⟩ ∧
    ((s.pipe.modCore 0 (fun c => { c with derot := c.derot.erase ⟨1, 5, 0⟩ })).derotQuery 5).jobAt 5 .derot = none := by decide +kernel

theorem test_derotator_ingest : let s := coreIs (fun c => { c with derot := [⟨2, 6, 0⟩] })
    [0, 1, 2].findSome? (fun g => (s.pipe.core 0).derot.find? (fun w => w.group == g)) = some ⟨2, 6, 0⟩ := by decide +kernel

/-! ## Near-bank units -/

def thr0 : ThrId := ⟨0, 0, 0⟩
/-- Thread 0 of NBU 0 of partition 0 runs a request: of kernel 0x10, loaded, or of a kernel of the firmware. -/
def thread0 (t : Thread) : State := nbuIs { Nbu.idle with threads := setNth Nbu.idle.threads 0 t, image := ⟨List.replicate 4 0#32, [0]⟩ }
def progReq : NbuReq := { NbuReq.zero with kernel := 0x10, job := 5 }
def runsProg : State := thread0 { Thread.idle with req := some progReq, prog := some 0 }
def runsKernel (kn : Nat) : State := thread0 { Thread.idle with req := some { NbuReq.zero with kernel := kn } }

theorem test_issues : Issues runsProg thr0 progReq ∧ loadedProg runsProg thr0 = true ∧
    Issues (runsKernel 0) thr0 { NbuReq.zero with kernel := 0 } ∧ loadedProg (runsKernel 0) thr0 = false ∧
    (0 : Int) ≤ ((thrOf runsProg thr0).pc : Int) + 4 * 0 ∧ aluFn 0x16 0 0 ≠ none ∧ valuFn 0 0 0 ≠ none ∧ vredFn 0 0 0 ≠ none := by
  decide +kernel

/-- R235 at the ends of the scratch area and of the thread area. -/
theorem test_access_bounds :
    (((thrOf runsProg thr0).gr 0 + BitVec.ofInt 64 0x3FF8).toNat + 8 ≤ 0x4000 ∧
      ((thrOf runsProg thr0).gr 0 + BitVec.ofInt 64 0x3FF8).toNat % 8 = 0) ∧
    ((thrOf runsProg thr0).gr 0 + BitVec.ofInt 64 (64 * 0xFF)).toNat + 64 ≤ 0x4000 ∧
    ((thrOf runsProg thr0).gr 0 + BitVec.ofInt 64 (64 * 0xC0)).toNat + 4096 ≤ 0x4000 ∧
    (portOf runsProg thr0 RawErrs.none).mayRead 0 0x3EEFFFF8 8 = true ∧ (portOf runsProg thr0 RawErrs.none).mayRead 0 0x3EF3FFF8 8 = true ∧
    (portOf runsProg thr0 RawErrs.none).mayWrite 0 0x3EF00000 8 = true ∧ (portOf runsProg thr0 RawErrs.none).mayWrite 0 0x3EF40000 8 = false ∧
    (portOf runsProg thr0 RawErrs.none).mayRead 0 0 4096 = true ∧
    0x4000 < ((thrOf runsProg thr0).gr 0 + BitVec.ofInt 64 0x3FF9).toNat + 8 ∧
    (((thrOf runsProg thr0).gr 0 + BitVec.ofInt 64 4).toNat + 8 ≤ 0x4000 ∧ ((thrOf runsProg thr0).gr 0 + BitVec.ofInt 64 4).toNat % 8 ≠ 0) := by
  decide +kernel

/-- A piece of one entry in partition 0, and a thread whose entry unit holds it. -/
def hdr1 : PieceHdr :=
  { codeb := 32, sfmt := 0, cap := 1, ordbase := 256, codes := 4096, scales := 8192, records := 12288, fdir := 0, adj := 0, tail := 1 }
def scores : State := thread0 { Thread.idle with req := some progReq, prog := some 0, eu := { Thread.idle.eu with hdr := some hdr1, bound := 1 } }

theorem test_entry_unit : Issues scores thr0 progReq ∧ ((thrOf scores thr0).gr 0).toNat < (thrOf scores thr0).eu.bound ∧
    (euHdr scores thr0).sfmt ≠ 8 ∧ (thrOf scores thr0).lastEmit = none ∧ progReq.smax ≤ 1 + (thrOf scores thr0).block.length ∧
    (thrOf scores thr0).sent + (thrOf scores thr0).block.length < progReq.smax ∧ (thrOf scores thr0).block.length < 31 := by decide +kernel

theorem test_emit_full : let r := { progReq with smax := 64 }
    let s := thread0 { Thread.idle with req := some r, prog := some 0, block := List.replicate 31 (0#32, 0), eu := { Thread.idle.eu with hdr := some hdr1, bound := 1 } }
    Issues s thr0 r ∧ (thrOf s thr0).sent + (thrOf s thr0).block.length < r.smax ∧ (thrOf s thr0).block.length = 31 := by decide +kernel

theorem test_emit_over : let r := { progReq with smax := 0 }
    let s := thread0 { Thread.idle with req := some r, prog := some 0, eu := { Thread.idle.eu with bound := 1 } }
    Issues s thr0 r ∧ r.smax ≤ (thrOf s thr0).sent + (thrOf s thr0).block.length := by decide +kernel

def seen : State := { scores with pipe := { scores.pipe with hbm := Mem.writeN [] (12288 + 14) [1#8] } }
def nextOfScores : Option (Nat × W32 × W32) × Nat × Bank :=
  enextLoop (euEnv seen thr0 progReq) (euHdr seen thr0) (thrOf seen thr0).eu.lth 1 0 (portOf seen thr0 RawErrs.none)
def nextOfNone : Option (Nat × W32 × W32) × Nat × Bank :=
  enextLoop (euEnv runsProg thr0 progReq) (euHdr runsProg thr0) (thrOf runsProg thr0).eu.lth 0 0 (portOf runsProg thr0 RawErrs.none)
theorem test_enext : nextOfScores.2.2.deny = false ∧ nextOfScores.1.isSome = true ∧ nextOfNone.1.isNone = true ∧
    nextOfNone.2.2.deny = false := by decide +kernel

/-- An NBU whose loaded image is small runs each kernel; kernel 8 has no program. -/
theorem test_kernels : (∀ kn ∈ [0, 1, 2, 3, 5, 6, 7, 8], (runsKernel kn).pipe.running 0 0 0 (· == kn) = some { NbuReq.zero with kernel := kn }) ∧
    ((runsKernel 0).pipe.core 0).blocks.length < 256 ∧ ((runsKernel 8).pipe.nbu 0 0).offset 8 = none ∧
    (kernelCompact { NbuReq.zero with kernel := 5, arg0 := 0x10000 } ((runsKernel 5).pipe.bankOf 0 0 RawErrs.none none)).status = .done := by decide +kernel

def tab0 : ETab := { handle := 0, int4 := false, dim := 1, slog := 0, nrows := 1, rowBase := 0, cbase := 0, sbase := 4096, remote := [] }

theorem test_pool_kernel : let s := { runsKernel 4 with pipe := { (runsKernel 4).pipe with etabs := [(1, tab0)], etabHandles := [(0, 1)] } }
    s.pipe.running 0 0 0 (· == 4) = some { NbuReq.zero with kernel := 4 } ∧ (s.pipe.poolTab { NbuReq.zero with kernel := 4 }).isSome = true := by
  decide +kernel

theorem test_nbu_requests : let q := nbuIs { Nbu.idle with queue := [NbuReq.zero] }
    (q.pipe.thread 0 0 3).req = none ∧ ((q.pipe.nbu 0 0).choose (q.pipe.markersAt (q.pipe.nbu 0 0)) 3) = some NbuReq.zero ∧
    ((runsProg.pipe.nbu 0 0).offset 0x10).isSome = true ∧ runsProg.pipe.jobs.get? 9 = none ∧ serving.pipe.fenced 15 = false := by decide +kernel

theorem test_image_waits : let n : Nbu := { Nbu.idle with nextImage := some ⟨[0#32], [0]⟩ }
    (nbuIs n).pipe.nbu 0 0 = n ∧ ∀ r ∈ n.running, n.offset r.kernel = none := by decide +kernel

theorem test_cancelled : let s := thread0 { Thread.idle with req := some progReq, prog := some 0, cancel := some (0, 0), issued := 4194304 }
    ((s.pipe.thread 0 0 0).cancel).isSome = true ∧ ((s.pipe.nbu 0 0).offset 0x10).isSome = true ∧
    (s.pipe.thread 0 0 0).cancelDue = true ∧ 4194304 ≤ (s.pipe.thread 0 0 0).issued := by decide +kernel

/-- A SCAN under a cancel stops at a boundary that it has reached; and an access that meets a parity error (R228, R237). -/
theorem test_halted : let s := thread0 { Thread.idle with req := some NbuReq.zero, cancel := some (0, 0) }
    let r := { NbuReq.zero with kernel := 0 }
    let x := s.pipe.haltedAt 0 0 0 r { s.pipe.bankOf 0 0 RawErrs.none none with stop := some (4096 * 0) }
    loadedProg s thr0 = false ∧ x.2.2.halted = true ∧ x.2.2.ue = false ∧ (⟨[], true⟩ : RawErrs).parity = true := by decide +kernel

/-! ## Walkers -/

def walk0 : Walk :=
  { job := 5, core := 0, parts := [], lost := [], hop := 0, started := false, beam := [], visited := [], link := none, amap := [], replies := [], blocksOut := 0, fringeOut := 0,
    nextRef := 0, req := 0, slot := none, used := 0, ended := false }
def walking (w : Walk) : State := jobIs (fun p => { p with walks := [(0, w)] }.modPart 0 (fun q => { q with walkWait := [0] })) { Job.zero with phase := .walking }

theorem test_walk_start : let s := walking walk0
    Calm s ∧ s.pipe.walks.get? 0 = some walk0 ∧ (s.pipe.jobAt 5 .walking).isSome = true ∧
    ((s.pipe.jobAt 5 .walking).bind s.pipe.idxOf).isSome = true ∧ s.pipe.mayStart 0 walk0 = true ∧
    (s.pipe.takeSlot 0).isSome = true ∧ walk0.parts = [] := by decide +kernel

/-- The same with a subgraph to walk: its start pages are there. -/
theorem test_walk_begin : let w := { walk0 with parts := [0] }
    let s := walking w
    CoreOn s 0 ∧ s.pipe.mayStart 0 w = true ∧ (s.pipe.jobAt 5 .walking).map (·.mode) = some 0 ∧
    s.pipe.pagesHere (s.pipe.headPages ixZero (w.parts ++ w.lost)) = true ∧
    (s.pipe.readFor 5 (s.pipe.headUnits ixZero (w.parts ++ w.lost))).2 = true ∧
    (let p0 := (s.pipe.readFor 5 (s.pipe.headUnits ixZero (w.parts ++ w.lost))).1
     p0.pagesHere (w.parts.flatMap (fun k => p0.startPages k (p0.starts ixZero k))) = true ∧ (p0.takeSlot 0).isSome = true) := by
  decide +kernel

theorem test_walk_hop : let w := { walk0 with started := true, slot := some 0 }
    let s := walking w
    s.pipe.walks.get? 0 = some w ∧ w.blocksOut = 0 ∧ w.ended = false ∧ w.beam = [] ∧ (s.pipe.jobAt 5 .walking).isSome = true ∧
    ((walking { w with slot := none }).pipe.takeSlot 0).isSome = true := by decide +kernel

/-! ## Registers -/

theorem test_registers : serving.reach = true ∧ State.reset.reach = false ∧ serving.dbg.injEn = false ∧
    (serving.mailbox 16).en = false ∧ 0x10 % 8 = 0 ∧ 0xA002 % 4 ≠ 0 ∧ serving.pipe.out = [] ∧
    (∀ x ∈ ({ serving with fcu := serving.fcu.w1c 15 0xFFFFFFFF } : State).holding, x / 32 ≠ 15) := by decide +kernel

theorem test_injection : ({ serving with dbg := { serving.dbg with injEn := true } } : State).dbg.injEn = true := by decide

/-- R664: the last unlisted offset of the list reads 0. -/
theorem test_unlisted : readReg serving 0x20014 = 0 ∧ readReg serving 0xA7FC = 0 := by decide +kernel

/-! ## The time base -/

/-- The Meridian block at a multiple of its watch, LOCKED since an edge 1 ms before. -/
def merIs (m : Meridian) : State := { serving with mer := m }
def locked : Meridian := { Meridian.reset with state := .locked, clkOk := true, now := 2000000, prev := 2000000, lastEdge := some 1000000, ticks := 200000 }

theorem test_clock_rows : serving.boot.stage ≠ .reset ∧ (merIs locked).owed = 7 ∧ locked.hold = 0 ∧ locked.now + 10 ≤ merMax ∧
    locked.lastEdge = some 1000000 ∧ locked.ref ≤ 1000000 + 1001000 ∧ 1000000 + 1000000 ≤ locked.ref + 1000 ∧
    Meridian.reset.clkOk = false := by decide +kernel

theorem test_hold_row : 0 < ({ locked with hold := 1 } : Meridian).hold ∧ (merIs { locked with hold := 1 }).owed = 7 := by decide +kernel

/-- A pulse is ignored at 1,010 ns after its time; at 2,000 ns the loss of MER_SYNC is owed. -/
theorem test_late_pulse : let m := { locked with now := 2001010, prev := 2001010 }
    1000000 + 1001000 < m.ref ∧ 1000000 + 1002000 ≤ ({ locked with now := 2002000 } : Meridian).ref := by decide +kernel

theorem test_first_pulse : let m := { locked with state := .unsynced, loaded := some 5, ticks := 1000 }
    m.state ≠ .locked ∧ m.clkSince + 1000 ≤ m.ticks ∧ ({ m with ticks := 999 } : Meridian).ticks < m.clkSince + 1000 := by decide

theorem test_hold_limit : let m := { locked with state := .holdover, holdStart := 0, ticks := 5000000 }
    m.holdStart + m.holdMs * 100000 ≤ m.ticks ∧ (merIs m).owed = 1 := by decide +kernel

def ptpOn : Meridian := { Meridian.reset with ptpEn := true, ptp := { Meridian.reset.ptp with masters := [⟨[1], 9⟩], sync := some (50, 3), last := some (1, 2), req := some 3 } }

theorem test_ptp : ptpOn.takesPtp 0 0 false = true ∧ ptpOn.takesPtp 1 0 false = false ∧ ptpOn.takesPtp 0 1 false = false ∧
    ptpOn.takesPtp 0 0 true = false ∧ Meridian.reset.takesPtp 0 0 false = false ∧ ptpOn.ptp.sync = some (50, 3) ∧ ptpOn.ptp.last = some (1, 2) ∧
    ptpOn.fromMaster 9 = true ∧ ptpOn.fromMaster 8 = false ∧ ptpOn.ptp.best.isSome = true ∧
    Fabric.squelched { Fabric.reset with ports := List.replicate 8 ⟨0, true, [0, 1, 2, 3]⟩ } 0 false = false := by decide

/-- A watch end, a takeover and a publication are owed in turn. -/
theorem test_owed_watch : (merIs { locked with now := 2048000, prev := 1000000, lastEdge := some 2048000 }).owed = 2 := by decide +kernel

theorem test_owed_takeover :
    ({ partIs (fun q => { q with sched := { q.sched with pending := [⟨100, [], 0⟩] } }) with mer := locked } : State).owed = 3 := by decide +kernel

def armedAt (time epoch wrote : Nat) : EphEntry := { time := time, epoch := epoch, state := .armed, late := false, wrote := wrote }

theorem test_owed_publish : let m := { locked with eph := [(3, armedAt 20 7 0), (5, armedAt 10 9 0), (6, armedAt 10 8 0)] }
    (merIs m).owed = 4 ∧ m.nextDue = some (5, armedAt 10 9 0) ∧ m.pub < 9 ∧
    m.eph.Pairwise (fun a b => a.1 < b.1) := by decide +kernel

theorem test_skip : let m := { locked with eph := [(0, armedAt 20 0xFFFFFFFFFFFF 0)] }
    (merIs m).owed = 4 ∧ m.nextDue = some (0, armedAt 20 0xFFFFFFFFFFFF 0) := by decide +kernel

theorem test_kept : Kept State.reset ∧ Kept serving ∧ Kept (merIs locked) := by decide +kernel

/-! ## Resets, boot and restarts -/

theorem test_reset_rows : State.reset.pwr.good = true ∧ State.reset.flush.state ≠ .flushing ∧ State.reset.coel.dpen = false ∧
    serving.coel.dpen = true ∧ serving.works = true ∧ serving.fcu.safe = false ∧ serving.pcie.vfEnable = true ∧
    1 < serving.mbx.length ∧ State.reset.boot.stage = .reset ∧ State.reset.works = false := by decide +kernel

/-- The package at a boot stage. -/
def booting (st : Stage) : State := { State.reset with boot := { Boot.reset with stage := st }, pwr := { Power.reset with perst := false } }

theorem test_boot : ∀ st ∈ [Stage.rom, .fwStart, .clocks, .hbm, .flash, .restore], (booting st).works = true ∧ (booting st).boot.stage = st := by
  decide +kernel

theorem test_boot_rom : (romChoose { (booting .rom).nor with present := true } false).start = none ∧
    (romChoose { (booting .rom).nor with present := false } false).start = none ∧ (booting .flash).pipe.nand.record = none ∧
    ({ Nand.blank with flush := some (7, 0, false) } : Nand).record = some (7, 0, false) := by decide +kernel

theorem test_boot_ready : let s := { booting .ready with coel := { Coel.reset with state := .training } }
    s.works = true ∧ s.boot.stage = .ready ∧ s.coel.state = .training ∧ s.fcu.clearOfSafe = true ∧ 15 < s.pipe.parts.length ∧
    (s.pipe.part 15).trained = true := by decide +kernel

def flushing (after : AfterFlush) (ps : List Nat) : State := { serving with flush := { Flush.reset with state := .flushing, parts := ps, after := after } }

theorem test_flush : (flushing .stay [2]).flush.state = .flushing ∧ (flushing .stay [2]).flush.parts[0]? = some 2 ∧
    (∀ n ∈ (flushing .perst [3, 3]).flush.parts, n = 3) ∧ (flushing .rstCtl []).flush.after = .rstCtl ∧
    (flushing .stay []).fcu.parityWaits = false ∧ serving.pwr.good = true := by decide +kernel

theorem test_watchdog : serving.coel.state ≠ .rom ∧ (serving.raise [260]).fcu.safe = false ∧ (serving.raise [260]).storeUp = true ∧
    ((({ serving.raise [260] with coel := { (serving.raise [260]).coel with wdcnt := 1 } } : State).abandonAll).boot.trial) = false := by
  decide +kernel

theorem test_restart : let s := { serving with coel := { serving.coel with state := .restarting } }
    s.works = true ∧ s.boot.stage = .serving ∧ s.coel.state = .restarting ∧ s.boot.fellBack = false ∧
    ({ s with coel := { s.coel with state := .activating } } : State).works = true := by decide +kernel

theorem test_activation : ({ serving with boot := { serving.boot with openNow := true } } : State).owed = 5 ∧
    ({ serving with boot := { serving.boot with trialRun := true } } : State).boot.trialRun = true := by decide +kernel

/-! ## Faults, limits, links -/

theorem test_faults : serving.fcu.has 511 = false ∧ ({ Fcu.reset with bits := 1 } : Fcu).has 0 = true ∧
    Fcu.reset.reaction 0 = .interrupt ∧ Fcu.reset.reaction 8 = .fence ∧ Fcu.reset.reaction 378 = .safe ∧
    Fcu.reset.reaction 511 = .safe ∧ Fcu.reset.reaction 11 = .record := by decide +kernel

theorem test_limits : serving.pwr.good = true ∧ ({ serving.pwr with thr := [true] } : Power).thr.getD 0 false = true ∧
    (serving.pipe.part 0).power = true ∧ serving.coel.state = .ready := by decide

theorem test_safe_idle : let s := { serving with fcu := { Fcu.reset with safe := true } }
    s.fcu.safe = true ∧ s.fcu.safeIdle = false := by decide

def linksUp : List D2dLink := d2dReset.map (fun l => { l with trained := true })

theorem test_links : let x : D2dLink := { trained := true, failed := [[], [], [], []], dead := false }
    linksUp[0]? = some x ∧ (x.failLane 3 65).up = true ∧ x.failed[3]? = some [] ∧ moduleState [] ≠ .down ∧ 65 ∉ ([] : List Nat) ∧
    linksUp[11]?.isSome = true := by decide

theorem test_margins : marginInfo 0 31 = some (some 150, some 319) ∧ marginInfo 1 1023 = some (some 8, some 246) ∧
    marginInfo 3 63 = some (some 0, some 359) ∧ (serving.pipe.fenced (1023 / 64)) = false := by decide +kernel

theorem test_pcie : let s := { serving with pcie := Pcie.reset }
    s.pcie.trained = false ∧ s.pcie.detect = false ∧ s.pwr.perst = false ∧ s.pwr.pcieClk = true ∧ (16, 111) ∉ serving.pcie.unmasked := by decide

/-- Port 0 with one link up and enabled. -/
def linkIs (l : FabLink) : State :=
  { serving with fab := { Fabric.reset with
    ports := List.replicate 8 ⟨0, true, [0, 1, 2, 3]⟩, links := setNth Fabric.reset.links 0 { l with exists_ := true } } }

theorem test_link_rows : let u := linkIs { FabLink.reset with up := true }
    let d := linkIs FabLink.reset
    (u.fab.link 0).up = true ∧ (d.fab.link 0).up = false ∧ (d.fab.link 0).exists_ = true ∧ (d.fab.link 0).lfault = false ∧
    d.fab.squelched 0 d.quiet = false ∧ u.quiet = false := by decide +kernel

/-! ## Mailbox commands -/

/-- A request of mailbox m: an opcode and fields of the payload; a core that runs it; a package whose core 1 runs it. -/
def reqOf (m op : Nat) (fs : List (Nat × List Byte)) : Request :=
  { mb := m, slot := fs.foldl (fun b f => overlay b f.1 f.2) (padTo 256 (leBytes 2 op)), seq := 3 }
def runs (r : Request) : Running := { req := r, late := false, begun := false, pos := 0, tally := 0 }
def commanded (s : State) (r : Request) : State := { s with coel := { s.coel with running := [(1, runs r)] } }
def servedBy (s : State) (m op : Nat) (fs : List (Nat × List Byte)) (g : State → Request → Gate) : Bool :=
  decide (Served (commanded s (reqOf m op fs)) 1 op (runs (reqOf m op fs)) (g (commanded s (reqOf m op fs)) (reqOf m op fs)))

theorem test_served_package : servedBy serving 0 0x0001 [] gateG = true ∧ servedBy serving 16 0x0002 [] (gateFree .a) = true ∧
    servedBy serving 16 0x0003 [] (gateP false) = true ∧ servedBy serving 16 0x0004 [] (gateFree .a) = true ∧
    (∀ op ∈ [0x0101, 0x0102, 0x0103, 0x0104, 0x0105], servedBy serving 0 op [] (gateFree .g) = true) ∧
    (reqOf 0 0x0104 [(32, [0xFF#8, 0x0F#8])]).h 32 = 4095 ∧ (reqOf 0 0x0104 [(32, [0x00#8, 0x10#8])]).h 32 = 4096 ∧
    4 < serving.owed ∧ (∀ e ∈ (serving.mailbox 16).results, e.token ≠ 0) := by decide +kernel

theorem test_served_queues : (∀ op ∈ [0x0201, 0x0202, 0x0203, 0x0204, 0x0205, 0x0206], servedBy serving 1 op [] (gateQ true) = true) ∧
    (∀ op ∈ [0x0207, 0x0208], servedBy serving 1 op [] (gateQ false) = true) ∧
    servedBy serving 16 0x0201 [(34, [0xF0#8])] (gateQ true) = true := by decide +kernel

theorem test_served_sched : (∀ op ∈ [0x0301, 0x0303, 0x0305], servedBy serving 2 op [] (gateP true) = true) ∧
    (∀ op ∈ [0x0302, 0x0304, 0x0306], servedBy serving 0 op [] (gateP false) = true) ∧
    (reqOf 0 0x0301 [(32, [1#8])]).h 32 ≠ 0 ∧ (reqOf 0 0x0303 []).buffer none 0 = some [] ∧
    (reqOf 0 0x0303 [(12, [8#8])]).buffer none 8 = none ∧
    (∀ k ∈ (reqOf 2 0x0303 []).targets, ((serving.pipe.part k).sched.writeList ⟨5, [], 0⟩).isSome = true) ∧
    (Sched.writeList { Sched.reset with pending := [⟨1, [], 0⟩, ⟨2, [], 0⟩, ⟨3, [], 0⟩, ⟨4, [], 0⟩] } ⟨5, [], 0⟩).isNone = true := by
  decide +kernel

theorem test_served_index : (∀ op ∈ [0x0404, 0x0407, 0x0408, 0x040B], servedBy serving 1 op [] (gateP true) = true) ∧
    serving.pipe.rangesOpen [] = true ∧ serving.pipe.inFlight 4294967299 = false ∧ serving.pipe.handles.has 0 = false ∧
    (invoking.pipe.index 1).isSome = true ∧ (reqOf 0 0x0502 []).buffer (some []) 4160 ≠ none := by decide +kernel

theorem test_ample : Ample serving (List.range 16) := by decide +kernel

theorem test_served_tiers : (∀ op ∈ [0x0602, 0x0605], servedBy serving 0 op [] (gateIas true Request.pages (fun _ => [])) = true) ∧
    servedBy serving 0 0x0603 [] (gateIas true Request.span (fun _ => [])) = true ∧
    servedBy serving 0 0x0604 [] (gateIas false Request.span (fun _ => [])) = true ∧
    servedBy serving 0 0x0601 [] (gateIas true Request.pages (fun r => [field r.slot 352 4])) = true ∧
    servedBy serving 5 0x0606 [] (gateP true) = true ∧ servedBy serving 5 0x0607 [] (gateP false) = true ∧
    servedBy serving 0 0x0701 [] gateG = true ∧ servedBy serving 5 0x0702 [] (gateP false) = true := by decide +kernel

theorem test_tier_loops : (serving.pipe.allocLoop 0 0 0 1 { pos := 0, new := 0, full := false }).2.1 = .done ∧
    (serving.pipe.freeLoop 0 1 0 0).2.1 = .done ∧ (serving.pipe.cmdWrite 0 [] 0 0).2.1 = .done ∧
    (serving.cmdRead 0 0 [] 0).2.1 = .done ∧ (serving.pipe.attrLoop 0 0 0 1 0 false).2.1 = .done := by decide +kernel

theorem test_served_fabric : servedBy serving 0 0x0801 [] gateG = true ∧ servedBy serving 0 0x0802 [(32, [7#8])] (gateFree .g) = true ∧
    (∀ op ∈ [0x0803, 0x0804], servedBy serving 1 op [] gatePd = true) ∧ (∀ op ∈ [0x0805, 0x0806], servedBy serving 0 op [] gateReg = true) ∧
    (∀ op ∈ [0x0807, 0x0808], servedBy serving 0 op [] gateRr = true) ∧ servedBy serving 0 0x0809 [] (gateConnRec (some [])) = true ∧
    servedBy serving 0 0x080A [] (gateConn false) = true ∧
    (∀ op ∈ [0x080B, 0x080C], servedBy { serving with boot := { serving.boot with entropy := true } } 0 op [] (gateConn true) = true) ∧
    (∀ i, i < 4 → (serving.fab.link i).up = false) ∧ ((reqOf 0 0x0809 []).connRec none).isSome = true := by decide +kernel

def conn0 : Conn := Conn.fresh (decodeConn [] 0 false)

theorem test_conn : conn0.error = none ∧ conn0.pkg = [] ∧ conn0.cfg.sloc = false ∧ conn0.txKey = none ∧ conn0.rxKey = none ∧
    (Conn.fresh { conn0.cfg with enc := true }).cfg.enc = true := by decide +kernel

theorem test_served_faults : (∀ op ∈ [0x0901, 0x0902, 0x0903, 0x0904, 0x0A05], servedBy serving 0 op [] (gateFree .g) = true) ∧
    (∀ op ∈ [0x0A01, 0x0A02, 0x0A03, 0x0A04, 0x0A06], servedBy serving 0 op [] gateG = true) ∧
    (serving.pipe.part 0).st = .serving ∧ (serving.pipe.orderly 0).2 = true ∧ serving.nor.present = true ∧
    serving.dlState ≠ .verified ∧ serving.download = none ∧ serving.boot.trial = false ∧
    (reqOf 0 0x0903 [(32, [0xFF#8, 0x01#8])]).h 32 = 511 := by decide +kernel

theorem test_gates : let s := { serving with coel := { serving.coel with dpen := false } }
    servedBy serving 1 0x0001 [] gateG = false ∧ servedBy s 1 0x0002 [] (gateFree .a) = false ∧
    servedBy State.reset 0 0x0001 [] gateG = false ∧
    servedBy (partIs (fun q => { q with st := .fenced })) 0 0x0301 [] (gateP true) = false := by decide +kernel

/-- Mailbox 1 with a request to take, and a command that waits there; core 0 serves a command of the time base. -/
def mailIs (op : Nat) : State :=
  { serving with mbx := setNth serving.mbx 1 { Mailbox.reset with en := true, szlog := 9, rqPidx := 1, waiting := [reqOf 1 op []] } }

theorem test_mailbox : (mailIs 0x0002).canMaster 1 = true ∧ ((mailIs 0x0002).mailbox 1).mayTake = true ∧
    (mailIs 0x0002).nextOf 0 17 = some (reqOf 1 0x0002 [], false) ∧ knownOps.contains 0x0002 = true ∧ knownOps.contains 0x7777 = false ∧
    (mailIs 0x7777).nextOf 0 17 = some (reqOf 1 0x7777 [], false) ∧ serving.coel.running.has 7 = false ∧
    (mailIs 0x0101).nextOfCore0 = some (reqOf 1 0x0101 [], false) ∧ serving.busyHint (reqOf 1 0x0002 []) = none ∧
    (booting .rom).busyHint (reqOf 1 0x0002 []) = some 100000 := by decide +kernel

theorem test_deferred : ({ serving with mer := { serving.mer with watchDone := true } } : State).mer.watchDone = true ∧
    serving.coel.state = .ready := by decide

theorem test_fence_rows : let f := fun st => partIs (fun q => { q with st := st, completionsOwed := st = .fenced })
    (f .fencing).works = true ∧ ((f .fencing).pipe.part 0).st = .fencing ∧ ((f .fenced).pipe.part 0).completionsOwed = true ∧
    ((f .fenced).pipe.homed 0) = [] ∧ ((f .unfencing).pipe.part 0).st = .unfencing ∧
    ((f .unfencing).pipe.part 0).completionsOwed = false := by decide +kernel

/-! ## Doorbells and dispatch -/

/-- Queue 0 of partition 0. -/
def queueIs (e : AlmEntry) : State := pipeIs (fun p => p.setQueue 0 e)
def bell (q i : Nat) : W64 := BitVec.ofNat 64 (q + i * 2 ^ 24)

theorem test_doorbells : bitsOf (bell 5 3).toNat 0 24 = 5 ∧ bitsOf (bell 5 0xFFFF).toNat 24 16 = 0xFFFF ∧
    (let e := ((queueIs { AlmEntry.zero with state := .enabled }).pipe.touchQueue 0).queue 0
     e.kind = .qsub ∧ e.state = .enabled) ∧
    (let e := ((queueIs { AlmEntry.zero with state := .paused, kind := .comp, pidx := 3 }).pipe.touchQueue 0).queue 0
     e.kind = .comp ∧ e.state = .paused ∧ e.ias = false ∧ 3 % e.size = e.pidx % e.size ∧ 4 % e.size ≠ e.pidx % e.size) ∧
    (serving.pipe.queue 0).state = .free ∧ queuePart 0 = 0 ∧ 0x100000 / 1048576 ≠ 0 := by decide +kernel

theorem test_ring_bells : ({ Fabric.reset with conns := [(0, conn0)] } : Fabric).conns.get? (bellNum (bell 0 0).toNat) = some conn0 ∧
    ({ Fabric.reset with rings := [(0, ⟨0, false, 0, 32, 0, 0, 0, true⟩)] } : Fabric).rings.has (bellNum (bell 0 0).toNat % 65536) = true ∧
    Fabric.reset.rings.get? (bellNum (bell 0 0).toNat % 65536) = none ∧
    ({ Fabric.reset with pds := [(0, ⟨false, 0, 32, 0, 0, 0, 0⟩)] } : Fabric).pds.has (bellNum (bell 0 0).toNat % 65536) = true := by
  decide +kernel

def listed (e : AlmEntry) : State :=
  { queueIs e with pipe := (queueIs e).pipe.modPart 0 (fun q => { q with sched := { q.sched with active := [0] } }) }

theorem test_visit : let s := listed { AlmEntry.zero with state := .enabled, onlist := true }
    s.coel.dpen = true ∧ s.owed = 7 ∧ (s.pipe.part 0).sched.active = [0] ∧ (s.pipe.queue 0).shaper = 0 ∧
    s.pipe.heldQ 0 0 (s.pipe.queue 0) = false ∧
    ((((s.pipe.modQueue 0 (fun e => { e with deficit := clampI 32 (e.deficit + e.quant) })).dispatchLoop 0 0 0 1).queue 0).shaper = 0) ∧
    ((((s.pipe.modQueue 0 (fun e => { e with deficit := clampI 32 (e.deficit + e.quant) })).dispatchLoop 0 0 0 1).queue 0).ready = false) := by
  decide +kernel

theorem test_fetch : let s := listed { AlmEntry.zero with state := .enabled, pidx := 1 }
    let e := (s.pipe.touchQueue 0).queue 0
    e.state = .enabled ∧ e.kind = .qsub ∧ e.ias = false ∧ e.fetchedSlots < e.occupied ∧
    (((s.pipe.touchQueue 0).queueError 0).jobAt 0 .records) = none := by decide +kernel

theorem test_completion : let q := jobIs id Job.zero
    q.pipe.firstAt 5 = true ∧ (q.pipe.jobs.get? 5).map (·.batch) = some false ∧ (q.pipe.jobs.get? 5).map (·.home) = some 0 := by
  decide +kernel

/-! ## Bags and ingest -/

theorem test_bag : let s := jobIs (fun p => { p with etabs := [(1, tab0)] }) { Job.zero with phase := .bag, etab := some 1, data := leBytes 8 0 }
    Calm s ∧ (s.pipe.jobAt 5 .bag).isSome = true ∧ s.pipe.etabs.has 1 = true ∧ tab0.place 0 = .local_ 0 0 0 ∧
    tab0.place 1 = .out := by decide +kernel

theorem test_partial : let jb : Job := { Job.zero with phase := .pooling, poolWait := 1, poolParts := [(0, 0, 0, [], 0)], ordered := false }
    ((jobIs id jb).pipe.jobAt 5 .pooling).isSome = true ∧ jb.nextPartial = some (0, 0, 0, [], 0) ∧ jb.poolWait = 1 := by decide +kernel

def endOf (kn : Nat) : EndMsg :=
  { status := .done, count := 0, scanned := 0, tailRead := 0, bytes := 0, req := { NbuReq.zero with kernel := kn }, part := 0, pc := 0,
    replies := [], partial_ := [], noRoom := false }

theorem test_ends : ∀ kn ∈ [0, 1, 3, 4, 6, 7], ((coreIs (fun c => { c with ends := [endOf kn] })).pipe.core 0).ends.map (·.req.kernel) = [kn] := by
  decide +kernel

/-- A batch of one record. -/
def batching : State := jobIs id { Job.zero with batch := true, phase := .records, b := { (decodeB []) with nrec := 1, repl := false } }

theorem test_ingest : (batching.pipe.jobAt 5 .records).isSome = true ∧ batching.pipe.recOf 0 5 = none ∧
    ((batching.pipe.jobs.get? 5).map (fun jb => batching.pipe.mayRecord 5 jb)) = some true ∧
    ((batching.pipe.part 0).sched.short 0 7) = false := by decide +kernel

theorem test_checkpoint : serving.pipe.ckptCut = none ∧ serving.pipe.ckptMs ≠ 0 ∧ serving.pipe.pair.isSome = true ∧
    serving.pipe.maintMay 15 3 0 = true ∧ (∀ q ∈ serving.pipe.parts, q.recs = []) := by decide +kernel

theorem test_ckpt : let p := { serving.pipe with ckptCut := some (serving.pipe.cut 7) }
    p.ckptCut.isSome = true ∧ ∀ k, k < 16 → (p.flash k).progs = [] := by decide +kernel

theorem test_lock_queue : let s := partIs (fun q => { q with lockQueue := [(9, 0)] })
    ((s.pipe.part 0).lockQueue.findSome? (fun y => s.pipe.tryLock 0 y.1)).isSome = true := by decide +kernel

theorem test_retry : let s := partIs (fun q => { q with stampRetry := [⟨0, 0, 0, 0, 0⟩] })
    (s.pipe.part 0).stampRetry = [⟨0, 0, 0, 0, 0⟩] ∧ s.pipe.poison = [] ∧ s.pipe.pagesHere (s.pipe.pieceSpan 0 0 0) = true := by decide +kernel

theorem test_retire : let c : PieceComp := { idx := 1, cluster := 0, graph := false, part := 0, pc := 0, old := 0, new := 64, step := 6, readers := [] }
    ((partIs (fun q => { q with comps := [c] })).pipe.part 0).comps.find? (fun c => c.step == 6 && c.readers.isEmpty) = some c := by decide +kernel

/-! ## Pages and flash -/

/-- The flash of partition 0 with one open page extent. -/
def ext0 : Extent := { Extent.fresh 0 with st := .open_, role := .page, fill := 16 }
def flashIs (f : FlashPart → FlashPart) : State := partIs (fun q => { q with flash := f { FlashPart.reset with next := 4, exts := [(0, ext0)], openPage := some 0 } })

theorem test_page_in : let s := flashIs (fun f => { f with reads := [.page (.gen 0) false] })
    let p := s.pipe.setTier (.gen 0) { TierEnt.none_ with st := .in_, loc := some (0, 0) }
    (p.flash 0).reads[0]? = some (.page (.gen 0) false) ∧ (p.tier (.gen 0)).st = .in_ ∧ (p.tier (.gen 0)).loc = some (0, 0) ∧
    (p.flash 0).okLoc 0 15 = true ∧ (p.flash 0).okLoc 0 16 = false := by decide +kernel

theorem test_vector_read : let s := jobIs (fun p => p.modFlash 0 (fun f => { f with reads := [.vector 5 0 0 0 1] })) { Job.zero with phase := .reranking }
    (s.pipe.flash 0).reads[0]? = some (.vector 5 0 0 0 1) ∧ ((s.pipe.jobs.get? 5).map (·.phase)) = some .reranking ∧
    ((s.pipe.jobs.get? 5).bind s.pipe.idxOf).isSome = true := by decide +kernel

theorem test_write_back : let s := flashIs (fun f => { f with progs := [.page (.gen 0)] })
    let p := s.pipe.setTier (.gen 0) { TierEnt.none_ with st := .out, loc := none }
    (p.tier (.gen 0)).st = .out ∧ (p.tier (.gen 0)).loc = none ∧
    ((p.flash 0).progs.find? (fun g => match g with | .page _ => true | _ => false)) = some (.page (.gen 0)) := by decide +kernel

theorem test_media : let s := flashIs (fun f => { f with progs := [.data 0 15 1], erases := [0] })
    (s.pipe.part 0).flashIdle = false ∧ (s.pipe.flash 0).firstProg = some (0, unitPos ext0 15) ∧ (s.pipe.flash 0).erases = [0] ∧
    ((s.pipe.flash 0).remap 0 (unitPos ext0 15)).isSome = true ∧ s.pipe.maintMay 0 6 0 = true ∧ s.pipe.maintMay 0 4 0 = true := by decide +kernel

def spent : FlashPart :=
  { FlashPart.reset with next := 1, exts := [(0, ext0)], openPage := some 0, progs := [.data 0 0 1], sparesUsed := List.replicate 64 48 }

theorem test_media_full : let f := spent
    f.firstProg = some (0, unitPos ext0 0) ∧ (f.remap 0 (unitPos ext0 0)).isNone = true ∧ f.pickFree = none := by decide +kernel

theorem test_extents : let f := (flashIs (fun f => { f with exts := [(0, { ext0 with st := .retiring }), (1, { ext0 with st := .sealed, fill := 0 })] })).pipe.flash 0
    (f.ext 0).st = .retiring ∧ (f.ext 0).readers = [] ∧ f.erases.contains 0 = false ∧ f.maint = [] ∧ (f.ext 1).st = .sealed ∧
    (f.ext 1).role ≠ .log ∧ (f.ext 1).fill = 0 ∧ (f.ext 1).live = 0 ∧ 1 < f.next ∧ serving.pipe.ecpct ≠ 0 := by decide +kernel

/-! ## The fabric -/

/-- Port 0, link 0 up, and connection 0, whose peer is itself. -/
def connCfg0 : ConnCfg := { conn0.cfg with pport := 0xB8D4, sport := 0xB8D4, pip := 1 }
def upLink : FabLink := { FabLink.reset with up := true, cfg := { FabLink.reset.cfg with ipv4 := 1 } }
def peers (c : Conn) : State :=
  { linkIs upLink with fab := { (linkIs upLink).fab with conns := [(0, c)] } }
def frameOf (s : State) : List Byte := (s.out.findSome? (fun o => match o with | .frame _ _ b => some b | _ => none)).getD []
def ackFrame : List Byte := frameOf ((peers (Conn.fresh connCfg0)).ctl 0 2 0 0 0)

theorem test_ack_frame : let s := peers (Conn.fresh connCfg0)
    s.quiet = false ∧ (s.fab.link 0).up = true ∧ otherFrame (s.fab.link 0).cfg ackFrame = false ∧
    (match (s.fab.receive 0 ackFrame).2 with | .bft n h _ => n == 0 && h.typ == 2 | _ => false) = true := by decide +kernel

theorem test_bad_frame : (match ((peers (Conn.fresh connCfg0)).fab.receive 0 []).2 with | .bad => true | _ => false) = true ∧
    otherFrame ((peers (Conn.fresh connCfg0)).fab.link 0).cfg [] = false := by decide +kernel

/-- A connection with credit, a message of the package to start, and a WRITE staged for a region. -/
def msg0 : PkgMsg := { write := false, final := false, mkind := 1, rkey := 0, roff := 0, payload := [1#8], act := 0, part := 0, purpose := .message }
def credited : Conn := { Conn.fresh connCfg0 with mlim := 1, blim := 64, pkg := [msg0], ackOwed := true }

theorem test_sending : let s := peers credited
    s.fab.conns.get? 0 = some credited ∧ credited.error = none ∧ credited.sendCredit = true ∧ s.flush.state = .idle ∧
    ((s.pipe.part (connHome 0)).sched.shortIn s.mer.now credited.cfg.act 4) = false ∧ credited.ackOwed = true ∧
    (Conn.fresh connCfg0).pkg = [] ∧ (Conn.fresh connCfg0).cfg.sloc = false ∧
    (workEntry (List.replicate 64 0#8) [] 0 (connHome 0)).1.payload = [] ∧
    ({ Conn.fresh connCfg0 with spidx := 1 } : Conn).sendLeft ≠ 0 := by decide +kernel

theorem test_turn : let c := (credited.start msg0 none).1
    ((peers c).fab.turnOf 0) = some 0 ∧ ((peers c).fab.link 0).up = true := by decide +kernel

/-- A staged WRITE of one byte, a region that takes it, and none. -/
def write0 : RxPkt :=
  { psn := 0, msn := 0, write := true, final := false, first := true, last := true, mkind := 0, mlen := 1, moff := 0, rkey := 0, roff := 0,
    payload := [1#8], placed := false }
def staged : Conn := { Conn.fresh connCfg0 with staged := [write0] }
def region0 : Region := { used := true, tag := 0, pd := 0, space := 0, remoteWrite := true, base := 0, len := 1 }

theorem test_place : staged.staged.find? staged.placeable = some write0 ∧ (peers staged).fab.check staged write0 [] = some .key ∧
    ({ (peers staged).fab with regions := [(0, region0)] } : Fabric).check staged write0 [] = none ∧
    ({ (peers staged).fab with regions := [(0, { region0 with len := 0 })] } : Fabric).check staged write0 [] = some .bounds := by
  decide +kernel

/-- The trap of an MTILE whose descriptor lies outside the kernel window; and the registers of a thread. -/
theorem test_mtile_outside : CtxOn inKernel 0 0 ∧ (inKernel.pipe.core 0).inKernel 0 = true ∧
    ((ctxOf inKernel 0 0).reg 0).toNat / 64 * 64 % 2 ^ 25 < 0x1400000 := by decide +kernel

theorem test_thread_registers : Thread.idle.g.length = 16 ∧ Thread.idle.v.length = 8 := by decide +kernel

/-! ## Encodings of the spec's tables -/

/-- R153: MTILE with SD = s3 and SA = s5, MWAIT with SA = s5, and the reserved array opcode 0x64. -/
theorem test_array_words : decodeArray 0 0 0b001010001101100000 = some (.mtile 0 0 3 5) ∧
    decodeArray 0 0 0b001010000001100001 = some (.mwait 0 0 5) ∧ decodeArray 0 0 0x64 = some (.coreScalar 0 0 .reserved) ∧
    decodeArray 0 0 0x70 = none := by decide

/-- R368: STATE 2 (HBM) with DIRTY, HOME 5, PC 9, FRAME 3 and a flash copy; the reserved STATE 7 decodes as UNMAPPED. -/
theorem test_tier_entry : let e : TierEnt := { TierEnt.none_ with st := .hbm, dirty := true, home := 5, pc := 9, frame := 3, loc := some (7, 11) }
    decodeTier true e.bytes = e ∧ (decodeTier true (7#8 :: List.replicate 15 0#8)).st = .unmapped := by decide +kernel

/-- R403: an extent map entry with one remap. -/
theorem test_extent_entry : let x : Extent := { Extent.fresh 3 with st := .sealed, role := .page, fill := 96768, live := 16, pec := 9,
                                                                     remaps := [some (5, 700), none, none] }
    Extent.ofBytes x.bytes = x := by decide +kernel

/-! ## Writes, queues, objects and pages -/

/-- Writes that are no register word (R666): a misaligned one at no doorbell, and a word and a misaligned write at a doorbell. -/
theorem test_short_writes : (0xA002 % 4 ≠ 0 ∧ bellsAt 0 0xA002 4 = []) ∧ bellsAt 0 0x10000 4 = [some 0] ∧
    bellsAt 0 0x9004 8 = [none] ∧ 0x9004 % 8 ≠ 0 ∧ bellsAt 0 0x1F000 1 ≠ [] := by decide +kernel

/-- A queue on the wheel whose eligibility time has come holds the counter (R53, R470). -/
theorem test_owed_wheel : let s := { partIs (fun q => { q with sched := { q.sched with wheel := [(0, [0])] } }) with mer := locked }
    s.wheelDue = true ∧ s.owed = 6 ∧ Calm s ∧ s.pipe.fenced 0 = false := by decide +kernel

theorem test_flash_found : ∀ n ∈ [64, 32, 16], (FlashFound.mk 0 n [] []).luns ∈ [64, 32, 16] := by decide

/-- Before DP_ENABLE a command on an index object answers NOT_ENABLED on MBG too. -/
theorem test_not_enabled : let s := { serving with coel := { serving.coel with dpen := false } }
    (gateObj s (reqOf 0 0x0401 [])).enabled = true ∧ s.coel.dpen = false ∧ servedBy s 0 0x0401 [] gateObj = false ∧
    servedBy s 0 0x0402 [] gateG = true := by decide +kernel

/-- Entries that each queue command finds under its GEN, and one under a later GEN; of every kind, and with jobs outstanding. -/
theorem test_queue_entries : let at0 := fun (e : AlmEntry) => ((queueIs e).pipe.touchQueue 0).queue 0
    ((reqOf 1 0x0201 []).gen = 0 ∧ (reqOf 1 0x0201 [(35, [1#8])]).b 35 = 1 ∧ (reqOf 1 0x0201 []).b 35 ≠ 1) ∧
    (∀ st ∈ [QState.free, .enabled, .paused, .draining], ∀ kd ∈ [QKind.qsub, .isub, .comp, .frecv], ∀ n ∈ [0, 1],
      (at0 { AlmEntry.zero with state := st, kind := kd, outst := n }).state = st ∧
      (at0 { AlmEntry.zero with state := st, kind := kd, outst := n }).kind = kd ∧
      (at0 { AlmEntry.zero with state := st, kind := kd, outst := n }).outst = n ∧
      (at0 { AlmEntry.zero with state := st, kind := kd, outst := n }).gen = 0) ∧
    (at0 { AlmEntry.zero with gen := 1 }).gen ≠ (reqOf 1 0x0201 []).gen ∧
    servedBy (queueIs AlmEntry.zero) 1 0x0203 [] (gateQ true) = true := by decide +kernel
/-- What QRY_ABORT (R125) can find under slot 0 and TAG 0: a query in flight, a batch past its first effect and one before, a fetched
descriptor of that TAG or of another, a slot not fetched yet with room in the list of aborts and with none, and nothing. -/
def sub1 (fs : List Fetched) : AlmEntry := { AlmEntry.zero with state := .enabled, pidx := 1, fetched := fs }
def fetched0 (d : List Byte) : Fetched := { slot := 0, slots := 1, dim := 0, desc := d, data := [], records := [], aborted := false }
def flying (jb : Job) : State := pipeIs (fun p => { p.setQueue 0 AlmEntry.zero with jobs := [(5, jb)] })
def abortsAre (n : Nat) : State := let s := queueIs (sub1 [])
  { s with pipe := s.pipe.modPart 0 (fun y => { y with alm := { y.alm with aborts := List.replicate n (9, 9, 9) } }) }

theorem test_abort : let found := fun (jb : Job) =>
      (flying jb).pipe.jobs.find? (fun j => j.2.queue == 0 && j.2.slot == 0 && j.2.peer.isNone && j.2.tag == 0)
    let slot := fun (s : State) => let e := s.pipe.queue 0
      (s.pipe.jobs.isEmpty, e.isSub, e.state, e.fetched.find? (fun f => f.slot == 0 && !f.aborted))
    (∀ jb ∈ [Job.zero, { Job.zero with batch := true, counted := true }, { Job.zero with batch := true }], found jb = some (5, jb)) ∧
    slot (queueIs (sub1 [fetched0 []])) = (true, true, .enabled, some (fetched0 [])) ∧ (sub1 []).tagOf [] = 0 ∧
    (sub1 []).tagOf (List.replicate 128 1#8) ≠ 0 ∧
    (∀ n ∈ [15, 16], slot (abortsAre n) = (true, true, .enabled, none) ∧ ((abortsAre n).pipe.part 0).alm.aborts.length = n ∧
      (let e := (abortsAre n).pipe.queue 0
       0 < e.size ∧ (0 + e.size - e.cidx % e.size) % e.size < e.occupied ∧ e.fetchedSlots ≤ (0 + e.size - e.cidx % e.size) % e.size)) ∧
    (queueIs AlmEntry.zero).pipe.queue 0 = AlmEntry.zero ∧ AlmEntry.zero.occupied = 0 ∧
    servedBy (queueIs (sub1 [])) 1 0x0208 [] (gateQ false) = true := by
  decide +kernel

/-- The gates of the commands on indexes and programs, and the limits of their numbers. -/
theorem test_served_objects : (∀ op ∈ [0x0401, 0x0409, 0x040A, 0x0501, 0x0503], servedBy serving 0 op [] gateObj = true) ∧
    (∀ op ∈ [0x0402, 0x0403, 0x0405, 0x0406, 0x0502], servedBy serving 0 op [] gateG = true) ∧
    (reqOf 0 0x0401 [(32, [0#8, 1#8])]).h 32 = 256 ∧ (reqOf 0 0x0409 [(34, [0#8, 0x10#8])]).h 34 = 4096 ∧
    (reqOf 0 0x040A [(32, [64#8])]).h 32 = 64 ∧ (reqOf 0 0x0501 [(32, [1#8])]).b 32 = 1 ∧ (reqOf 0 0x0501 [(32, [16#8])]).b 32 = 16 ∧
    (reqOf 0 0x0501 []).buffer none 0 = some [] ∧ (reqOf 0 0x0501 [(12, [8#8])]).hlen = 8 ∧
    (reqOf 0 0x0501 [(12, [8#8])]).buffer none 8 = none ∧ (reqOf 0 0x0501 [(12, [8#8])]).buffer (some []) 8 ≠ none := by decide +kernel

/-- The ranges of an index, a table and a directory that are there, and a FLT_EDIT that waits for its requests. -/
def editing : State := { invoking with coel := { invoking.coel with
  running := [(1, { req := reqOf 0 0x0409 [], late := false, begun := true, pos := 1, tally := 0 })] } }

theorem test_ranges : serving.pipe.rangesOpen (serving.pipe.coarseRanges 0) = true ∧
    serving.pipe.rangesOpen [(serving.pipe.idxCopy 0 0).listRange] = true ∧
    serving.pipe.rangesOpen (serving.pipe.tabRanges (serving.pipe.idxCopy 0 0)) = true ∧ serving.pipe.rangesOpen [(0, 64)] = true ∧
    serving.pipe.index 0 = none ∧ invoking.pipe.index 1 = some ixZero ∧
    invoking.pipe.rangesOpen [ixZero.listRange] = true ∧ invoking.pipe.rangesOpen (invoking.pipe.tabRanges ixZero) = true ∧
    invoking.pipe.rangesOpen ([0, 1].flatMap ixZero.dirRanges) = true ∧ (invoking.pipe.editPlan ixZero [0, 1]).2 = [] ∧
    editing.gate (reqOf 0 0x0409 []) true (gateObj editing (reqOf 0 0x0409 [])) = none ∧ editing.serves = true ∧
    editing.pipe.inFlight (4294967296 + 3) = false := by decide +kernel

/-- Pages that commands on tiers name: UNMAPPED and GENERAL with a table of 16 frames, of a bank, and in HBM. -/
def pagesIs : State := pipeIs (fun p => { p with tables := [(0, (0, (List.range 16).map (fun i => (0, 4100 + i))))] }.setTier (.gen 1)
  { TierEnt.none_ with st := .hbm, frame := 4000 })
def pagesReq (op : Nat) : Request := reqOf 0 op [(40, [2#8])]
def bankReq (op : Nat) : Request := reqOf 0 op [(32, leBytes 8 (bankAddr 0 0 65536)), (40, [1#8])]

theorem test_pages : pagesNamed pagesIs.pipe (pagesReq 0x0601).pages = [.gen 0, .gen 1] ∧
    pagesNamed pagesIs.pipe (bankReq 0x0601).pages = [.bank 0 0 1] ∧ (pagesIs.pipe.tier (.gen 0)).st = .unmapped ∧
    (pagesIs.pipe.tier (.gen 1)).st = .hbm ∧ (pagesIs.pipe.tier (.gen 1)).plate = false ∧ iaddr true 65544 = .general 65544 ∧
    65544 % 65536 + 8 ≤ 65536 ∧ iaddr true 8 = .general 8 ∧ pagesIs.pipe.iasReady 65544 8 = true ∧ pagesIs.pipe.poison = [] ∧
    attrPlate 0xFB = false := by decide +kernel

theorem test_may_map : mayMap pagesIs.pipe 0 (.gen 0) ∧ mayMap pagesIs.pipe 0 (.gen 1) ∧ mayMap pagesIs.pipe 0 (.bank 0 0 1) ∧
    untouched pagesIs.pipe (.bank 0 0 1) := by
  simp only [mayMap, untouched]
  decide +kernel

theorem test_ample_pages : Ample pagesIs (pagesIs.pipe.homesOf (pagesReq 0x0601).pages ++ [0]) ∧
    Ample pagesIs (pagesIs.pipe.homesOf (bankReq 0x0601).pages) := by decide +kernel

/-- The doorbells that wait in partition 0. -/
def bellsAre (bs : List (Nat × Nat × Option (List Byte))) : List (Nat × Nat × Option (List Byte)) :=
  ((partIs (fun q => { q with alm := { q.alm with bells := bs } })).pipe.part 0).alm.bells

/-- A doorbell behind others: one for the same queue, one for another, and a full list of them; and an entry that IAS memory holds. -/
theorem test_bells_wait :
    (bellsAre [(5, 1, none)]).any (fun b => b.1 == 5) = true ∧ (bellsAre [(5, 1, none)]).any (fun b => b.1 == 6) = false ∧
    (bellsAre (List.replicate 4096 (5, 1, none))).length = 4096 ∧ bellsAre [] = [] := by decide +kernel

theorem test_ias_ring : let s := fun (st : TierSt) => { queueIs { AlmEntry.zero with state := .enabled, kind := .comp, ias := true, pidx := 3 } with
      pipe := (queueIs { AlmEntry.zero with state := .enabled, kind := .comp, ias := true, pidx := 3 }).pipe.setTier (.gen 0) { TierEnt.none_ with st := st } }
    let e := fun (st : TierSt) => ((s st).pipe.touchQueue 0).queue 0
    (∀ st ∈ [TierSt.hbm, .flash], (e st).kind = .comp ∧ (e st).ias = true ∧ 4 % (e st).size ≠ (e st).pidx % (e st).size) ∧
    ((s .hbm).pipe.touchQueue 0).iasReady ((e .hbm).slotAddr 4) 64 = true ∧
    ((s .flash).pipe.touchQueue 0).iasReady ((e .flash).slotAddr 4) 64 = false := by decide +kernel

/-- A submission ring in the index address space whose page is there, and one whose page is away. -/
theorem test_ias_fetch : let s := fun (st : TierSt) => { queueIs { AlmEntry.zero with state := .enabled, ias := true, pidx := 1 } with
      pipe := (queueIs { AlmEntry.zero with state := .enabled, ias := true, pidx := 1 }).pipe.setTier (.gen 0) { TierEnt.none_ with st := st } }
    ((s .hbm).coel.dpen = true ∧ ∀ st ∈ [TierSt.hbm, .flash],
      let p1 := ((s st).pipe.rawErrors []).touchQueue 0
      let e := p1.queue 0
      e.state = .enabled ∧ e.kind ≠ .comp ∧ e.ias = true ∧ e.fetchedSlots < e.occupied ∧ p1.poison = [] ∧ p1.weak = [] ∧
      p1.ringHere e e.nextSlot (e.occupied - e.fetchedSlots) = (st == .hbm)) := by decide +kernel

/-- A write-back that finds a place. -/
theorem test_place_page : let s := flashIs (fun f => { f with progs := [.page (.gen 0)] })
    (s.pipe.flashPut 0 .page (.page (.gen 0) none) (s.pipe.hbm.readN (hbmKey 0 0 0) 65536) (fun _ _ => none)).2.isSome = true := by decide +kernel

/-- An erase that a read of one of its LUNs holds; a block with no spare; and the compaction of an extent with one live page. -/
theorem test_media_waits : let f := fun (rs : List FlashRead) => flashIs (fun f => { f with erases := [1], reads := rs })
    (f [.vector 5 0 0 0 1]).pipe.suspended 0 ≠ [] ∧ (f []).pipe.suspended 0 = [] ∧
    ((f []).pipe.flash 0).wearPair 1000 = none ∧ (spent.remap 0 0).isNone = true := by decide +kernel

theorem test_compacts : let g : UnitTag := .page (.gen 0) none
    let s := flashIs (fun f => { f with
      exts := [(0, ext0), (1, { ext0 with st := .sealed, role := .page, fill := 64, live := 16 })],
      tags := (List.range 16).foldl (fun t i => t.set (tagKey 1 i) g) f.tags })
    let p := s.pipe.setTier (.gen 0) { TierEnt.none_ with st := .flash, loc := some (1, 0) }
    p.ecpct ≠ 0 ∧ ((p.flash 0).ext 1).live * 100 ≤ min p.ecpct 90 * ((p.flash 0).ext 1).fill ∧ p.maintMay 0 2 0 = true ∧
    (let p1 := p.modFlash 0 (fun f => f.modExt 1 (fun x => { x with st := .moving }))
     p1.liveUnits 0 1 = [(0, g, 16)] ∧ ((p1.liveUnits 0 1).foldl (Pipe.copyUnit 0 1) (p1, [], 0)).2.1.length = 1) := by decide +kernel

end Sys2Proof.Tests
end

section
/-!
PROOF. The order of epoch publications (R80): the scan of the Ephemeris for the entry to perform next is a fold, and what
it holds after the slots read so far is the first due entry of those slots.
-/
namespace Sys2Proof.Machine

/-! ## One slot of the scan -/

/-- One slot of the scan that `Meridian.nextDue` makes: what it holds after reading `p`. -/
def Meridian.keepFirst (m : Meridian) (best : Option (Nat × EphEntry)) (p : Nat × EphEntry) : Option (Nat × EphEntry) :=
  if m.entryDue p.2 then
    match best with
    | none => some p
    | some b => if p.2.time < b.2.time then some p else some b
  else best

theorem Meridian.nextDue_eq_foldl (m : Meridian) : m.nextDue = m.eph.foldl m.keepFirst none := rfl

section
variable {m : Meridian} {p b : Nat × EphEntry}

theorem Meridian.keepFirst_of_not_due (best : Option (Nat × EphEntry)) (hp : m.entryDue p.2 = false) :
    m.keepFirst best p = best := by
  simp [keepFirst, hp]

theorem Meridian.keepFirst_none_of_due (hp : m.entryDue p.2 = true) : m.keepFirst none p = some p := if_pos hp

theorem Meridian.keepFirst_of_earlier (hp : m.entryDue p.2 = true) (h : p.2.time < b.2.time) :
    m.keepFirst (some b) p = some p := by
  simp [keepFirst, hp, h]

theorem Meridian.keepFirst_of_not_earlier (h : b.2.time ≤ p.2.time) : m.keepFirst (some b) p = some b := by
  simp [keepFirst, Nat.not_lt.mpr h]

end

/-! ## The first due entry of a list of slots -/

/-- `b` goes before or with `q` in the order of R80: TIME first, then the slot. -/
def publishLe (b q : Nat × EphEntry) : Prop := b.2.time < q.2.time ∨ b.2.time = q.2.time ∧ b.1 ≤ q.1

theorem publishLe_refl (b : Nat × EphEntry) : publishLe b b := .inr ⟨rfl, Nat.le_refl _⟩

/-- An entry of a lower TIME goes before all that the entry it displaces goes before. -/
theorem publishLe_of_earlier {p b q : Nat × EphEntry} (h : p.2.time < b.2.time) (hb : publishLe b q) : publishLe p q := by
  unfold publishLe at *
  omega

theorem publishLe_of_slot_lt {b p : Nat × EphEntry} (ht : b.2.time ≤ p.2.time) (hs : b.1 < p.1) : publishLe b p := by
  unfold publishLe
  omega

/-- What the scan may hold after the slots `l`: nothing when none of them is due, and otherwise a due one that goes first. -/
def Meridian.FirstDue (m : Meridian) (l : Tbl EphEntry) : Option (Nat × EphEntry) → Prop
  | none => ∀ q ∈ l, m.entryDue q.2 = false
  | some b => b ∈ l ∧ m.entryDue b.2 = true ∧ ∀ q ∈ l, m.entryDue q.2 = true → publishLe b q

/-- A fact about every slot of a list, and about one slot more. -/
theorem forall_mem_concat {P : Nat × EphEntry → Prop} {l : Tbl EphEntry} {p : Nat × EphEntry} (hl : ∀ q ∈ l, P q) (hp : P p) :
    ∀ q ∈ l ++ [p], P q :=
  List.forall_mem_append.mpr ⟨hl, List.forall_mem_singleton.mpr hp⟩

/-- Reading a slot above all slots read so far keeps the scan on the first due entry: the slot displaces the entry held only
when its TIME is lower, so that of equal TIMEs the lower slot stays. -/
theorem Meridian.firstDue_keepFirst {m : Meridian} {l : Tbl EphEntry} {best : Option (Nat × EphEntry)} {p : Nat × EphEntry}
    (hl : m.FirstDue l best) (hslot : ∀ q ∈ l, q.1 < p.1) : m.FirstDue (l ++ [p]) (m.keepFirst best p) := by
  cases hp : m.entryDue p.2 <;> cases best
  case false.none =>
    rw [keepFirst_of_not_due none hp]
    exact forall_mem_concat hl hp
  case false.some b =>
    obtain ⟨hmem, hb, hfirst⟩ := hl
    rw [keepFirst_of_not_due (some b) hp]
    exact ⟨List.mem_append_left _ hmem, hb, forall_mem_concat hfirst (by simp [hp])⟩
  case true.none =>
    rw [keepFirst_none_of_due hp]
    exact ⟨List.mem_concat_self, hp, forall_mem_concat (fun q hq hdue => by simp [hl q hq] at hdue) fun _ => publishLe_refl p⟩
  case true.some b =>
    obtain ⟨hmem, hb, hfirst⟩ := hl
    obtain hlt | hle := Nat.lt_or_ge p.2.time b.2.time
    · rw [keepFirst_of_earlier hp hlt]
      exact ⟨List.mem_concat_self, hp,
        forall_mem_concat (fun q hq hdue => publishLe_of_earlier hlt (hfirst q hq hdue)) fun _ => publishLe_refl p⟩
    · rw [keepFirst_of_not_earlier hle]
      exact ⟨List.mem_append_left _ hmem, hb, forall_mem_concat hfirst fun _ => publishLe_of_slot_lt hle (hslot b hmem)⟩

/-- From the first due entry of the slots already read, the scan of the rest ends on the first due entry of all. -/
theorem Meridian.firstDue_foldl {m : Meridian} {rest : Tbl EphEntry} : ∀ {l : Tbl EphEntry} {best : Option (Nat × EphEntry)},
    m.FirstDue l best → (l ++ rest).Pairwise (fun a b => a.1 < b.1) →
      m.FirstDue (l ++ rest) (rest.foldl m.keepFirst best) := by
  induction rest with
  | nil =>
    intro l best hl _
    rw [List.append_nil]
    exact hl
  | cons p rest ih =>
    intro l best hl hslots
    obtain ⟨-, -, hbelow⟩ := List.pairwise_append.mp hslots
    have hstep : m.FirstDue (l ++ [p]) (m.keepFirst best p) :=
      firstDue_keepFirst hl fun q hq => hbelow q hq p List.mem_cons_self
    rw [List.append_cons] at hslots ⊢
    exact ih hstep hslots

theorem Meridian.firstDue_nil (m : Meridian) : m.FirstDue [] none := fun _ hq => absurd hq List.not_mem_nil

theorem Meridian.firstDue_nextDue {m : Meridian} (h : m.eph.Pairwise fun a b => a.1 < b.1) : m.FirstDue m.eph m.nextDue :=
  m.nextDue_eq_foldl ▸ firstDue_foldl m.firstDue_nil h

/-- Settles O33: the scan ends on the first due entry of all slots. -/
theorem publicationOrder : Obligations.PublicationOrder := by
  intro m i e hslots hnext
  have hfirst : m.FirstDue m.eph (some (i, e)) := hnext ▸ Meridian.firstDue_nextDue hslots
  obtain ⟨hmem, hdue, hle⟩ := hfirst
  exact ⟨hmem, hdue, fun j f => hle (j, f)⟩

end Sys2Proof.Machine
end

section
/-!
PROOF. The scalar registers of a context (R136): what a register reads after a write to it and to another one, and when a
context starts.
-/
namespace Sys2Proof.Machine

/-! ## Reading a list in which one entry is replaced -/

theorem getD_setNth_same {α : Type} {l : List α} {i : Nat} (x d : α) (hi : i < l.length) : (setNth l i x).getD i d = x := by
  rw [List.getD_eq_getElem?_getD, setNth, getElem?_modNth, if_pos rfl, List.getElem?_eq_getElem hi]
  rfl

theorem getD_setNth_of_ne {α : Type} (l : List α) {i j : Nat} (x d : α) (hne : i ≠ j) :
    (setNth l i x).getD j d = l.getD j d := by
  rw [List.getD_eq_getElem?_getD, setNth, getElem?_modNth, if_neg hne, List.getD_eq_getElem?_getD]

/-! ## Register s0 -/

@[simp] theorem CoreCtx.reg_zero (c : CoreCtx) : c.reg 0 = 0 := rfl

@[simp] theorem CoreCtx.setReg_zero (c : CoreCtx) (v : W64) : c.setReg 0 v = c := rfl

/-! ## Registers s1 to s31 -/

theorem CoreCtx.reg_of_pos (c : CoreCtx) {m : Nat} (hm : 0 < m) : c.reg m = c.s.getD m 0#64 := if_neg (Nat.ne_of_gt hm)

theorem CoreCtx.setReg_of_pos (c : CoreCtx) {n : Nat} (v : W64) (hn : 0 < n) :
    c.setReg n v = { c with s := setNth c.s n v } := if_neg (Nat.ne_of_gt hn)

theorem CoreCtx.reg_setReg_same (c : CoreCtx) {n : Nat} (v : W64) (hn : 0 < n) (hlen : n < c.s.length) :
    (c.setReg n v).reg n = v := by
  rw [reg_of_pos _ hn, setReg_of_pos c v hn]
  exact getD_setNth_same v 0#64 hlen

/-- A write leaves every other register; this needs no length, so it also speaks of numbers that no register has. -/
theorem CoreCtx.reg_setReg_of_ne (c : CoreCtx) {n m : Nat} (v : W64) (hne : m ≠ n) : (c.setReg n v).reg m = c.reg m := by
  obtain rfl | hn := n.eq_zero_or_pos
  · rw [setReg_zero]
  obtain rfl | hm := m.eq_zero_or_pos
  · rw [reg_zero, reg_zero]
  · rw [reg_of_pos _ hm, reg_of_pos c hm, setReg_of_pos c v hn]
    exact getD_setNth_of_ne c.s v 0#64 hne.symm

/-! ## The start of a context -/

theorem CoreCtx.reg_start (n : Nat) : CoreCtx.start.reg n = 0 := by
  obtain rfl | hn := n.eq_zero_or_pos
  · exact reg_zero _
  · rw [reg_of_pos _ hn, List.getD_eq_getElem?_getD, CoreCtx.start, List.getElem?_replicate]
    split
    · rfl
    · rfl

/-- Settles O5: a write is read back at its own register, which the length of 32 makes one that exists. -/
theorem scalarRegisterZero : Obligations.ScalarRegisterZero := by
  refine ⟨CoreCtx.reg_zero, CoreCtx.setReg_zero, fun c n m v hlen hn hn32 => ?_, CoreCtx.reg_start⟩
  split
  case isTrue heq =>
    subst heq
    exact c.reg_setReg_same v hn (hlen ▸ hn32)
  case isFalse hne => exact c.reg_setReg_of_ne v hne

end Sys2Proof.Machine
end

section
/-!
PROOF. The threads of an NBU (R231): what a g or v register reads after a write to it and to another one, and that a change of
one thread leaves the others of its NBU.
-/
namespace Sys2Proof.Machine

/-! ## Register g0: the low four bits of the number are 0 -/

@[simp] theorem Thread.gr_zero (t : Thread) : t.gr 0 = 0 := rfl

@[simp] theorem Thread.gw_zero (t : Thread) (x : W64) : t.gw 0 x = t := rfl

theorem Thread.gr_of_mod_eq_zero (t : Thread) {n : Nat} (hn : n % 16 = 0) : t.gr n = 0 := if_pos hn

theorem Thread.gw_of_mod_eq_zero (t : Thread) {n : Nat} (x : W64) (hn : n % 16 = 0) : t.gw n x = t := if_pos hn

/-! ## Registers g1 to g15 -/

theorem Thread.gr_of_mod_ne_zero (t : Thread) {n : Nat} (hn : n % 16 ≠ 0) : t.gr n = t.g.getD (n % 16) 0 := if_neg hn

theorem Thread.gw_of_mod_ne_zero (t : Thread) {n : Nat} (x : W64) (hn : n % 16 ≠ 0) :
    t.gw n x = { t with g := t.g.set (n % 16) x } := if_neg hn

theorem Thread.gr_gw_same (t : Thread) {n : Nat} (x : W64) (hn : n % 16 ≠ 0) (hlen : n % 16 < t.g.length) :
    (t.gw n x).gr n = x := by
  rw [gr_of_mod_ne_zero _ hn, gw_of_mod_ne_zero t x hn, List.getD_eq_getElem?_getD, List.getElem?_set_self hlen]
  rfl

/-- A write leaves every register that its number does not name; this needs no length. -/
theorem Thread.gr_gw_of_ne (t : Thread) {n m : Nat} (x : W64) (hne : m % 16 ≠ n % 16) : (t.gw n x).gr m = t.gr m := by
  by_cases hn : n % 16 = 0
  · rw [gw_of_mod_eq_zero t x hn]
  by_cases hm : m % 16 = 0
  · rw [gr_of_mod_eq_zero _ hm, gr_of_mod_eq_zero t hm]
  · rw [gr_of_mod_ne_zero _ hm, gr_of_mod_ne_zero t hm, gw_of_mod_ne_zero t x hn, List.getD_eq_getElem?_getD,
      List.getElem?_set_ne hne.symm, List.getD_eq_getElem?_getD]

/-! ## Registers v0 to v7 -/

theorem Thread.vr_vw_same (t : Thread) {n : Nat} (x : BitVec 512) (hlen : n % 8 < t.v.length) : (t.vw n x).vr n = x := by
  rw [vr, vw, List.getD_eq_getElem?_getD, List.getElem?_set_self hlen]
  rfl

theorem Thread.vr_vw_of_ne (t : Thread) {n m : Nat} (x : BitVec 512) (hne : m % 8 ≠ n % 8) : (t.vw n x).vr m = t.vr m := by
  rw [vr, vw, List.getD_eq_getElem?_getD, List.getElem?_set_ne hne.symm, ← List.getD_eq_getElem?_getD, vr]

/-! ## A change of one partition, one NBU, one thread -/

theorem modNth_of_length_le {α : Type} {l : List α} {i : Nat} (f : α → α) (hi : l.length ≤ i) : modNth l i f = l := by
  refine List.ext_getElem? fun j => ?_
  rw [getElem?_modNth]
  split
  case isTrue heq => rw [← heq, List.getElem?_eq_none hi]; rfl
  case isFalse => rfl

theorem Pipe.modPart_of_length_le {p : Pipe} {k : Nat} (f : Part → Part) (hk : p.parts.length ≤ k) : p.modPart k f = p := by
  rw [modPart, modNth_of_length_le f hk]

theorem Pipe.part_modPart_same {p : Pipe} {k : Nat} (f : Part → Part) (hk : k < p.parts.length) :
    (p.modPart k f).part k = f (p.part k) := by
  rw [part, part, modPart, getElem?_modNth, if_pos rfl, List.getElem?_eq_getElem hk]
  rfl

/-- A partition that does not exist has no NBU to change. -/
theorem Pipe.modNbu_of_length_le {p : Pipe} {k : Nat} (pc : Nat) (f : Nbu → Nbu) (hk : p.parts.length ≤ k) :
    p.modNbu k pc f = p := modPart_of_length_le _ hk

theorem Pipe.nbu_modNbu_same {p : Pipe} {k : Nat} (pc : Nat) (f : Nbu → Nbu) (hk : k < p.parts.length) :
    (p.modNbu k pc f).nbu k pc = f (p.nbu k pc) := by
  rw [nbu, modNbu, part_modPart_same _ hk]
  exact getD_set_same _ pc _ _

theorem Pipe.thread_modThread_of_ne (p : Pipe) (k pc : Nat) {th other : Nat} (f : Thread → Thread) (hne : other ≠ th) :
    (p.modThread k pc th f).thread k pc other = p.thread k pc other := by
  obtain hk | hk := Nat.lt_or_ge k p.parts.length
  · rw [thread, modThread, nbu_modNbu_same pc _ hk, getElem?_modNth, if_neg hne.symm, thread]
  · rw [modThread, modNbu_of_length_le pc _ hk]

/-- Settles O15: register numbers below 16 (g) and below 8 (v) are their own low bits, and the lengths make the register
written one that exists. -/
theorem nbuRegisterZero : Obligations.NbuRegisterZero := by
  refine ⟨Thread.gr_zero, Thread.gw_zero, fun t n m x hlen hn hn16 hm16 => ?_, fun t n m x hlen hn8 hm8 => ?_,
    fun p k pc th other f hne => p.thread_modThread_of_ne k pc f hne⟩
  · split
    case isTrue heq =>
      subst heq
      exact t.gr_gw_same x (by omega) (by omega)
    case isFalse hne => exact t.gr_gw_of_ne x (by omega)
  · split
    case isTrue heq =>
      subst heq
      exact t.vr_vw_same x (by omega)
    case isFalse hne => exact t.vr_vw_of_ne x (by omega)

end Sys2Proof.Machine
end

section
/-!
PROOF. Visibility of an item to a read epoch (R292), as a comparison of epochs and as its negation.
-/
namespace Sys2Proof.Machine

theorem visible_eq_true_iff {birth death e : Nat} : visible birth death e = true ↔ birth ≤ e ∧ e < death := by
  rw [visible, Bool.and_eq_true, decide_eq_true_iff, decide_eq_true_iff]

/-- An item is hidden from an epoch when, if born by then, it is dead by then. -/
theorem visible_eq_false_iff {birth death e : Nat} : visible birth death e = false ↔ (birth ≤ e → death ≤ e) := by
  rw [← Bool.not_eq_true, visible_eq_true_iff, not_and, Nat.not_lt]

/-- Settles O23: an item that dies at its birth is dead as soon as it is born, and every death of 48 bits is at or before the
largest epoch. -/
theorem visibleBetween : Obligations.VisibleBetween := by
  refine ⟨fun _ _ _ => visible_eq_true_iff, fun _ _ => visible_eq_false_iff.2 id, fun birth death hdeath => ?_⟩
  have hdead : death ≤ 0xFFFFFFFFFFFF := Nat.le_of_lt_succ hdeath
  exact visible_eq_false_iff.2 fun _ => hdead

end Sys2Proof.Machine
end

section
/-!
PROOF. What the operations that rows share leave alone: the build, the queue of commands, the Meridian block, and how many
mailboxes and die-to-die links there are. One equation per operation, in the order in which the model defines them.
-/
namespace Sys2Proof.Machine

/-- The part of the state that most rows leave alone. -/
def State.frame (s : State) : Bool × List Instr × Meridian × Nat × Nat :=
  (s.variant64, s.pending, s.mer, s.mbx.length, s.d2d.length)

theorem frame_setPipe (s : State) (p : Pipe) : ({ s with pipe := p } : State).frame = s.frame := rfl

theorem Reacts.frame {s t : State} (h : Reacts s t) : t.frame = s.frame := by
  simp only [State.frame, h.variant64, h.pending, h.mer, h.boxes, h.d2d]

theorem Sends.frame {s t : State} (h : Sends s t) : t.frame = s.frame := h.reacts.frame

/-- A fold of an operation that keeps a frame keeps it. -/
theorem frame_foldl {α : Type} {f : State → α → State} (h : ∀ s x, (f s x).frame = s.frame) (l : List α) (s : State) :
    (l.foldl f s).frame = s.frame := by
  induction l generalizing s with
  | nil => rfl
  | cons x t ih => exact (ih _).trans (h s x)

/-- A choice between two operations that keep the frame keeps it. -/
theorem frame_ite {c : Prop} [Decidable c] {s t u : State} (ht : t.frame = s.frame) (hu : u.frame = s.frame) :
    (if c then t else u).frame = s.frame := by
  split
  · exact ht
  · exact hu

/-! ## What leaves the package, faults and fences -/

theorem frame_modMbx (s : State) (m : Nat) (f : Mailbox → Mailbox) : (s.modMbx m f).frame = s.frame := (sends_modMbx s m f).frame
theorem frame_hostWrite (s : State) (f a : Nat) (bs : List Byte) (r : Option Bool) : (s.hostWrite f a bs r).frame = s.frame :=
  (sends_hostWrite s f a bs r).frame
theorem frame_release (s : State) : s.release.frame = s.frame := (sends_release s).frame
theorem frame_event (s : State) (m code part : Nat) (c : Bool) (src : Nat) : (s.event m code part c src).frame = s.frame :=
  (sends_event s m code part c src).frame
theorem frame_eventAll (s : State) (code : Nat) : (s.eventAll code).frame = s.frame := (sends_eventAll s code).frame
theorem frame_result (s : State) (r : Request) (st : ResState) (status gen : Nat) : (s.result r st status gen).frame = s.frame :=
  (sends_result s r st status gen).frame
theorem frame_answer (s : State) (r : Request) (a : Answer) : (s.answer r a).frame = s.frame := (sends_answer s r a).frame
theorem frame_withFab (s : State) (r : Fabric × List FabEff) : (s.withFab r).frame = s.frame := (reacts_withFab s r).frame
theorem frame_fence (s : State) (k : Nat) (c : Option Nat) : (s.fence k c).frame = s.frame := (reacts_fence s k c).frame
theorem frame_raise (s : State) (srcs : List Nat) : (s.raise srcs).frame = s.frame := (reacts_raise s srcs).frame
theorem frame_settle (s : State) : s.settle.frame = s.frame := (reacts_settle s).frame
theorem frame_completeJob (s : State) (j : Nat) (t : Bool) : (s.completeJob j t).frame = s.frame := (reacts_completeJob s j t).frame
theorem frame_startFlush (s : State) (a : AfterFlush) : (s.startFlush a).frame = s.frame := (reacts_startFlush s a).frame

theorem frame_raise_settle (s : State) (srcs : List Nat) : (s.raise srcs).settle.frame = s.frame :=
  (frame_settle _).trans (frame_raise s srcs)

/-! ## Rows of the pipeline -/

theorem frame_onPipe (s : State) (f : Pipe → Pipe) : (s.onPipe f).frame = s.frame := (reacts_onPipe s f).frame

theorem frame_onCore (s : State) (k : Nat) (f : Pipe → Pipe) : (s.onCore k f).frame = s.frame :=
  frame_ite (frame_onPipe s f) rfl

theorem frame_onNbu (s : State) (f : Pipe → Pipe) : (s.onNbu f).frame = s.frame := frame_ite (frame_onPipe s f) rfl

theorem frame_onWalk (s : State) (w : Nat) (f : Pipe → Pipe) : (s.onWalk w f).frame = s.frame := by
  unfold State.onWalk
  split
  · exact frame_onCore s _ f
  · rfl

theorem frame_onFirmware (s : State) (f : Pipe → Pipe) : (s.onFirmware f).frame = s.frame := frame_ite (frame_onPipe s f) rfl

theorem frame_onObjects (s : State) (f : Pipe → Pipe) : (s.onObjects f).frame = s.frame := frame_ite (frame_onFirmware s f) rfl

theorem frame_onMedia (s : State) (alarm : BitVec 8) (f : Pipe → Pipe) : (s.onMedia alarm f).frame = s.frame :=
  frame_ite ((frame_settle _).trans rfl) (frame_onPipe s f)

theorem frame_onPower (s : State) (ok : Bool) (srcs : List Nat) (f : Power → Power) : (s.onPower ok srcs f).frame = s.frame :=
  frame_ite ((frame_raise_settle _ srcs).trans rfl) rfl

theorem frame_onFault (s : State) (ok : Bool) (srcs : List Nat) : (s.onFault ok srcs).frame = s.frame := frame_onPower s ok srcs _

theorem frame_replicate (s : State) (k n : Nat) (e : LogEnt) : (s.replicate k n e).frame = s.frame := by
  unfold State.replicate
  split <;> rfl

/-! ## Registers -/

theorem frame_doWrite {s : State} {f : State → State} (h : (f s).frame = s.frame) : (s.doWrite f).frame = s.frame :=
  frame_ite h rfl

theorem frame_doRead {s : State} {f : State → State} (off : Nat) (h : ∀ t, (f t).frame = t.frame) :
    (s.doRead off f).frame = s.frame := frame_ite ((h _).trans rfl) rfl

theorem frame_readPart (s : State) (base k : Nat) (f : Part → Part) : (s.readPart base k f).frame = s.frame :=
  frame_doRead _ fun _ => frame_ite rfl rfl

theorem frame_shortBell (s : State) (b : Option Nat) : (s.shortBell b).frame = s.frame := by
  unfold State.shortBell
  split
  · exact frame_onPipe s _
  · rfl

theorem frame_writeRW (s : State) (off : Nat) (v : W32) : (s.writeRW off v).frame = s.frame := by
  unfold State.writeRW
  split
  · refine frame_ite rfl ?_
    split
    case h_5 => rfl
    all_goals exact frame_modMbx s _ _
  · refine frame_ite rfl ?_
    split <;> rfl

/-! ## The fabric -/

theorem frame_onFab (s : State) (r : Fabric × List FabEff) : (s.onFab r).frame = s.frame :=
  (frame_settle _).trans (frame_withFab s r)

theorem frame_ctl (s : State) (n typ ncode npsn msn : Nat) : (s.ctl n typ ncode npsn msn).frame = s.frame := frame_withFab s _

theorem frame_dropLink (s : State) (n : Nat) : (s.dropLink n).frame = s.frame := frame_withFab s _

theorem frame_startEntry (s : State) (n : Nat) (c : Conn) (m : PkgMsg) (tag : Option Nat) (take : Conn → Conn) :
    (s.startEntry n c m tag take).frame = s.frame := frame_ite rfl (frame_onFab s _)

/-- What a taken message leaves, when it is taken. -/
def Taken.Frames (s : State) : Taken → Prop
  | .done u => u.frame = s.frame
  | .rnr => True
  | .bad _ => True

theorem Taken.frames_ite {c : Prop} [Decidable c] {s : State} {t u : Taken} (ht : t.Frames s) (hu : u.Frames s) :
    (if c then t else u).Frames s := by
  split
  · exact ht
  · exact hu

theorem frames_takeData (s : State) (n : Nat) (c : Conn) (msn mlen : Nat) (body : List Byte) (given : HostData) :
    (s.takeData n c msn mlen body given).Frames s := by
  have hput : ∀ (b g : Bool) (f k a : Nat) (bs : List Byte) (o : Option Bool) (s : State),
      (if b then s else if g then { s with pipe := s.pipe.iasPut k a bs } else s.hostWrite f a bs o).frame = s.frame :=
    fun b g f k a bs o s => frame_ite rfl (frame_ite rfl (frame_hostWrite s f a bs o))
  unfold State.takeData
  split
  · trivial
  · split
    · trivial
    · refine Taken.frames_ite trivial ?_
      extract_lets at_ slots
      clear_value slots
      cases slots with
      | none => trivial
      | some bytes =>
        dsimp only
        split
        · trivial
        · exact (frame_foldl (fun s _ => hput _ _ _ _ _ _ _ s) _ _).trans (frame_foldl (fun s _ => hput _ _ _ _ _ _ _ s) _ _)

theorem frames_takeQuery (s : State) (c : Conn) (mlen : Nat) (body : List Byte) : (s.takeQuery c mlen body).Frames s := by
  unfold State.takeQuery
  split
  · trivial
  · exact Taken.frames_ite trivial (Taken.frames_ite trivial rfl)

theorem frames_takeQctl (s : State) (n : Nat) (c : Conn) (body : List Byte) : (s.takeQctl n c body).Frames s :=
  Taken.frames_ite rfl (Taken.frames_ite trivial rfl)

theorem frames_takeMsg (s : State) (n : Nat) (c : Conn) (ps : List RxPkt) (slots : HostData) :
    (s.takeMsg n c ps slots).Frames s := by
  unfold State.takeMsg
  split
  · rfl
  · dsimp only
    split
    · exact frames_takeData s n c _ _ _ slots
    · exact frames_takeQuery s c _ _
    · rfl
    · exact frames_takeQctl s n c _
    all_goals rfl

theorem frame_deliverRun (n : Nat) (slots : HostData) (fuel : Nat) (s : State) :
    (s.deliverRun n slots fuel).frame = s.frame := by
  induction fuel generalizing s with
  | zero => rfl
  | succ fuel ih =>
    unfold State.deliverRun
    dsimp only
    split
    · rfl
    · rename_i c _
      refine frame_ite rfl ?_
      split
      · rfl
      · rename_i ps _
        have ht := frames_takeMsg { s with fab := s.fab.modConn n (fun c => c.advance 1024) } n c ps slots
        split
        · rename_i t heq
          rw [heq] at ht
          exact (ih _).trans ht
        · exact (frame_ctl _ _ _ _ _ _).trans rfl
        · exact (frame_withFab _ _).trans rfl

theorem frame_takeData1 (s : State) (n : Nat) (h : BftHdr) (pl : List Byte) (slots : HostData) :
    (s.takeData1 n h pl slots).frame = s.frame := by
  unfold State.takeData1
  split
  · rfl
  · split
    · split
      · exact frame_withFab s _
      · rfl
    · refine frame_ite rfl ?_
      split
      · exact frame_ctl s _ _ _ _ _
      · rfl
      · dsimp only
        rename_i c1 _
        have hrun := frame_deliverRun n slots 1024 { s with fab := { s.fab with conns := s.fab.conns.set n c1 } }
        split
        · exact hrun
        · exact (frame_ite rfl (frame_ite (frame_ctl _ _ _ _ _ _) (frame_ite (frame_ctl _ _ _ _ _ _) rfl))).trans hrun

theorem frame_rxFrame {s : State} {go : State → Nat → BftHdr → List Byte → State} (link : Nat) (frame : List Byte)
    (mine : BftHdr → Bool) (h : ∀ f n hd pl, (go { s with fab := f } n hd pl).frame = s.frame) :
    (s.rxFrame link frame mine go).frame = s.frame := by
  unfold State.rxFrame
  refine frame_ite rfl ?_
  dsimp only
  split
  · rfl
  · rfl
  · exact frame_ite ((frame_settle _).trans (h _ _ _ _)) rfl

theorem frame_rxSend (s : State) (link : Nat) (frame : List Byte) (slots : HostData) (kind : Nat) :
    (s.rxSend link frame slots kind).frame = s.frame :=
  frame_rxFrame _ _ _ fun _ _ _ _ => (frame_takeData1 _ _ _ _ _).trans rfl

theorem frame_rxQctl (s : State) (link : Nat) (frame : List Byte) (slots : HostData) (op : Nat) :
    (s.rxQctl link frame slots op).frame = s.frame :=
  frame_rxFrame _ _ _ fun _ _ _ _ => frame_ite rfl ((frame_takeData1 _ _ _ _ _).trans rfl)

theorem frame_rxCtl {s : State} {go : State → Nat → BftHdr → State} (link : Nat) (frame : List Byte) (mine : BftHdr → Bool)
    (h : ∀ t n hd, (go t n hd).frame = t.frame) : (s.rxCtl link frame mine go).frame = s.frame := by
  refine frame_rxFrame _ _ _ fun _ _ _ _ => ?_
  split
  · rfl
  · exact frame_ite rfl ((h _ _ _).trans ((frame_withFab _ _).trans rfl))

theorem frame_answerFrame (s : State) (link : Nat) (reply : Option (List Byte)) : (s.answerFrame link reply).frame = s.frame := by
  refine frame_ite rfl ?_
  split
  · rfl
  · exact frame_ite rfl rfl

theorem frame_onConn {s : State} {go : Conn → State} (n : Nat) (h : ∀ c, (go c).frame = s.frame) :
    (s.onConn n go).frame = s.frame := by
  unfold State.onConn
  refine frame_ite rfl ?_
  split
  · rfl
  · exact (frame_settle _).trans (h _)

/-! ## Function level resets, boot and the Coelostat -/

theorem frame_flrPart (s : State) (pf : Bool) (k : Nat) : (s.flrPart pf k).frame = s.frame := (frame_withFab _ _).trans rfl

theorem frame_flrMbx (s : State) (m : Nat) : (s.flrMbx m).frame = s.frame := (frame_modMbx s m Mailbox.blockReset)

theorem frame_flrVf (s : State) (k : Nat) : (s.flrVf k).frame = s.frame :=
  (frame_flrMbx (s.flrPart false k) (k + 1)).trans (frame_flrPart s false k)

theorem frame_flrVfs (s : State) : s.flrVfs.frame = s.frame := by
  have h := frame_foldl frame_flrVf (List.range 16) s
  unfold State.flrVfs
  generalize (List.range 16).foldl State.flrVf s = t at h ⊢
  exact h

theorem frame_flrPf (s : State) : s.flrPf.frame = s.frame := by
  have h := frame_foldl (fun s k => frame_flrPart s true k) (List.range 16) s
  unfold State.flrPf
  dsimp only
  generalize (List.range 16).foldl (State.flrPart · true) s = t at h ⊢
  have hvf := frame_flrVfs ((t.flrMbx 0).flrFunc 0)
  generalize ((t.flrMbx 0).flrFunc 0).flrVfs = u at hvf ⊢
  exact hvf.trans ((frame_flrMbx t 0).trans h)

theorem frame_linkReset (s : State) : s.linkReset.frame = s.frame := by
  have h := frame_flrPf s
  unfold State.linkReset
  generalize s.flrPf = t at h ⊢
  exact h

theorem frame_romEnd (s : State) (r : RomEnd) : (s.romEnd r).frame = s.frame := by
  unfold State.romEnd
  dsimp only
  split <;> rfl

theorem frame_failTraining (s : State) (bad : List Nat) : (s.failTraining bad).frame = s.frame := frame_ite rfl rfl

theorem frame_holdInert (s : State) : s.holdInert.frame = s.frame := by simp only [State.frame, State.holdInert]

theorem frame_takeSettings (s : State) : s.takeSettings.frame = s.frame := by simp [State.frame]

theorem frame_showImage (s : State) : s.showImage.frame = s.frame := by simp [State.frame]

theorem frame_abandon (s : State) (x : Running) : (s.abandon x).frame = s.frame :=
  frame_ite (frame_result s _ _ _ _) (frame_answer s _ _)

theorem frame_abandonAll (s : State) : s.abandonAll.frame = s.frame := by
  have hrun := frame_foldl frame_abandon s.coel.running.vals s
  have hwait := fun (t : State) => frame_foldl (fun s (r : Request) => frame_answer s r (Answer.busy 10000)) (t.mbx.flatMap (·.waiting)) t
  refine Eq.trans ?_ ((hwait _).trans hrun)
  simp [State.abandonAll, State.frame]

theorem frame_loseSram (s : State) : s.loseSram.frame = s.frame := by
  refine (frame_foldl (fun s (w : Waiter) => frame_answer s w.req (Answer.busy 10000)) _ _).trans ?_
  simp [State.frame]

theorem frame_fromNor (s : State) : s.fromNor.frame = s.frame := by
  have hrom := frame_romEnd s (romChoose s.nor s.boot.trialExpired)
  exact frame_ite hrom (frame_ite hrom hrom)

theorem frame_answerWaiters (s : State) (k : Nat) (unfence : Bool) (status : Nat) :
    (s.answerWaiters k unfence status).frame = s.frame :=
  (frame_foldl (fun s (w : Waiter) => frame_answer s w.req (Answer.of status)) _ _).trans rfl

/-! ## Commands of the mailboxes -/

theorem frame_finish (s : State) (x : Running) (a : Answer) : (s.finish x a).frame = s.frame :=
  frame_ite (frame_result s _ _ _ _) (frame_answer s _ _)

theorem frame_defer (s : State) (r : Request) (parts : List Nat) : (s.defer_ r parts).frame = s.frame :=
  frame_ite (frame_answer s _ _) ((frame_modMbx _ _ _).trans ((frame_result _ _ _ _ _).trans (frame_answer s _ _)))

theorem frame_cmdRead (mb haddr : Nat) (l : List (Nat × Nat)) (s : State) (pos : Nat) :
    (s.cmdRead mb haddr l pos).1.frame = s.frame := by
  induction l generalizing s pos with
  | nil => rfl
  | cons x rest ih =>
    obtain ⟨a, n⟩ := x
    unfold State.cmdRead
    split
    · exact (ih _ _).trans ((frame_hostWrite _ _ _ _ _).trans rfl)
    · rfl

theorem frame_toBuffer (s : State) (r : Request) (host : HostData) (bytes : List Byte) :
    (s.toBuffer r host bytes).1.frame = s.frame := by
  unfold State.toBuffer
  dsimp only
  split
  · rfl
  · split
    · rfl
    · exact frame_hostWrite s _ _ _ _

theorem frame_storePair (s : State) (pair : List Nat) : (s.storePair pair).frame = s.frame := frame_ite rfl rfl

theorem frame_startSlotA (s : State) : s.startSlotA.frame = s.frame := by
  unfold State.startSlotA
  dsimp only
  generalize hcb : s.nor.eraseOlder.writeCb _ = nor
  have hrom := (frame_romEnd { s with nor := nor } (romChoose nor false)).trans rfl
  exact frame_ite hrom hrom

end Sys2Proof.Machine
end

section
/-!
PROOF. What a change of the Meridian block keeps (R58, R61, R73, R79, R81, R89), for each operation of chapter 02.
-/
namespace Sys2Proof.Machine

/-- What always holds of the Meridian block: its counter is on its grid, its pending epoch follows the published one, its fields
stay in their widths, and its Ephemeris slots are distinct. -/
structure Meridian.Ok (m : Meridian) : Prop where
  grid : m.now % 10 = 0
  top : m.now ≤ merMax
  pend : m.pend = m.pub + 1
  good : m.ptp.good ≤ 16
  bad : m.ptp.bad ≤ 4
  domain : m.ptp.domain ≤ 127
  holdLim : m.holdLim < 16384
  watchN : m.watchN < 16
  nextN : m.nextN.getD 0 < 16
  eph : m.eph.rising = true

theorem kept_iff (s : State) : Kept s ↔ s.mer.Ok ∧ s.mbx.length = 17 ∧ s.d2d.length = 12 := by
  constructor
  · rintro ⟨h1, h2, h3, h4, h5, h6, h7, h8, h9, h10, hbox, hlink⟩
    exact ⟨⟨h1, h2, h3, h4, h5, h6, h7, h8, h9, h10⟩, hbox, hlink⟩
  · rintro ⟨⟨h1, h2, h3, h4, h5, h6, h7, h8, h9, h10⟩, hbox, hlink⟩
    exact ⟨h1, h2, h3, h4, h5, h6, h7, h8, h9, h10, hbox, hlink⟩

theorem Meridian.ok_reset : Meridian.reset.Ok := by constructor <;> decide

/-- What a change of the Meridian block may do: it keeps what always holds, and neither the counter nor the published epoch goes
back. -/
structure Meridian.Goes (m n : Meridian) : Prop where
  ok : m.Ok → n.Ok
  now : m.now ≤ merMax → m.now ≤ n.now ∧ n.now ≤ merMax
  pub : m.pub ≤ n.pub

theorem Meridian.Goes.refl (m : Meridian) : m.Goes m := ⟨id, fun h => ⟨Nat.le_refl _, h⟩, Nat.le_refl _⟩

theorem Meridian.Goes.trans {m n o : Meridian} (a : m.Goes n) (b : n.Goes o) : m.Goes o where
  ok h := b.ok (a.ok h)
  now h := ⟨Nat.le_trans (a.now h).1 (b.now (a.now h).2).1, (b.now (a.now h).2).2⟩
  pub := Nat.le_trans a.pub b.pub

theorem Meridian.Goes.ite {c : Prop} [Decidable c] {m n o : Meridian} (hn : m.Goes n) (ho : m.Goes o) :
    m.Goes (if c then n else o) := by
  split
  · exact hn
  · exact ho

/-- The fields that `Meridian.Ok` speaks of. -/
def Meridian.held (m : Meridian) : Nat × Nat × Nat × Nat × Nat × Nat × Nat × Nat × Option Nat × Tbl EphEntry :=
  (m.now, m.pub, m.pend, m.ptp.good, m.ptp.bad, m.ptp.domain, m.holdLim, m.watchN, m.nextN, m.eph)

/-- A change of other fields. -/
theorem Meridian.Goes.of_held {m n : Meridian} (h : n.held = m.held) : m.Goes n := by
  simp only [Meridian.held, Prod.mk.injEq] at h
  obtain ⟨hnow, hpub, hpend, hgood, hbad, hdomain, hlim, hwatch, hnext, heph⟩ := h
  refine ⟨fun ok => ?_, fun hm => ⟨Nat.le_of_eq hnow.symm, Nat.le_trans (Nat.le_of_eq hnow) hm⟩, Nat.le_of_eq hpub.symm⟩
  constructor
  · exact hnow ▸ ok.grid
  · exact hnow ▸ ok.top
  · exact hpend.trans (ok.pend.trans (congrArg (· + 1) hpub.symm))
  · exact hgood ▸ ok.good
  · exact hbad ▸ ok.bad
  · exact hdomain ▸ ok.domain
  · exact hlim ▸ ok.holdLim
  · exact hwatch ▸ ok.watchN
  · exact hnext ▸ ok.nextN
  · exact heph ▸ ok.eph

/-! ## The counter -/

theorem grid10_mod (v : Nat) : grid10 v % 10 = 0 := Nat.mul_mod_left _ _

/-- The counter goes to a later value of its grid, or to its last one. -/
theorem Meridian.goes_goTo {m : Meridian} {v : Nat} (hv : m.now ≤ v) (hg : m.now % 10 = 0 → v % 10 = 0) : m.Goes (m.goTo v) where
  ok h := by
    obtain ⟨grid, top, pend, good, bad, domain, holdLim, watchN, nextN, eph⟩ := h
    refine ⟨?_, Nat.min_le_right _ _, pend, good, bad, domain, holdLim, watchN, nextN, eph⟩
    have := hg grid
    simp only [Meridian.goTo, merMax]
    omega
  now h := ⟨Nat.le_min.2 ⟨hv, h⟩, Nat.min_le_right _ _⟩
  pub := Nat.le_refl _

theorem Meridian.goes_take (m : Meridian) (v : Nat) : m.Goes (m.take v) := by
  unfold Meridian.take
  dsimp only
  split
  · exact (Meridian.goes_goTo (by omega) fun _ => grid10_mod v).trans (.of_held rfl)
  · split
    · exact .of_held rfl
    · split
      · exact .of_held rfl
      · exact (Meridian.goes_goTo (by omega) fun _ => grid10_mod v).trans (.of_held rfl)

theorem Meridian.goes_tick (m : Meridian) : m.Goes m.tick := by
  unfold Meridian.tick
  dsimp only
  split
  · exact .of_held rfl
  · have h : m.Goes { m with ticks := m.ticks + 1 } := .of_held rfl
    exact h.trans (Meridian.goes_goTo (Nat.le_add_right m.now 10) fun h => (Nat.add_mod_right m.now 10).trans h)

/-! ## State changes -/

theorem Meridian.held_enter (m : Meridian) (st : MerState) : (m.enter st).held = m.held := by
  unfold Meridian.enter
  split <;> rfl

theorem Meridian.held_lose (m : Meridian) : m.lose.held = m.held := by
  unfold Meridian.lose
  split
  · split <;> rfl
  · rfl

theorem Meridian.held_clkReturn (m : Meridian) : m.clkReturn.held = m.held := by
  unfold Meridian.clkReturn
  split <;> rfl

/-- A pulse edge notes its value. -/
theorem Meridian.goes_edge (m : Meridian) (l e : Option Nat) : m.Goes { m with loaded := l, lastEdge := e } := .of_held rfl

theorem Meridian.goes_pulse (m : Meridian) : m.Goes m.pulse := by
  unfold Meridian.pulse
  split
  · exact .refl m
  · split
    · rename_i v _
      have h := m.goes_take (grid10 (v + 10 * m.delayComp))
      dsimp only
      generalize m.take (grid10 (v + 10 * m.delayComp)) = t at h ⊢
      split
      · exact (h.trans (t.goes_edge none _)).trans (.of_held (Meridian.held_enter _ _))
      · exact h.trans (t.goes_edge none _)
    · split
      · rename_i e _ _
        have h := m.goes_take (e + 1000000)
        dsimp only
        generalize m.take (e + 1000000) = t at h ⊢
        exact .ite (h.trans (t.goes_edge t.loaded _)) (.of_held rfl)
      · exact .of_held rfl

theorem Meridian.goes_setPtpLock (m : Meridian) : m.Goes m.setPtpLock := by
  unfold Meridian.setPtpLock
  dsimp only
  split
  · exact .refl m
  · split
    case h_4 => exact .of_held rfl
    all_goals exact .of_held (Meridian.held_enter _ _)

/-- The run counters of the servo at other values within their fields. -/
theorem Meridian.goes_counters (m : Meridian) {g b : Nat} (hg : g ≤ 16) (hb : b ≤ 4) :
    m.Goes { m with ptp := { m.ptp with good := g, bad := b } } where
  ok h := { h with good := hg, bad := hb }
  now h := ⟨Nat.le_refl _, h⟩
  pub := Nat.le_refl _

theorem Meridian.goes_clearPtpLock (m : Meridian) : m.Goes m.clearPtpLock := by
  have h0 := m.goes_counters (Nat.zero_le 16) (Nat.zero_le 4)
  unfold Meridian.clearPtpLock
  dsimp only
  split
  · exact h0.trans (.of_held rfl)
  · exact h0.trans (.of_held rfl)

theorem Meridian.goes_takeOffset (m : Meridian) (off : Int) : m.Goes (m.takeOffset off) := by
  unfold Meridian.takeOffset
  extract_lets good bad servo m1 m2
  have h1 : m.Goes m1 := m.goes_counters (Nat.min_le_right _ _) (Nat.min_le_right _ _)
  have h2 : m.Goes m2 := by
    simp only [m2]
    split
    · exact h1.trans (m1.goes_take _)
    · exact h1
  split
  · exact h2.trans m2.goes_setPtpLock
  · split
    · exact h2.trans m2.goes_clearPtpLock
    · exact h2

theorem Meridian.goes_syncPair (m : Meridian) (t1 t2 : Nat) : m.Goes (m.syncPair t1 t2) :=
  (m.goes_takeOffset _).trans (.of_held rfl)

/-! ## Events, the Ephemeris and the registers -/

theorem Meridian.goes_watchEnd (m : Meridian) : m.Goes m.watchEnd := by
  unfold Meridian.watchEnd
  split
  · rename_i n hn
    dsimp only
    split
    · refine ⟨fun h => ?_, fun h => ⟨Nat.le_refl _, h⟩, Nat.le_refl _⟩
      have hlt := h.nextN
      rw [hn] at hlt
      exact { h with watchN := hlt, nextN := Nat.zero_lt_succ 15 }
    · exact .of_held rfl
  · exact .of_held rfl

theorem Tbl.rising_cons {α : Type} {k : Nat} {v : α} {t : Tbl α} :
    Tbl.rising ((k, v) :: t) = true ↔ (∀ p ∈ t.head?, k < p.1) ∧ t.rising = true := by
  cases t with
  | nil => simp [Tbl.rising]
  | cons d t => simp [Tbl.rising]

theorem Tbl.head?_set {α : Type} {k : Nat} {t : Tbl α} {n : Nat} {x : α} (h : ∀ p ∈ t.head?, k < p.1) (hn : k < n) :
    ∀ p ∈ (t.set n x).head?, k < p.1 := by
  cases t with
  | nil => simpa [Tbl.set] using hn
  | cons d t =>
    have hd : k < d.1 := h d rfl
    simp only [Tbl.set]
    split
    · simpa using hn
    · split
      · simpa using hn
      · simpa using hd

/-- Writing an entry keeps the keys of a table strictly rising. -/
theorem Tbl.rising_set {α : Type} {t : Tbl α} (n : Nat) (x : α) (h : t.rising = true) : (t.set n x).rising = true := by
  induction t with
  | nil => rfl
  | cons d t ih =>
    obtain ⟨k, v⟩ := d
    obtain ⟨hd, ht⟩ := Tbl.rising_cons.1 h
    simp only [Tbl.set]
    split
    next hk => exact Tbl.rising_cons.2 ⟨hk ▸ hd, ht⟩
    next hk =>
      split
      next hlt => exact Tbl.rising_cons.2 ⟨by simpa using hlt, h⟩
      next hlt => exact Tbl.rising_cons.2 ⟨Tbl.head?_set hd (by omega), ih ht⟩

/-- An entry of the Ephemeris is written. -/
theorem Meridian.goes_setEph (m : Meridian) (n : Nat) (e : EphEntry) : m.Goes { m with eph := m.eph.set n e } where
  ok h := { h with eph := Tbl.rising_set n e h.eph }
  now h := ⟨Nat.le_refl _, h⟩
  pub := Nat.le_refl _

theorem Meridian.goes_perform (m : Meridian) (slot : Nat) (e : EphEntry) : m.Goes (m.perform slot e) := by
  unfold Meridian.perform
  dsimp only
  split
  · rename_i hpub
    simp only [Meridian.publishes, Bool.and_eq_true, decide_eq_true_eq] at hpub
    refine ⟨fun h => ?_, fun h => ⟨Nat.le_refl _, h⟩, by dsimp only; omega⟩
    exact { h with pend := by dsimp only; omega, eph := Tbl.rising_set _ _ h.eph }
  · exact (m.goes_setEph slot _).trans (.of_held rfl)

theorem Meridian.goes_statW1c (m : Meridian) (v : Nat) : m.Goes (m.statW1c v) := .of_held rfl

theorem Meridian.goes_writeCfg (m : Meridian) (v : Nat) : m.Goes (m.writeCfg v) := by
  have hlim : bitsOf v 0 14 < 16384 := Nat.mod_lt _ (by decide)
  have hn : bitsOf v 16 4 < 16 := Nat.mod_lt _ (by decide)
  have hnext : (if bitsOf v 16 4 = m.watchN then none else some (bitsOf v 16 4)).getD 0 < 16 := by
    split
    · decide
    · exact hn
  unfold Meridian.writeCfg
  extract_lets n m1
  have h1 : m.Goes m1 := ⟨fun h => { h with holdLim := hlim, nextN := hnext }, fun h => ⟨Nat.le_refl _, h⟩, Nat.le_refl _⟩
  split
  · exact h1.trans (m1.goes_clearPtpLock.trans (.of_held rfl))
  · exact h1

theorem Meridian.goes_configure (m : Meridian) {domain : Nat} (offset : Nat) (hd : domain ≤ 127) :
    m.Goes { m with ptp := m.ptp.configure domain offset } := by
  have h1 : m.Goes { m with ptp := { m.ptp with domain := domain, offset := offset } } :=
    ⟨fun h => { h with domain := hd }, fun h => ⟨Nat.le_refl _, h⟩, Nat.le_refl _⟩
  refine h1.trans (.of_held ?_)
  unfold PtpServo.configure
  dsimp only
  split <;> rfl

end Sys2Proof.Machine
end

section
/-!
PROOF. What every command keeps (O3, O57 to O60): each answers a next state; none touches the queue of commands or the build; the
counter and the published epoch go back only where the package restarts or the boot restores the epoch; and the invariant holds
after every step. The case split over the commands follows the operation that carries the row.
-/
namespace Sys2Proof.Machine

/-- What a command may do that restarts nothing: the build and the queue of commands stay, the Meridian block goes on, and no
mailbox or link is added or lost. -/
structure Steady (s t : State) : Prop where
  variant64 : t.variant64 = s.variant64
  pending : t.pending = s.pending
  mer : s.mer.Goes t.mer
  boxes : t.mbx.length = s.mbx.length
  links : s.d2d.length = 12 → t.d2d.length = 12

theorem Steady.of_frame {s t : State} (h : t.frame = s.frame) : Steady s t := by
  simp only [State.frame, Prod.mk.injEq] at h
  obtain ⟨hv, hq, hm, hb, hl⟩ := h
  exact ⟨hv, hq, hm ▸ .refl _, hb, hl.trans⟩

theorem Steady.refl (s : State) : Steady s s := .of_frame rfl

theorem Steady.trans {s t u : State} (a : Steady s t) (b : Steady t u) : Steady s u where
  variant64 := b.variant64.trans a.variant64
  pending := b.pending.trans a.pending
  mer := a.mer.trans b.mer
  boxes := b.boxes.trans a.boxes
  links h := b.links (a.links h)

/-- The Meridian block goes on, and nothing else changes. -/
theorem Steady.of_mer {s : State} {m : Meridian} (h : s.mer.Goes m) : Steady s { s with mer := m } := ⟨rfl, rfl, h, rfl, id⟩

theorem Steady.of_held {s : State} {m : Meridian} (h : m.held = s.mer.held) : Steady s { s with mer := m } := .of_mer (.of_held h)

/-- An operation that keeps the frame, after one that lets the Meridian block go on. -/
theorem Steady.then {s t u : State} (a : Steady s t) (h : u.frame = t.frame) : Steady s u := a.trans (.of_frame h)

theorem Steady.after {s t u : State} (a : Steady t u) (h : t.frame = s.frame) : Steady s u := (Steady.of_frame h).trans a

theorem Steady.ite {c : Prop} [Decidable c] {s t u : State} (ht : Steady s t) (hu : Steady s u) :
    Steady s (if c then t else u) := by
  split
  · exact ht
  · exact hu

theorem steady_doRead {s : State} {f : State → State} (off : Nat) (h : ∀ t, Steady t (f t)) : Steady s (s.doRead off f) :=
  .ite (.after (h _) rfl) (.of_frame rfl)

theorem steady_onPtp {s : State} {f : Meridian → Meridian} (port domain : Nat) (unlisted : Bool) (h : ∀ m : Meridian, m.Goes (f m)) :
    Steady s (s.onPtp port domain unlisted f) :=
  .ite (.refl s) (.ite (.of_frame rfl) (.ite ⟨rfl, rfl, h _, rfl, id⟩ (.of_frame rfl)))

/-! ## Commands of the mailboxes -/

theorem steady_command {s : State} {f : State → Request → Bool → State × CmdEnd} (core op : Nat)
    (h : ∀ r late, Steady s (f s r late).1) : Steady s (s.command core op f) := by
  unfold State.command
  split
  · exact .refl s
  · rename_i x _
    refine .ite (.refl s) ?_
    have hf := h x.req (x.late || x.begun)
    dsimp only
    split
    all_goals rename_i heq; rw [heq] at hf
    · exact hf.then ((frame_settle _).trans rfl)
    · exact hf.then ((frame_settle _).trans rfl)
    · exact hf.then ((frame_settle _).trans ((frame_finish _ _ _).trans rfl))
    · exact .of_frame ((frame_defer _ _ _).trans rfl)
    · exact hf.then ((frame_settle _).trans rfl)

theorem steady_cmd {s : State} {g : State → Request → Gate} {k : State → Request → Bool → State × CmdEnd} (core op : Nat)
    (h : ∀ r late, Steady s (k s r late).1) : Steady s (s.cmd core op g k) :=
  steady_command core op fun r late => by
    unfold State.gated
    split
    · exact .refl s
    · exact h r late

theorem frame_end_ite {c : Prop} [Decidable c] {s : State} {x y : State × CmdEnd} (hx : x.1.frame = s.frame)
    (hy : y.1.frame = s.frame) : (if c then x else y).1.frame = s.frame := by
  split
  · exact hx
  · exact hy

theorem frame_unshort {s : State} {k : State × CmdEnd} (late : Bool) (parts : List Nat) (h : k.1.frame = s.frame) :
    (s.unshort late parts k).1.frame = s.frame := by
  unfold State.unshort
  dsimp only
  split
  · rfl
  · exact h

theorem frame_pdScope {s : State} {k : State × CmdEnd} (r : Request) (pd : Nat) (h : k.1.frame = s.frame) :
    (s.pdScope r pd k).1.frame = s.frame := by
  unfold State.pdScope
  split
  · rfl
  · exact h

theorem frame_keyless {s : State} {k : Conn → State × CmdEnd} (r : Request) (h : ∀ c, (k c).1.frame = s.frame) :
    (s.keyless r k).1.frame = s.frame := by
  unfold State.keyless
  split
  · rfl
  · split
    · rfl
    · split
      · rfl
      · exact h _

theorem frame_waitFor (s : State) (rs : List (Nat × Nat)) (fail : Option Nat) : (s.waitFor rs fail).1.frame = s.frame := by
  unfold State.waitFor
  dsimp only
  split <;> rfl

/-- A command that waits for the pages of its ranges, or goes on. -/
theorem frame_orWait {c : Prop} [Decidable c] {s : State} {k : State × CmdEnd} (rs : List (Nat × Nat)) (fail : Option Nat)
    (h : k.1.frame = s.frame) : (if c then s.waitFor rs fail else k).1.frame = s.frame :=
  frame_end_ite (frame_waitFor s rs fail) h

theorem frame_modFilters (s : State) (r : Request) (on : Bool) : (s.modFilters r on).1.frame = s.frame := by
  unfold State.modFilters
  dsimp only
  split <;> rfl

/-! ## The commands -/

/-- The commands that restart the package, or let it restart. -/
def RestartsPackage (c : Instr) : Prop :=
  (∃ b, c = .powerOnReset b) ∨ c = .packageReset ∨ (∃ v, c = .rstCtl v) ∨ c = .bootStart ∨ c = .flushRecord

/-- The boot stage that restores the published epoch. -/
def RestoresEpoch (c : Instr) : Prop := ∃ bad found, c = .flash bad found

/-- The outcome is a next state, to which the package goes on steadily. -/
def NextSteady (s : State) (o : Host.Outcome State Fault Refusal) : Prop := ∃ t, o = .next t ∧ Steady s t

theorem steady_merClkLoss (s : State) : NextSteady s (execMerClkLoss s) := by
  have h : Steady s { s with mer := s.mer.clkLoss } := .of_held s.mer.held_lose
  exact ⟨_, rfl, .ite (.of_held rfl) (.ite (h.then (frame_raise_settle _ _)) (.refl s))⟩

theorem steady_merSyncLoss (s : State) : NextSteady s (execMerSyncLoss s) := by
  have h : Steady s { s with mer := s.mer.syncLoss } := .of_held s.mer.held_lose
  exact ⟨_, rfl, .ite (h.then (frame_raise_settle _ _)) (.refl s)⟩

theorem steady_holdLimit (s : State) : NextSteady s (execHoldLimit s) := by
  have h : Steady s { s with mer := s.mer.holdLimit } := .of_held rfl
  exact ⟨_, rfl, .ite (h.then (frame_raise_settle _ _)) (.refl s)⟩

theorem steady_ptpSync (port domain : Nat) (head : PtpHead) (twoStep : Bool) (seqNo t1 sub : Nat) (s : State) : NextSteady s (execPtpSync port domain head twoStep seqNo t1 sub s) := by
  exact ⟨_, rfl, steady_onPtp _ _ _ fun m => .ite (.refl m) (.ite (.of_held rfl) (m.goes_syncPair _ _))⟩

theorem steady_ptpDelayResp (port domain : Nat) (head : PtpHead) (t4 : Nat) (s : State) : NextSteady s (execPtpDelayResp port domain head t4 s) := by
  refine ⟨_, rfl, steady_onPtp _ _ _ fun m => ?_⟩
  split
  · exact .of_held rfl
  · exact .refl m

theorem steady_followUp (port domain : Nat) (head : PtpHead) (seqNo t1 : Nat) (s : State) : NextSteady s (execFollowUp port domain head seqNo t1 s) := by
  refine ⟨_, rfl, steady_onPtp _ _ _ fun m => ?_⟩
  split
  · exact .ite (m.goes_syncPair _ _) (.refl m)
  · exact .refl m

theorem steady_announceTimeout (s : State) : NextSteady s (execAnnounceTimeout s) := by
  exact ⟨_, rfl, .ite (.of_mer (s.mer.goes_clearPtpLock.trans (.of_held rfl))) (.refl s)⟩

theorem steady_epochPublish (s : State) : NextSteady s (execEpochPublish s) := by
  refine ⟨_, rfl, .ite ?_ (.refl s)⟩
  split
  · exact .refl s
  · exact ⟨rfl, rfl, s.mer.goes_perform _ _, rfl, id⟩

theorem steady_ephWrite (core : Nat) (host : HostData) (s : State) : NextSteady s (execEphWrite core host s) := by
  refine ⟨_, rfl, steady_cmd _ _ fun r _ => ?_⟩
  split
  · exact .refl s
  · split
    · exact .refl s
    · exact .of_mer (s.mer.goes_setEph _ _)

theorem steady_completion (job : Nat) (s : State) : NextSteady s (execCompletion job s) := by
  refine ⟨_, rfl, .of_frame (frame_ite ?_ rfl)⟩
  split
  · rfl
  · exact frame_ite rfl (frame_ite rfl (frame_completeJob s _ _))

theorem steady_ingestRecord (job : Nat) (s : State) : NextSteady s (execIngestRecord job s) := by
  refine ⟨_, rfl, .of_frame (frame_ite ?_ rfl)⟩
  split
  · rfl
  · split
    · exact frame_ite (frame_onPipe s _) (frame_onPipe s _)
    · exact frame_ite rfl (frame_ite (frame_onPipe s _) (frame_ite rfl (frame_ite (frame_onPipe s _)
        ((frame_settle _).trans ((frame_replicate _ _ _ _).trans rfl)))))

theorem steady_registerWrite (func off size : Nat) (v : W64) (s : State) : NextSteady s (execRegisterWrite func off size v s) := by
  refine ⟨_, rfl, .of_frame (frame_doWrite (frame_ite rfl (frame_ite (frame_foldl frame_shortBell _ s) (frame_ite rfl ?_))))⟩
  split
  · rfl
  · have h := frame_writeRW s
    exact frame_ite ((frame_writeRW _ _ _).trans (h _ _)) (h _ _)

theorem steady_nakRnr (link : Nat) (frame : List Byte) (s : State) : NextSteady s (execNakRnr link frame s) := by
  refine ⟨_, rfl, .of_frame (frame_rxCtl _ _ _ fun t _ _ => ?_)⟩
  split
  · rfl
  · split
    · exact frame_withFab t _
    · rfl

theorem steady_errorPacket (link : Nat) (frame : List Byte) (s : State) : NextSteady s (execErrorPacket link frame s) := by
  refine ⟨_, rfl, .of_frame (frame_rxFrame _ _ _ fun _ _ _ _ => ?_)⟩
  split
  · rfl
  · exact (frame_withFab _ _).trans rfl

theorem steady_sendEntry (conn : Nat) (entry payload : HostData) (s : State) : NextSteady s (execSendEntry conn entry payload s) := by
  refine ⟨_, rfl, .of_frame (frame_ite rfl ?_)⟩
  split
  · rfl
  · refine frame_ite (frame_onFab s _) (frame_ite rfl ?_)
    split
    · exact frame_startEntry s _ _ _ _ _
    · refine frame_ite rfl ?_
      dsimp only
      split
      · exact frame_ite (frame_onPipe s _) rfl
      · split
        · exact frame_ite (frame_onPipe s _) rfl
        · exact frame_startEntry s _ _ _ _ _

theorem steady_packetSend (link : Nat) (s : State) : NextSteady s (execPacketSend link s) := by
  refine ⟨_, rfl, .of_frame (frame_ite rfl ?_)⟩
  split
  · rfl
  · exact frame_onFab s _

theorem steady_writePlace (conn : Nat) (s : State) : NextSteady s (execWritePlace conn s) := by
  refine ⟨_, rfl, .of_frame (frame_ite rfl ?_)⟩
  split
  · rfl
  · refine frame_ite rfl ?_
    split
    · rfl
    · split
      · exact frame_onFab s _
      · have h := frame_withFab s
        exact (frame_settle _).trans (frame_ite ((frame_ctl _ _ _ _ _ _).trans (h _)) (h _))

theorem steady_gapTimer (conn : Nat) (s : State) : NextSteady s (execGapTimer conn s) := by
  refine ⟨_, rfl, .of_frame (frame_onConn _ fun _ => frame_ite rfl ?_)⟩
  split
  · exact frame_ctl s _ _ _ _ _
  · rfl

theorem steady_keepaliveTimer (conn : Nat) (s : State) : NextSteady s (execKeepaliveTimer conn s) := by
  refine ⟨_, rfl, .of_frame (frame_onConn _ fun _ => frame_ite (frame_ctl s _ _ _ _ _) ?_)⟩
  split
  · exact frame_withFab s _
  · rfl

theorem steady_norRead (present : Bool) (s : State) : NextSteady s (execNorRead present s) := by
  have h := frame_romEnd s
  exact ⟨_, rfl, .of_frame (frame_ite (frame_ite (h _) (h _)) rfl)⟩

theorem length_foldl_modNth {α β : Type} (i : β → Nat) (f : β → α → α) (xs : List β) (l : List α) :
    (xs.foldl (fun l x => modNth l (i x) (f x)) l).length = l.length := by
  induction xs generalizing l with
  | nil => rfl
  | cons x xs ih => exact (ih _).trans (length_modNth l _ _)

theorem steady_clocks (lanes : List (Nat × Nat × Nat)) (s : State) : NextSteady s (execClocks lanes s) := by
  have hlen := fun (xs : List (Nat × Nat × Nat)) => length_foldl_modNth (fun x => x.1) (fun x l => l.failLane x.2.1 x.2.2) xs
    (d2dReset.map (fun l => { l with trained := true }))
  refine ⟨_, rfl, .ite ?_ (.refl s)⟩
  extract_lets ls b s1 cut
  have h1 : Steady s s1 := ⟨rfl, rfl, .refl _, rfl, fun _ => (hlen _).trans rfl⟩
  exact h1.then ((frame_raise_settle _ _).trans (frame_failTraining s1 _))

theorem steady_holdup (asserted : Bool) (s : State) : NextSteady s (execHoldup asserted s) := by
  exact ⟨_, rfl, .of_frame (frame_ite rfl (frame_ite rfl (frame_ite rfl (frame_ite ((frame_startFlush _ _).trans rfl) (frame_holdInert s)))))⟩

theorem steady_trialExpired (s : State) : NextSteady s (execTrialExpired s) := by
  exact ⟨_, rfl, .of_frame (frame_ite rfl (frame_ite ((frame_settle _).trans ((frame_fromNor _).trans
    ((frame_abandonAll _).trans rfl))) rfl))⟩

theorem steady_activationWindow (s : State) : NextSteady s (execActivationWindow s) := by
  have h := fun (t : State) => frame_ite (c := t.boot.stage = .recovery) (s := t) rfl
    (rfl : ({ t with coel := { t.coel with state := .activating } } : State).frame = t.frame)
  exact ⟨_, rfl, .of_frame (frame_ite ((frame_settle _).trans ((h _).trans ((frame_romEnd _ _).trans
    ((rfl : _ = s.abandonAll.frame).trans (frame_abandonAll s))))) rfl)⟩

theorem steady_activated (s : State) : NextSteady s (execActivated s) := by
  exact ⟨_, rfl, .of_frame (frame_ite ((frame_settle _).trans ((frame_takeSettings _).trans
    ((frame_eventAll _ _).trans rfl))) rfl)⟩

theorem steady_watchdogRestart (s : State) : NextSteady s (execWatchdogRestart s) := by
  have hcut := fun (c : Coel) => (frame_abandonAll { s.raise [260] with coel := c }).trans
    ((rfl : _ = (s.raise [260]).frame).trans (frame_raise s [260]))
  refine ⟨_, rfl, .of_frame (frame_ite (frame_ite (frame_raise s _) ?_) rfl)⟩
  dsimp only
  generalize hc : ({ (s.raise [260]).coel with wdcnt := _ } : Coel) = c
  have hcut := hcut c
  generalize ({ s.raise [260] with coel := c } : State).abandonAll = t at hcut ⊢
  exact (frame_settle _).trans (frame_ite ((frame_fromNor _).trans ((frame_loseSram _).trans hcut)) hcut)

theorem steady_laneFail (l m lane : Nat) (s : State) : NextSteady s (execLaneFail l m lane s) := by
  refine ⟨_, rfl, .of_frame ?_⟩
  split
  · rfl
  · exact frame_ite rfl ((frame_onFault _ _ _).trans (by simp [State.frame]))

theorem steady_d2dDown (l : Nat) (s : State) : NextSteady s (execD2dDown l s) := by
  refine ⟨_, rfl, .of_frame ?_⟩
  split
  · rfl
  · exact frame_ite rfl ((frame_onFault _ _ _).trans (by simp [State.frame]))

theorem steady_marginMeasure (kind idx : Nat) (value : Int) (s : State) : NextSteady s (execMarginMeasure kind idx value s) := by
  refine ⟨_, rfl, .of_frame ?_⟩
  split
  · rfl
  · exact frame_ite rfl (frame_onPower s _ _ _)

theorem steady_mbxRequestTake (m : Nat) (slot : HostData) (s : State) : NextSteady s (execMbxRequestTake m slot s) := by
  refine ⟨_, rfl, .of_frame (frame_ite ?_ rfl)⟩
  split
  · exact frame_modMbx s _ _
  · dsimp only
    split
    · exact (frame_answer _ _ _).trans ((frame_modMbx _ _ _).trans rfl)
    · exact (frame_modMbx _ _ _).trans ((frame_modMbx _ _ _).trans rfl)

theorem steady_cmdStart (core : Nat) (s : State) : NextSteady s (execCmdStart core s) := by
  have hun := fun (r : Request) => frame_modMbx s r.mb (fun b =>
    { b with waiting := b.waiting.filter (fun x => x.seq != r.seq), deferred := b.deferred.filter (fun x => x.req.seq != r.seq) })
  refine ⟨_, rfl, .of_frame (frame_ite ?_ rfl)⟩
  split
  · rfl
  · rename_i r late _
    have h2 := fun (c : Coel) => frame_ite (c := core = 0) (s := s.unqueue r) rfl
      (rfl : ({ s.unqueue r with coel := c } : State).frame = (s.unqueue r).frame)
    refine frame_ite ((frame_answer _ _ _).trans ((h2 _).trans (hun r))) ?_
    exact Eq.trans (b := State.frame (if late = true then State.result _ r .running stBUDGETWAIT 0 else _)) rfl
      ((frame_ite (frame_result _ _ _ _ _) rfl).trans ((h2 _).trans (hun r)))

theorem steady_fenceCompletions (k : Nat) (s : State) : NextSteady s (execFenceCompletions k s) := by
  have h := frame_foldl (fun s j => frame_completeJob s j false) (s.pipe.homed k) s
  unfold execFenceCompletions
  dsimp only
  generalize (s.pipe.homed k).foldl (fun s j => s.completeJob j false) s = t at h ⊢
  refine ⟨_, rfl, .of_frame (frame_ite (frame_ite h ?_) rfl)⟩
  exact (frame_event _ _ _ _ _ _).trans ((frame_event _ _ _ _ _ _).trans h)

theorem steady_unfence (k : Nat) (s : State) : NextSteady s (execUnfence k s) := by
  refine ⟨_, rfl, .of_frame (frame_ite ((frame_settle _).trans ((frame_answerWaiters _ _ _ _).trans
    ((frame_event _ _ _ _ _ _).trans ((frame_event _ _ _ _ _ _).trans ?_)))) rfl)⟩
  exact frame_ite (by simp [State.frame]) (frame_setPipe s _)

theorem steady_trnRead (core : Nat) (host : HostData) (s : State) : NextSteady s (execTrnRead core host s) := by
  refine ⟨_, rfl, steady_cmd _ _ fun r _ => .of_frame ?_⟩
  extract_lets c pend l
  clear_value l
  cases l with
  | none => rfl
  | some l => exact frame_toBuffer s r host _

theorem steady_fltEdit (core : Nat) (host : HostData) (s : State) : NextSteady s (execFltEdit core host s) := by
  refine ⟨_, rfl, steady_cmd _ _ fun r _ => .of_frame (frame_end_ite (frame_end_ite rfl rfl) ?_)⟩
  split
  · rfl
  · refine frame_end_ite rfl (frame_unshort _ _ ?_)
    split
    · rfl
    · exact frame_orWait _ _ (frame_end_ite (frame_setPipe s _) (frame_end_ite rfl (frame_setPipe s _)))

/-- Every command that neither restarts the package nor restores the published epoch. -/
theorem exec_steady (c : Instr) (s : State) (hr : ¬ RestartsPackage c) (hf : ¬ RestoresEpoch c) :
    NextSteady s (exec c s) := by
  cases c
  case powerOnReset b => exact absurd (.inl ⟨b, rfl⟩) hr
  case packageReset => exact absurd (.inr (.inl rfl)) hr
  case rstCtl v => exact absurd (.inr (.inr (.inl ⟨v, rfl⟩))) hr
  case bootStart => exact absurd (.inr (.inr (.inr (.inl rfl)))) hr
  case flushRecord => exact absurd (.inr (.inr (.inr (.inr rfl)))) hr
  case flash bad found => exact absurd ⟨bad, found, rfl⟩ hf
  -- The Meridian block.
  case merNowLo | merPubLo | merLateCnt | merSkipCnt =>
    exact ⟨_, rfl, steady_doRead _ fun _ => .of_held rfl⟩
  case merStat => exact ⟨_, rfl, .ite (.of_mer (Meridian.goes_statW1c _ _)) (.refl s)⟩
  case counterAdvance => exact ⟨_, rfl, .ite (.of_mer s.mer.goes_tick) (.refl s)⟩
  case pulseEdge => exact ⟨_, rfl, .ite (.of_mer s.mer.goes_pulse) (.refl s)⟩
  case merClkLoss => exact steady_merClkLoss s
  case merSyncLoss => exact steady_merSyncLoss s
  case holdLimit => exact steady_holdLimit s
  case merClkReturn => exact ⟨_, rfl, .of_held s.mer.held_clkReturn⟩
  case ptpSync port domain head twoStep seqNo t1 sub => exact steady_ptpSync port domain head twoStep seqNo t1 sub s
  case ptpAnnounce => exact ⟨_, rfl, steady_onPtp _ _ _ fun m => .of_held rfl⟩
  case ptpDelayResp port domain head t4 => exact steady_ptpDelayResp port domain head t4 s
  case followUp port domain head seqNo t1 => exact steady_followUp port domain head seqNo t1 s
  case announceTimeout => exact steady_announceTimeout s
  case delayReq => exact ⟨_, rfl, .ite ⟨rfl, rfl, .of_held rfl, rfl, id⟩ (.refl s)⟩
  case watchEnd => exact ⟨_, rfl, .ite ⟨rfl, rfl, s.mer.goes_watchEnd, rfl, id⟩ (.refl s)⟩
  case epochPublish => exact steady_epochPublish s
  case merLoadNext => exact ⟨_, rfl, steady_cmd _ _ fun _ _ => .of_held rfl⟩
  case merConfig => exact ⟨_, rfl, steady_cmd _ _ fun r _ => .of_mer (s.mer.goes_writeCfg _)⟩
  case ptpConfig => exact ⟨_, rfl, steady_cmd _ _ fun r _ => .of_mer (s.mer.goes_configure _ (Nat.min_le_right _ _))⟩
  case ephWrite core host => exact steady_ephWrite core host s
  -- Rows of the near-bank units, the cores, the walkers and the rest of the pipeline.
  case scan | block | append | stamp | pool | compact | bitmap | scrub | nop | nbuProgram | nbuImageSwitch | cancel | cancelled
      | nbuLimit | alu | addi | andi | ori | xori | shli | shri | srai | lui | ld | st | vld | vst | tld | fenceInstr | beq | bne
      | blt | bge | bltu | bgeu | jal | jalr | endProg | valu | vred | vlut | vmovg | pset | enext | escore | eacc | epil | efilt
      | evis | elast | ethr | emit | sttail =>
    exact ⟨_, rfl, .of_frame (frame_onNbu s _)⟩
  case nbuRequestTake | epochMarker => exact ⟨_, rfl, .of_frame (frame_ite (frame_onNbu s _) rfl)⟩
  case mtile | mwait | mtest | mdrain | vsel | vfree | kend | coreScalar | plateAccess | coreVector | kernelInvoke | limit
      | derotator | tilePass | openReq | closeReq | discard | bound | selBlockServed | endMessage =>
    exact ⟨_, rfl, .of_frame (frame_onCore s _ _)⟩
  case walkStart | walkHop | walkPageLoad => exact ⟨_, rfl, .of_frame (frame_onWalk s _ _)⟩
  case wheelDrain | bucketMove | ringAccessError | poolIssue | poolPartial | dirLock | pageMoveIn | writeBack | flashReadDone
      | programDone | eraseDone =>
    exact ⟨_, rfl, .of_frame (frame_onPipe s _)⟩
  case almDoorbell | schedVisit | descriptorFetch => exact ⟨_, rfl, .of_frame (frame_ite (frame_onPipe s _) rfl)⟩
  case pieceGrow | stampRetry | pieceCompact | pieceRetire | spill => exact ⟨_, rfl, .of_frame (frame_onObjects s _)⟩
  case checkpoint | ckpt | extentRetire | extentCompact | relocation | scrubPeriod =>
    exact ⟨_, rfl, .of_frame (frame_onFirmware s _)⟩
  case programFail | eraseFail => exact ⟨_, rfl, .of_frame (frame_onMedia s _ _)⟩
  case completion job => exact steady_completion job s
  case ingestRecord job => exact steady_ingestRecord job s
  -- Events of the time base in the pipeline.
  case transitTakeover | transitWindow => exact ⟨_, rfl, .of_frame (frame_ite (frame_setPipe s _) rfl)⟩
  -- Registers, pins and the TAP.
  case nbuCe | nbuTrapcnt | flsUe | almDbdrop | almOrphan | almMiss | schFinder | schForgive =>
    exact ⟨_, rfl, .of_frame (frame_readPart s _ _ _)⟩
  case bftRnr | bftBadpkt | bftAuthfail | bftEvdrop | bftOrphan | bftDbdrop | coelWdcnt =>
    exact ⟨_, rfl, .of_frame (frame_doRead _ fun _ => rfl)⟩
  case flsHoldstat | fabLink | sbFunc => exact ⟨_, rfl, .of_frame (frame_doWrite rfl)⟩
  case nbuUe | nbuTrapcause => exact ⟨_, rfl, .of_frame (frame_doWrite (frame_ite rfl rfl))⟩
  case mbxCfg | mbxDoorbell | mbxStat => exact ⟨_, rfl, .of_frame (frame_doWrite (frame_modMbx s _ _))⟩
  case fcuStat => exact ⟨_, rfl, .of_frame (frame_doWrite ((frame_raise_settle _ _).trans rfl))⟩
  case dbgInject => exact ⟨_, rfl, .of_frame (frame_doWrite (frame_ite (frame_raise_settle s _) rfl))⟩
  case registerWrite func off size v => exact steady_registerWrite func off size v s
  case vfEnableSet => exact ⟨_, rfl, .of_frame (frame_doWrite ((frame_release _).trans rfl))⟩
  case busMasterEnable | msixVectorUnmask => exact ⟨_, rfl, .of_frame (frame_doWrite (frame_ite rfl ((frame_release _).trans rfl)))⟩
  case sbInertEnd | tapInstruction | tapReset => exact ⟨_, rfl, .of_frame rfl⟩
  -- The fabric transport.
  case data | query | abortMsg | abortreply | qctlreply | poolMessage | poolreply | cqdb =>
    exact ⟨_, rfl, .of_frame (frame_rxSend s _ _ _ _)⟩
  case qctlRead | qctlModify | qctlPause | qctlResume => exact ⟨_, rfl, .of_frame (frame_rxQctl s _ _ _ _)⟩
  case write => exact ⟨_, rfl, .of_frame (frame_rxFrame _ _ _ fun _ _ _ _ => (frame_takeData1 _ _ _ _ _).trans rfl)⟩
  case ack | credit | keepalive => exact ⟨_, rfl, .of_frame (frame_rxCtl _ _ _ fun _ _ _ => rfl)⟩
  case nakSeq => exact ⟨_, rfl, .of_frame (frame_rxCtl _ _ _ fun _ _ _ => rfl)⟩
  case nakRnr link frame => exact steady_nakRnr link frame s
  case errorPacket link frame => exact steady_errorPacket link frame s
  case nonBftFrame => exact ⟨_, rfl, .of_frame (frame_rxFrame _ _ _ fun _ _ _ _ => rfl)⟩
  case arpRequest | neighborSolicitation => exact ⟨_, rfl, .of_frame (frame_answerFrame s _ _)⟩
  case sendRingDoorbell => exact ⟨_, rfl, .of_frame (frame_ite (frame_onFab s _) rfl)⟩
  case receiveRingDoorbell | errorRingDoorbell | eventRingDoorbell => exact ⟨_, rfl, .of_frame (frame_ite rfl rfl)⟩
  case sendEntry conn entry payload => exact steady_sendEntry conn entry payload s
  case packetSend link => exact steady_packetSend link s
  case writePlace conn => exact steady_writePlace conn s
  case retransmitTimeout | rnrDelay => exact ⟨_, rfl, .of_frame (frame_onConn _ fun _ => frame_ite rfl rfl)⟩
  case ackTimer | creditTimer => exact ⟨_, rfl, .of_frame (frame_onConn _ fun _ => frame_ite rfl (frame_ctl s _ _ _ _ _))⟩
  case gapTimer conn => exact steady_gapTimer conn s
  case keepaliveTimer conn => exact steady_keepaliveTimer conn s
  case silent => exact ⟨_, rfl, .of_frame (frame_onConn _ fun _ => frame_withFab s _)⟩
  case linkDown => exact ⟨_, rfl, .of_frame (frame_ite ((frame_raise_settle _ _).trans (frame_dropLink s _)) rfl)⟩
  case linkUp | localFault => exact ⟨_, rfl, .of_frame (frame_ite rfl rfl)⟩
  -- Resets of functions, boot and the flush.
  case pcieLinkReset => exact ⟨_, rfl, .of_frame (frame_ite ((frame_settle _).trans (frame_linkReset s)) rfl)⟩
  case functionLevelReset => exact ⟨_, rfl, .of_frame (frame_ite ((frame_settle _).trans (frame_flrVf s _)) rfl)⟩
  case pfFunctionLevelReset => exact ⟨_, rfl, .of_frame (frame_ite ((frame_settle _).trans (frame_flrPf s)) rfl)⟩
  case vfEnableClear => exact ⟨_, rfl, .of_frame (frame_ite ((frame_settle _).trans (frame_flrVfs s)) rfl)⟩
  case norRead present => exact steady_norRead present s
  case fwStart | restore | ready | flushPartDone | entropyReady | safeStateFlashIdle =>
    exact ⟨_, rfl, .of_frame (frame_ite (by simp [State.frame]) rfl)⟩
  case clocks lanes => exact steady_clocks lanes s
  case hbm => exact ⟨_, rfl, .of_frame (frame_ite ((frame_failTraining _ _).trans rfl) rfl)⟩
  case holdup asserted => exact steady_holdup asserted s
  case trialExpired => exact steady_trialExpired s
  case activationWindow => exact steady_activationWindow s
  case activated => exact steady_activated s
  case coelRestart => exact ⟨_, rfl, .of_frame (frame_ite ((frame_settle _).trans ((frame_eventAll _ _).trans rfl)) rfl)⟩
  case watchdogRestart => exact steady_watchdogRestart s
  -- Limits, clocks and the links between dies.
  case thermtrip | throttle | throttleStep | currentLimit | hbmTemp | hbmTempClear =>
    exact ⟨_, rfl, .of_frame (frame_onPower s _ _ _)⟩
  case undervolt | railFault | pcieFatal => exact ⟨_, rfl, .of_frame (frame_onFault s _ _)⟩
  case pwrGood => exact ⟨_, rfl, .of_frame (frame_ite rfl ((frame_raise_settle _ _).trans rfl))⟩
  case domainPower => exact ⟨_, rfl, .of_frame ((frame_onFault _ _ _).trans (frame_ite (frame_failTraining s _) rfl))⟩
  case pcieRefclkLoss =>
    exact ⟨_, rfl, .of_frame (frame_ite rfl (frame_ite ((frame_settle _).trans ((frame_linkReset _).trans rfl)) rfl))⟩
  case pcieRefclkReturn => exact ⟨_, rfl, .of_frame rfl⟩
  case fabRefclkLoss =>
    exact ⟨_, rfl, .of_frame (frame_ite rfl ((frame_raise_settle _ _).trans ((frame_foldl frame_dropLink _ _).trans rfl)))⟩
  case laneFail l m lane => exact steady_laneFail l m lane s
  case d2dDown l => exact steady_d2dDown l s
  case marginMeasure kind idx value => exact steady_marginMeasure kind idx value s
  case entropyFail => exact ⟨_, rfl, .of_frame (frame_ite ((frame_onFault _ _ _).trans rfl) rfl)⟩
  case pcieLinkTrained => exact ⟨_, rfl, .of_frame (frame_ite ((frame_release _).trans rfl) rfl)⟩
  -- Mailboxes and fences.
  case mbxRequestTake m slot => exact steady_mbxRequestTake m slot s
  case cmdStart core => exact steady_cmdStart core s
  case deferredStart => exact ⟨_, rfl, .of_frame (frame_ite (by simp [State.frame]) rfl)⟩
  case fencePowerOff => exact ⟨_, rfl, .of_frame (frame_ite ((frame_answerWaiters _ _ _ _).trans rfl) rfl)⟩
  case fenceCompletions k => exact steady_fenceCompletions k s
  case unfence k => exact steady_unfence k s
  -- Commands whose effect is one change of the state.
  case dpEnable | pkgStatus | coreStatus | ckptConfig | epochRetain | poolConfig | tierConfig | tierStatus | flsStatus
      | fwStatus | fwDiscard | queRead | qryAbort =>
    exact ⟨_, rfl, steady_cmd _ _ fun _ _ => .of_frame rfl⟩
  case queCreate | queModify | quePause | queResume | queDestroy | queReset =>
    exact ⟨_, rfl, steady_cmd _ _ fun _ _ => .of_frame rfl⟩
  case cmdResult | ephRead | idxTier | bftPdDestroy | bftRegDestroy | bftRrDestroy | fcuReact | fwConfirm | budSet =>
    refine ⟨_, rfl, steady_cmd _ _ fun _ _ => .of_frame ?_⟩
    (repeat' split) <;> rfl
  case shpSet | shpRead | trnWrite | idxUnload | fabStatus | bftPdCreate | partUnfence | marginRead | fwChunk | fwVerify =>
    refine ⟨_, rfl, steady_cmd _ _ fun _ _ => .of_frame ?_⟩
    dsimp only
    (repeat' split) <;> rfl
  case trnRead core host => exact steady_trnRead core host s
  case budRead => exact ⟨_, rfl, steady_cmd _ _ fun r _ => .of_frame (frame_toBuffer s r _ _)⟩
  case idxLoad =>
    exact ⟨_, rfl, steady_cmd _ _ fun _ _ => .of_frame (frame_end_ite rfl (frame_unshort _ _
      (frame_orWait _ _ (frame_orWait _ _ (frame_orWait _ _ (frame_setPipe s _))))))⟩
  case etabLoad =>
    exact ⟨_, rfl, steady_cmd _ _ fun _ _ => .of_frame (frame_end_ite rfl (frame_unshort _ _
      (frame_orWait _ _ (frame_orWait _ _ (frame_setPipe s _)))))⟩
  case idxCompact =>
    refine ⟨_, rfl, steady_cmd _ _ fun _ _ => .of_frame ?_⟩
    split
    · rfl
    · exact frame_orWait _ _ (frame_orWait _ _ (frame_setPipe s _))
  case fltLoad | fltDrop => exact ⟨_, rfl, steady_cmd _ _ fun r _ => .of_frame (frame_modFilters s r _)⟩
  case fltEdit core host => exact steady_fltEdit core host s
  case krnLoad =>
    refine ⟨_, rfl, steady_cmd _ _ fun _ _ => .of_frame (frame_end_ite rfl (frame_unshort _ _ ?_))⟩
    split
    · rfl
    · exact frame_setPipe s _
  case nbuLoad | rnetLoad =>
    refine ⟨_, rfl, steady_cmd _ _ fun _ _ => .of_frame (frame_unshort _ _ ?_)⟩
    split
    · rfl
    · exact frame_setPipe s _
  case iasAlloc | iasFree | iasAttr =>
    refine ⟨_, rfl, steady_cmd _ _ fun _ _ => .of_frame (frame_unshort _ _ ?_)⟩
    dsimp only
    split <;> exact frame_setPipe s _
  case iasWrite =>
    refine ⟨_, rfl, steady_cmd _ _ fun _ _ => .of_frame (frame_unshort _ _ ?_)⟩
    split
    · rfl
    · dsimp only
      split <;> exact frame_setPipe s _
  case iasRead =>
    refine ⟨_, rfl, steady_cmd _ _ fun r _ => .of_frame (frame_unshort _ _ (frame_end_ite rfl ?_))⟩
    dsimp only
    split <;> exact frame_cmdRead _ _ _ s _
  case fabPortConfig =>
    exact ⟨_, rfl, steady_cmd _ _ fun r _ => .of_frame ((frame_raise _ _).trans (frame_foldl frame_dropLink _ s))⟩
  case bftRegCreate =>
    refine ⟨_, rfl, steady_cmd _ _ fun r _ => .of_frame (frame_pdScope _ _ (frame_end_ite rfl ?_))⟩
    exact frame_end_ite rfl rfl
  case bftRrCreate =>
    exact ⟨_, rfl, steady_cmd _ _ fun r _ => .of_frame (frame_pdScope _ _ (frame_end_ite rfl (frame_end_ite rfl rfl)))⟩
  case bftConnCreate =>
    refine ⟨_, rfl, steady_cmd _ _ fun r _ => .of_frame ?_⟩
    split
    · rfl
    · exact frame_pdScope _ _ (frame_end_ite rfl (frame_end_ite rfl rfl))
  case bftConnReset => exact ⟨_, rfl, steady_cmd _ _ fun r _ => .of_frame (frame_end_ite rfl (frame_withFab s _))⟩
  case bftKeyLoad => exact ⟨_, rfl, steady_cmd _ _ fun r _ => .of_frame (frame_keyless r fun _ => rfl)⟩
  case bftKeyAgreeGenerate => exact ⟨_, rfl, .ite (.refl s) (steady_cmd _ _ fun r _ => .of_frame (frame_keyless r fun _ => rfl))⟩
  case bftKeyAgreeComplete =>
    refine ⟨_, rfl, .ite (.refl s) (steady_cmd _ _ fun r _ => .of_frame (frame_keyless r fun _ => ?_))⟩
    dsimp only
    split
    · rfl
    · exact frame_end_ite rfl (frame_ite rfl rfl)
  case flsConfig => exact ⟨_, rfl, steady_cmd _ _ fun r _ => .of_frame (frame_end_ite ((frame_storePair _ _).trans rfl) rfl)⟩
  case partFence =>
    refine ⟨_, rfl, steady_cmd _ _ fun r _ => .of_frame ?_⟩
    dsimp only
    split
    · rfl
    · rfl
    · exact frame_fence s _ _
    · exact frame_end_ite ((frame_fence _ _ _).trans (frame_setPipe s _)) (frame_setPipe s _)
  case fwActivate =>
    exact ⟨_, rfl, steady_cmd _ _ fun r _ => .of_frame (frame_end_ite rfl (frame_end_ite (frame_startSlotA s) rfl))⟩

end Sys2Proof.Machine
end

section
/-!
PROOF. Sys2Proof/Proofs/StepInvariant.lean: what every command keeps, and the statements about every step (O1, O2, O3, O57 to
O60). Commands that neither restart the package nor restore the published epoch go on steadily (`exec_steady`); the others keep
the invariant (`Lasts`).
-/
namespace Sys2Proof.Machine

/-- What every command keeps: the build, the queue of commands, and the invariant of the rest. -/
structure Lasts (s t : State) : Prop where
  variant64 : t.variant64 = s.variant64
  pending : t.pending = s.pending
  mer : s.mer.Ok → t.mer.Ok
  boxes : s.mbx.length = 17 → t.mbx.length = 17
  links : s.d2d.length = 12 → t.d2d.length = 12

theorem Steady.lasts {s t : State} (h : Steady s t) : Lasts s t := ⟨h.variant64, h.pending, h.mer.ok, h.boxes.trans, h.links⟩

theorem Lasts.of_frame {s t : State} (h : t.frame = s.frame) : Lasts s t := (Steady.of_frame h).lasts

theorem Lasts.refl (s : State) : Lasts s s := .of_frame rfl

theorem Lasts.trans {s t u : State} (a : Lasts s t) (b : Lasts t u) : Lasts s u where
  variant64 := b.variant64.trans a.variant64
  pending := b.pending.trans a.pending
  mer h := b.mer (a.mer h)
  boxes h := b.boxes (a.boxes h)
  links h := b.links (a.links h)

theorem Lasts.then {s t u : State} (a : Lasts s t) (h : u.frame = t.frame) : Lasts s u := a.trans (.of_frame h)

theorem Lasts.ite {c : Prop} [Decidable c] {s t u : State} (ht : Lasts s t) (hu : Lasts s u) :
    Lasts s (if c then t else u) := by
  split
  · exact ht
  · exact hu

theorem Lasts.kept {s t : State} (h : Lasts s t) (hs : Kept s) : Kept t := by
  rw [kept_iff] at hs ⊢
  exact ⟨h.mer hs.1, h.boxes hs.2.1, h.links hs.2.2⟩

/-! ## The restarts and the boot stage that restores the epoch -/

theorem lasts_clear (s : State) : Lasts s s.clear := ⟨rfl, rfl, fun _ => Meridian.ok_reset, fun _ => rfl, fun _ => rfl⟩

theorem lasts_packageReset (s : State) (why : LastRst) : Lasts s (s.packageReset why) := (lasts_clear s).then rfl

theorem lasts_askReset (s : State) (after : AfterFlush) (why : LastRst) : Lasts s (s.askReset after why) :=
  .ite (.of_frame rfl) (.ite (.of_frame (frame_startFlush s after)) (lasts_packageReset s why))

/-- The outcome is a next state, which keeps what every command keeps. -/
def NextLasts (s : State) (o : Host.Outcome State Fault Refusal) : Prop := ∃ t, o = .next t ∧ Lasts s t

theorem lasts_powerOnReset (vddAon : Bool) (s : State) : NextLasts s (execPowerOnReset vddAon s) :=
  ⟨_, rfl, (lasts_clear s).then rfl⟩

theorem lasts_execPackageReset (s : State) : NextLasts s (execPackageReset s) :=
  let s1 := { s with pwr := { s.pwr with perst := true }, pcie := { s.pcie with trained := false } }
  have h1 : Lasts s s1 := .of_frame rfl
  ⟨_, rfl, .ite (h1.trans (lasts_askReset s1 _ _)) h1⟩

theorem lasts_rstCtl (v : W32) (s : State) : NextLasts s (execRstCtl v s) :=
  ⟨_, rfl, .ite (.ite (.refl s) (.ite (.refl s) (lasts_askReset s _ _))) (.refl s)⟩

theorem lasts_bootStart (s : State) : NextLasts s (execBootStart s) :=
  ⟨_, rfl, .ite (.refl s) (.ite (.of_frame rfl) (.ite ((lasts_packageReset s s.boot.lastRst).then rfl) (.refl s)))⟩

theorem lasts_flushRecord (s : State) : NextLasts s (execFlushRecord s) := by
  refine ⟨_, rfl, .ite ?_ (.refl s)⟩
  extract_lets f s1
  have h1 : Lasts s s1 := .of_frame rfl
  split
  · exact h1.trans (lasts_packageReset s1 _)
  · exact h1.trans (lasts_packageReset s1 _)
  · exact h1.then (frame_ite rfl rfl)

/-- The state of the FLASH stage before what failed is raised: the epochs follow the flash. -/
theorem flash_next (bad : List Nat) (found : FlashFound) (s : State) :
    ∃ t pub, execFlash bad found s = .next t ∧
      (t.frame = s.frame ∨ t.frame = ({ s with mer := { s.mer with pub := pub, pend := pub + 1 } } : State).frame) := by
  refine ⟨_, s.pipe.nand.pub, rfl, ?_⟩
  split
  · exact .inr ((frame_raise_settle _ _).trans (frame_failTraining _ _))
  · exact .inl rfl

theorem Meridian.Ok.restore {m : Meridian} (h : m.Ok) (pub : Nat) : Meridian.Ok { m with pub := pub, pend := pub + 1 } :=
  { h with pend := rfl }

theorem lasts_flash (bad : List Nat) (found : FlashFound) (s : State) : NextLasts s (execFlash bad found s) := by
  obtain ⟨t, pub, ht, h | h⟩ := flash_next bad found s
  · exact ⟨t, ht, .of_frame h⟩
  · have h1 : Lasts s { s with mer := { s.mer with pub := pub, pend := pub + 1 } } := ⟨rfl, rfl, (·.restore pub), id, id⟩
    exact ⟨t, ht, h1.then h⟩

/-! ## Every command -/

theorem exec_lasts (c : Instr) (s : State) : NextLasts s (exec c s) := by
  by_cases hr : RestartsPackage c
  · obtain ⟨b, rfl⟩ | rfl | ⟨v, rfl⟩ | rfl | rfl := hr
    · exact lasts_powerOnReset _ s
    · exact lasts_execPackageReset s
    · exact lasts_rstCtl _ s
    · exact lasts_bootStart s
    · exact lasts_flushRecord s
  · by_cases hf : RestoresEpoch c
    · obtain ⟨bad, found, rfl⟩ := hf
      exact lasts_flash _ _ s
    · obtain ⟨t, ht, h⟩ := exec_steady c s hr hf
      exact ⟨t, ht, h.lasts⟩

theorem lasts_of_exec {c : Instr} {s t : State} (h : exec c s = .next t) : Lasts s t := by
  obtain ⟨u, hu, hl⟩ := exec_lasts c s
  obtain rfl : u = t := Host.Outcome.next.inj (hu.symm.trans h)
  exact hl

/-- Settles O1: what step answers on a queue with a front. -/
theorem stepRunsFront : Obligations.StepRunsFront := fun _ _ _ => rfl

/-- Settles O2: step on an empty queue, and a table of words without a row. -/
theorem idleAndWords : Obligations.IdleAndWords := by
  refine ⟨fun s hs => ?_, fun _ _ _ => ⟨rfl, rfl⟩⟩
  simp only [step, hs]

/-- Settles O3: every command keeps what lasts, and so answers a next state. -/
theorem everyCommandAnswers : Obligations.EveryCommandAnswers := fun c s => by
  obtain ⟨t, ht, -⟩ := exec_lasts c s
  exact ⟨t, ht⟩

/-- Settles O57: the Meridian block at reset. -/
theorem keptAtReset : Obligations.KeptAtReset := (kept_iff _).mpr ⟨Meridian.ok_reset, rfl, rfl⟩

/-- Settles O58: every command keeps what lasts. -/
theorem keptByStep : Obligations.KeptByStep := by
  intro s t hs h
  unfold step at h
  split at h
  case h_1 =>
    cases h
    exact hs
  case h_2 c rest _ => exact (lasts_of_exec h).kept hs

/-- Settles O59: the queue and the build are among what lasts. -/
theorem commandsLeaveQueue : Obligations.CommandsLeaveQueue := fun _ _ _ h =>
  ⟨(lasts_of_exec h).pending, (lasts_of_exec h).variant64⟩

/-- Settles O60: a command that does not restart the package goes on steadily; the boot stage FLASH leaves the counter. -/
theorem timeNeverRunsBack : Obligations.TimeNeverRunsBack := by
  intro c s t hnow ht hpor hpr hrst hboot hrec
  have hr : ¬ RestartsPackage c := by
    rintro (⟨b, hc⟩ | hc | ⟨v, hc⟩ | hc | hc)
    · exact hpor b hc
    · exact hpr hc
    · exact hrst v hc
    · exact hboot hc
    · exact hrec hc
  by_cases hf : RestoresEpoch c
  · obtain ⟨bad, found, rfl⟩ := hf
    obtain ⟨u, pub, hu, h⟩ := flash_next bad found s
    obtain rfl : u = t := Host.Outcome.next.inj (hu.symm.trans ht)
    have hnow' : u.mer.now = s.mer.now := by
      obtain h | h := h
      · exact congrArg (fun f => f.2.2.1.now) h
      · exact congrArg (fun f => f.2.2.1.now) h
    exact ⟨Nat.le_of_eq hnow'.symm, fun hn => absurd rfl (hn bad found)⟩
  · obtain ⟨u, hu, h⟩ := exec_steady c s hr hf
    obtain rfl : u = t := Host.Outcome.next.inj (hu.symm.trans ht)
    exact ⟨(h.mer.now hnow).1, fun _ => h.mer.pub⟩

end Sys2Proof.Machine
end

section
/-!
PROOF. Instructions of a search core (O4, O6 to O9): what a context does whose turn it is, given what the instruction makes of
the pipeline and of the context.
-/
namespace Sys2Proof.Machine

open Sys2Proof.Claims

theorem ite_of_iff {α : Type} {b c : Prop} [Decidable b] [Decidable c] {x y u v : α} (h : b ↔ c) (hx : x = u) (hy : y = v) :
    (if b then x else y) = if c then u else v := by
  subst hx hy
  by_cases hb : b
  · rw [if_pos hb, if_pos (h.mp hb)]
  · rw [if_neg hb, if_neg (mt h.mpr hb)]

/-! ## Rows of the pipeline and of a core -/

theorem perform_quiet {s : State} {p : Pipe} (h : p.out = []) : perform s p = withPipe s p := settle_empty _ h

theorem onPipe_perform {s : State} (h : Calm s) (f : Pipe → Pipe) : s.onPipe f = perform s (f s.pipe) := if_pos h.1

theorem onPipe_withPipe {s : State} (h : Calm s) {f : Pipe → Pipe} (hf : (f s.pipe).out = []) :
    s.onPipe f = withPipe s (f s.pipe) := onPipe_quiet s f h.1 hf

theorem onCore_perform {s : State} {k : Nat} (h : CoreOn s k) (f : Pipe → Pipe) : s.onCore k f = perform s (f s.pipe) :=
  (if_pos h.2.1).trans (onPipe_perform h.1 f)

theorem onCore_withPipe {s : State} {k : Nat} (h : CoreOn s k) {f : Pipe → Pipe} (hf : (f s.pipe).out = []) :
    s.onCore k f = withPipe s (f s.pipe) := (onCore_perform h f).trans (perform_quiet hf)

@[simp] theorem ran_out (p : Pipe) (k x : Nat) : (ran p k x).out = p.out := rfl

/-! ## One instruction of a context -/

theorem ctxOn_runs {s : State} {k x : Nat} (h : CtxOn s k x) : (!s.pipe.ctxRuns k x || !(s.pipe.core k).mayIssue x) = false := by
  obtain ⟨⟨-, -, hk, hf⟩, hx, hm, -⟩ := h
  simp [Pipe.ctxRuns, hk, hx, hf, hm]

theorem runCtx_trap {s : State} {k x : Nat} (h : CtxOn s k x) (go : Pipe → CoreCtx → Pipe × Bool)
    (hk : (s.pipe.core k).inKernel x = true) : s.pipe.runCtx k x true go = s.pipe.kernelTrap k := by
  simp only [Pipe.runCtx, ctxOn_runs h, h.2.2.2, hk, Bool.and_self, Bool.false_eq_true, if_false, if_true]

theorem runCtx_go {s : State} {k x : Nat} (h : CtxOn s k x) {trap : Bool} (go : Pipe → CoreCtx → Pipe × Bool)
    (ht : (s.pipe.core k).inKernel x = true → trap = false) {q : Pipe} {w : Bool} (hgo : go s.pipe (ctxOf s k x) = (q, w)) :
    s.pipe.runCtx k x trap go = q.modCore k (fun c => c.issuedBy x w) := by
  have htrap : (trap && (s.pipe.core k).inKernel x) = false := by
    cases hk : (s.pipe.core k).inKernel x
    · exact Bool.and_false _
    · rw [ht hk, Bool.false_and]
  have hgo' : go s.pipe ((s.pipe.core k).ctx x) = (q, w) := hgo
  simp only [Pipe.runCtx, ctxOn_runs h, h.2.2.2, htrap, hgo', Bool.false_eq_true, if_false]

section
variable {s : State} {k x : Nat} (h : CtxOn s k x) {trap : Bool} {go : Pipe → CoreCtx → Pipe × Bool} {f : Pipe → Pipe}
  (hf : f s.pipe = s.pipe.runCtx k x trap go)
include h hf

/-- An instruction that traps does so in a kernel. -/
theorem ctx_traps (ht : trap = true) (hk : (s.pipe.core k).inKernel x = true) : s.onCore k f = perform s (s.pipe.kernelTrap k) := by
  rw [onCore_perform h.1, hf, ht, runCtx_trap h go hk]

/-- An instruction that does not trap, or runs in no kernel, makes the pipeline q. -/
theorem ctx_done (ht : (s.pipe.core k).inKernel x = true → trap = false) {q : Pipe} (hgo : go s.pipe (ctxOf s k x) = (q, false)) :
    s.onCore k f = perform s (ran q k x) := by
  rw [onCore_perform h.1, hf, runCtx_go h go ht hgo]
  rfl

theorem ctx_done_quiet (ht : (s.pipe.core k).inKernel x = true → trap = false) {q : Pipe}
    (hgo : go s.pipe (ctxOf s k x) = (q, false)) (hq : q.out = []) : s.onCore k f = withPipe s (ran q k x) :=
  (ctx_done h hf ht hgo).trans (perform_quiet hq)

/-- An instruction that waits leaves the pipeline. -/
theorem ctx_waits (ht : (s.pipe.core k).inKernel x = true → trap = false) (hgo : go s.pipe (ctxOf s k x) = (s.pipe, true)) :
    s.onCore k f = waits s k x := by
  rw [onCore_perform h.1, hf, runCtx_go h go ht hgo]
  exact perform_quiet h.1.1.2

end

/-! ## Scalar instructions -/

theorem exec_coreScalar {s : State} {k x : Nat} (h : CtxOn s k x) (op : ScalarOp)
    (ht : (s.pipe.core k).inKernel x = true → (op == .reserved) = false) :
    exec (.coreScalar k x op) s = .next (putCtx s k x (runScalar op (ctxOf s k x))) :=
  congrArg Host.Outcome.next (ctx_done_quiet h (f := coreScalar k x op) rfl ht rfl h.1.1.2)

theorem ofNat_b2n (b : Bool) : BitVec.ofNat 64 (b2n b) = if b = true then 1 else 0 := by
  cases b <;> rfl

theorem scalarEval_divU (a b : W64) (hb : b ≠ 0) : scalarEval .divU a b = BitVec.ofNat 64 (a.toNat / b.toNat) := by
  simp only [scalarEval, if_neg hb]
  apply BitVec.eq_of_toNat_eq
  rw [BitVec.toNat_udiv, BitVec.toNat_ofNat, Nat.mod_eq_of_lt (Nat.lt_of_le_of_lt (Nat.div_le_self _ _) a.isLt)]

theorem scalarEval_cmpEq (a b : W64) : scalarEval .cmpEq a b = if a = b then 1 else 0 := by
  simp [scalarEval, ofNat_b2n]

theorem scalarEval_cmpLt (a b : W64) : scalarEval .cmpLt a b = if a.toInt < b.toInt then 1 else 0 := by
  simp [scalarEval, ofNat_b2n, BitVec.slt]

theorem scalarEval_cmpLtU (a b : W64) : scalarEval .cmpLtU a b = if a.toNat < b.toNat then 1 else 0 := by
  simp [scalarEval, ofNat_b2n, BitVec.ult]

/-- Settles O4: each scalar instruction is `runScalar` of the context. -/
theorem coreScalarResults : Obligations.CoreScalarResults := by
  refine ⟨fun s k x h => ?_, fun a b => ?_⟩
  · refine ⟨fun f sd sa sb => exec_coreScalar h _ fun _ => rfl, fun f sd sa imm => exec_coreScalar h _ fun _ => rfl,
      fun f sa sb target hb => ?_, fun f sa sb target hb => ?_, fun f sa sb => exec_coreScalar h _ fun _ => rfl,
      fun hk => exec_coreScalar h _ fun hk' => absurd (hk'.symm.trans hk) (by decide),
      fun hk => congrArg Host.Outcome.next (ctx_traps h (f := coreScalar k x .reserved) rfl rfl hk)⟩
    · have h1 := exec_coreScalar h (.branch f sa sb target) fun _ => rfl
      simp only [runScalar, hb, if_true] at h1
      exact h1
    · have h1 := exec_coreScalar h (.branch f sa sb target) fun _ => rfl
      simp only [runScalar, hb, Bool.false_eq_true, if_false] at h1
      exact h1
  · have hshift : b.toNat < 64 → scalarEval .shl a b = a <<< b.toNat ∧ scalarEval .shr a b = a >>> b.toNat
        ∧ scalarEval .sar a b = a.sshiftRight b.toNat := fun hb => by simp [scalarEval, hb]
    exact ⟨rfl, rfl, rfl, scalarEval_divU a b, rfl, rfl, rfl, rfl, rfl, hshift, scalarEval_cmpEq a b, scalarEval_cmpLt a b,
      scalarEval_cmpLtU a b⟩

end Sys2Proof.Machine
end

section
/-!
PROOF. The array instructions of a search core (O8): a tile's handle, waiting for it, and the tile that joins the queue.
-/
namespace Sys2Proof.Machine

open Sys2Proof.Claims

theorem tileOver_iff (c : CoreSt) (h : Nat) : c.tileOver h = true ↔ ∀ t ∈ c.tiles, t.handle ≠ h := by
  simp [CoreSt.tileOver]

theorem inWindow_iff (a n : Nat) : inWindow a n = true ↔ 0x1400000 ≤ a ∧ a + n ≤ 0x2000000 := by
  rw [inWindow, Bool.and_eq_true, decide_eq_true_iff, decide_eq_true_iff]
  rfl

theorem inWindow_all_iff (l : List (Nat × Nat)) :
    l.all (fun r => inWindow r.1 r.2) = true ↔ ∀ r ∈ l, 0x1400000 ≤ r.1 ∧ r.1 + r.2 ≤ 0x2000000 := by
  simp [List.all_eq_true, inWindow_iff]

/-- What lies in the kernel window does not trap, and what does not traps. -/
theorem not_all_inWindow_eq_false {l : List (Nat × Nat)} (h : ∀ r ∈ l, 0x1400000 ≤ r.1 ∧ r.1 + r.2 ≤ 0x2000000) :
    (!l.all (fun r => inWindow r.1 r.2)) = false := by
  rw [(inWindow_all_iff l).mpr h, Bool.not_true]

theorem not_all_inWindow_eq_true {l : List (Nat × Nat)} (h : ¬ ∀ r ∈ l, 0x1400000 ≤ r.1 ∧ r.1 + r.2 ≤ 0x2000000) :
    (!l.all (fun r => inWindow r.1 r.2)) = true := by
  rw [Bool.eq_false_iff.mpr (mt (inWindow_all_iff l).mp h), Bool.not_false]

section
variable {s : State} {k x : Nat} (h : CtxOn s k x)
include h

theorem exec_mwait_over {sa : Nat} (ho : (s.pipe.core k).tileOver (((ctxOf s k x).reg sa).toNat % 65536) = true) :
    exec (.mwait k x sa) s = .next (putCtx s k x (ctxOf s k x).next) :=
  congrArg Host.Outcome.next (ctx_done_quiet h (f := coreMwait k x sa) rfl (fun _ => rfl) (if_pos ho) h.1.1.2)

theorem exec_mwait_waits {sa : Nat} (ho : ¬ (s.pipe.core k).tileOver (((ctxOf s k x).reg sa).toNat % 65536) = true) :
    exec (.mwait k x sa) s = .next (waits s k x) :=
  congrArg Host.Outcome.next (ctx_waits h (f := coreMwait k x sa) rfl (fun _ => rfl) (if_neg ho))

theorem exec_mtest (sd sa : Nat) {b : Bool} {v : W64} (ho : (s.pipe.core k).tileOver (((ctxOf s k x).reg sa).toNat % 65536) = b)
    (hv : BitVec.ofNat 64 (b2n b) = v) : exec (.mtest k x sd sa) s = .next (putCtx s k x ((ctxOf s k x).setReg sd v).next) := by
  subst ho hv
  exact congrArg Host.Outcome.next (ctx_done_quiet h (f := coreMtest k x sd sa) rfl (fun _ => rfl) rfl h.1.1.2)

theorem exec_mdrain_over (ho : (ctxOf s k x).issued.all (s.pipe.core k).tileOver = true) :
    exec (.mdrain k x) s = .next (putCtx s k x { (ctxOf s k x).next with issued := [] }) :=
  congrArg Host.Outcome.next (ctx_done_quiet h (f := coreMdrain k x) rfl (fun _ => rfl) (if_pos ho) h.1.1.2)

theorem exec_mdrain_waits (ho : ¬ (ctxOf s k x).issued.all (s.pipe.core k).tileOver = true) :
    exec (.mdrain k x) s = .next (waits s k x) :=
  congrArg Host.Outcome.next (ctx_waits h (f := coreMdrain k x) rfl (fun _ => rfl) (if_neg ho))

end

/-- The descriptor that MTILE reads, and the areas that it and its tile name. -/
def mtileAt (s : State) (k x sa : Nat) : Nat := ((ctxOf s k x).reg sa).toNat / 64 * 64 % 2 ^ 25
def mtileDesc (s : State) (k x sa : Nat) : TileDesc := decodeTile (s.pipe.plateRead k (mtileAt s k x sa) 64)
def mtileAreas (s : State) (k x sa : Nat) : List (Nat × Nat) := (mtileAt s k x sa, 64) :: (mtileDesc s k x sa).areas

/-- What the query of a kernel is to a tile that it enqueues: its invocation, its job, and the class of that job. -/
def mtileInv (p : Pipe) (k x : Nat) : Option Invocation := if (p.core k).inKernel x then (p.core k).inv else none
def invJob (inv : Option Invocation) : Nat := match inv with | some v => v.job | none => 0
def invJobs (inv : Option Invocation) : List Nat := match inv with | some v => [v.job] | none => []
def jobCls (p : Pipe) (j : Nat) : Nat := match p.jobs.get? j with | some jb => jb.cls 1 | none => 1

/-- The pipeline once the tile of a descriptor has joined the queue, after the units u have been read. -/
def mtileDone (p : Pipe) (u : Pipe) (k x sd : Nat) (d : TileDesc) (c : CoreCtx) : Pipe :=
  let h := (p.core k).nextHandle
  let inv := mtileInv p k x
  (u.addTile k (p.tileOf k d (jobCls p (invJob inv)) (invJobs inv) (inv.map (·.ords)))).setCtx k x
    { c.setReg sd (BitVec.ofNat 64 h) with pc := c.pc + 8, issued := c.issued ++ [h] }

/-- The units of index rows that a tile reads, read. -/
def mtileUnits (p : Pipe) (d : TileDesc) : Pipe × Option Nat :=
  p.readUnits ((d.reads.flatMap (fun r => p.iasUnits r.1 r.2)).eraseDups)

/-- What MTILE does with a descriptor whose areas do not trap. -/
def mtileGo (k x sd : Nat) (d : TileDesc) (p : Pipe) (c : CoreCtx) : Pipe × Bool :=
  if (p.core k).tiles.length ≥ 64 then (p, true)
  else if !d.reads.all (fun r => p.iasReady r.1 r.2) then
    let w := d.reads.foldl (fun (r : Pipe × Bool) x => let y := r.1.want x.1 x.2; (y.1, r.2 || y.2)) (p, false)
    (if w.2 then w.1.endJob (invJob (mtileInv p k x)) stABORTED none else w.1, true)
  else
    let u := mtileUnits p d
    let q := mtileDone p u.1 k x sd d c
    (if u.2.isSome then q.endJob (invJob (mtileInv p k x)) stABORTED (some k) else q, false)

theorem coreMtile_eq (s : State) (k x sd sa : Nat) : coreMtile k x sd sa s.pipe =
    s.pipe.runCtx k x (!(mtileAreas s k x sa).all (fun r => inWindow r.1 r.2)) (mtileGo k x sd (mtileDesc s k x sa)) := rfl

theorem mtileGo_ready {k x sd : Nat} {d : TileDesc} {p : Pipe} {c : CoreCtx} (hlen : (p.core k).tiles.length < 64)
    (hready : ∀ r ∈ d.reads, p.iasReady r.1 r.2 = true) :
    mtileGo k x sd d p c = (if (mtileUnits p d).2.isSome then (mtileDone p (mtileUnits p d).1 k x sd d c).endJob
      (invJob (mtileInv p k x)) stABORTED (some k) else mtileDone p (mtileUnits p d).1 k x sd d c, false) := by
  have hall : (!d.reads.all (fun r => p.iasReady r.1 r.2)) = false := by
    rw [List.all_eq_true.mpr hready, Bool.not_true]
  simp only [mtileGo, Nat.not_le.mpr hlen, hall, Bool.false_eq_true, if_false]

/-- Settles O8: each instruction with its tiles over or not; MTILE with its areas in the window or not. -/
theorem tileInstructions : Obligations.TileInstructions := by
  refine ⟨fun s k x h => ?_, fun s k x sd sa h => ?_⟩
  · intro c ended
    have hover : ∀ n, (s.pipe.core k).tileOver n = true ↔ ended n := tileOver_iff _
    have hall : c.issued.all (s.pipe.core k).tileOver = true ↔ ∀ n ∈ c.issued, ended n := by
      simp only [List.all_eq_true, hover]
    refine ⟨fun sa ho => exec_mwait_over h ((hover _).mpr ho), fun sa ho => exec_mwait_waits h (mt (hover _).mp ho),
      fun sd sa ho => exec_mtest h sd sa ((hover _).mpr ho) rfl,
      fun sd sa ho => exec_mtest h sd sa (Bool.eq_false_iff.mpr (mt (hover _).mp ho)) rfl,
      fun ho => exec_mdrain_over h (hall.mpr ho), fun ⟨n, hn, hno⟩ => exec_mdrain_waits h fun ho => hno (hall.mp ho n hn)⟩
  · intro c a d n inside inv cls tile
    have hgo := coreMtile_eq s k x sd sa
    have hnext : exec (.mtile k x sd sa) s = .next (s.onCore k (coreMtile k x sd sa)) := rfl
    rw [hnext]
    refine ⟨fun hk hout => congrArg Host.Outcome.next (ctx_traps h hgo (not_all_inWindow_eq_true hout) hk), fun hin => ⟨?_, ?_⟩⟩
    · intro hlen hready u q
      have hq := mtileGo_ready (x := x) (sd := sd) (c := ctxOf s k x) hlen hready
      have htrap := fun hk => not_all_inWindow_eq_false (hin hk)
      refine ⟨fun hu => ?_, fun hu => ?_⟩
      · have hu' : (mtileUnits s.pipe d).2 = none := hu
        simp only [hu', Option.isSome_none, Bool.false_eq_true, if_false] at hq
        exact congrArg Host.Outcome.next (ctx_done h hgo htrap hq)
      · have hu' : (mtileUnits s.pipe d).2.isSome = true := Option.isSome_iff_ne_none.mpr hu
        simp only [hu', if_true] at hq
        exact congrArg Host.Outcome.next (ctx_done h hgo htrap hq)
    · exact fun hlen => congrArg Host.Outcome.next (ctx_waits h hgo (fun hk => not_all_inWindow_eq_false (hin hk)) (if_pos hlen))

end Sys2Proof.Machine
end

section
/-!
PROOF. What operations of the pipeline list for the rest of the package: memory, pages and plate memory list nothing or the faults
of what they meet, and the end of a job keeps what is listed.
-/
namespace Sys2Proof.Machine

/-- What was listed stays listed, in its order. -/
def Pipe.Adds (p q : Pipe) : Prop := p.out <+: q.out

theorem Pipe.Adds.refl (p : Pipe) : p.Adds p := List.prefix_rfl

theorem Pipe.Adds.of_eq {p q : Pipe} (h : q.out = p.out) : p.Adds q := by
  unfold Pipe.Adds
  exact h ▸ List.prefix_rfl

theorem Pipe.Adds.trans {p q r : Pipe} (a : p.Adds q) (b : q.Adds r) : p.Adds r := List.IsPrefix.trans a b

theorem Pipe.Adds.after {p q r : Pipe} (h : q.Adds r) (e : q.out = p.out) : p.Adds r := (Pipe.Adds.of_eq e).trans h

theorem Pipe.Adds.ite {c : Prop} [Decidable c] {p q r : Pipe} (hq : p.Adds q) (hr : p.Adds r) : p.Adds (if c then q else r) := by
  split
  · exact hq
  · exact hr

theorem Pipe.Adds.foldl {α : Type} {f : Pipe → α → Pipe} (h : ∀ (p : Pipe) x, p.Adds (f p x)) (l : List α) (p : Pipe) : p.Adds (l.foldl f p) := by
  induction l generalizing p with
  | nil => exact .refl p
  | cons x xs ih => exact (h p x).trans (ih _)

theorem out_foldl {α : Type} {f : Pipe → α → Pipe} (h : ∀ p x, (f p x).out = p.out) (l : List α) (p : Pipe) :
    (l.foldl f p).out = p.out := by
  induction l generalizing p with
  | nil => rfl
  | cons x xs ih => exact (ih _).trans (h p x)

theorem out_ite {c : Prop} [Decidable c] {p q r : Pipe} (hq : q.out = p.out) (hr : r.out = p.out) :
    (if c then q else r).out = p.out := by
  split
  · exact hq
  · exact hr

/-! ## Memory and pages -/

@[simp] theorem Pipe.setTier_out (p : Pipe) (pg : PageId) (e : TierEnt) : (p.setTier pg e).out = p.out := by
  cases pg with
  | gen n =>
    simp only [Pipe.setTier, Pipe.showTier]
    split <;> rfl
  | bank k pc f => rfl

@[simp] theorem Pipe.cleanUnits_out (p : Pipe) (key n : Nat) : (p.cleanUnits key n).out = p.out := out_ite rfl rfl

@[simp] theorem Pipe.hbmClear_out (p : Pipe) (key n : Nat) : (p.hbmClear key n).out = p.out := p.cleanUnits_out key n

@[simp] theorem Pipe.hbmFill_out (p : Pipe) (src : Mem) (a key n : Nat) : (p.hbmFill src a key n).out = p.out := p.cleanUnits_out key n

@[simp] theorem Pipe.corrected_out (p : Pipe) (us : List Nat) : (p.corrected us).out = p.out := by
  unfold Pipe.corrected
  exact out_foldl (fun _ _ => Pipe.modPart_out _ _ _) us p

@[simp] theorem Pipe.hbmMove_out (p : Pipe) (a key n : Nat) : (p.hbmMove a key n).out = p.out := by
  unfold Pipe.hbmMove
  dsimp only
  exact out_ite (by simp) (by simp)

theorem Pipe.markUE_adds (p : Pipe) (u : Nat) : p.Adds (p.markUE u) := List.prefix_append _ _

theorem Pipe.hbmWrite_adds (p : Pipe) (key : Nat) (bs : List Byte) : p.Adds (p.hbmWrite key bs) := by
  unfold Pipe.hbmWrite
  refine .ite (.of_eq rfl) ?_
  extract_lets us part w q hit kept mem
  have hq : p.Adds q := .of_eq (p.corrected_out part)
  exact hq.trans (.trans (q := { q with hbm := mem, poison := _ }) (.of_eq rfl) (.foldl (fun p u => p.markUE_adds (u / 2 ^ 25)) kept _))

@[simp] theorem Pipe.relocate_out (p : Pipe) (n : Nat) (e : TierEnt) : (p.relocate n e).1.out = p.out := by
  unfold Pipe.relocate
  dsimp only
  split
  · rfl
  · simp

@[simp] theorem Pipe.evictPage_out (p : Pipe) (n : Nat) (e : TierEnt) : (p.evictPage n e).1.out = p.out := by
  unfold Pipe.evictPage
  split
  · simp
  · split
    · simp
    · simp

@[simp] theorem Pipe.evict_out (p : Pipe) (k : Nat) : (p.evict k).1.out = p.out := by
  unfold Pipe.evict
  extract_lets c pass p1 victim
  have h1 : p1.out = p.out := out_foldl (fun p x => p.setTier_out _ _) pass p
  clear_value victim
  cases victim with
  | none => exact h1
  | some v => exact (Pipe.evictPage_out _ _ _).trans h1

@[simp] theorem Pipe.takeFrame_out (p : Pipe) (k : Nat) (m : Bool) : (p.takeFrame k m).1.out = p.out := by
  unfold Pipe.takeFrame
  extract_lets take
  split
  · rfl
  · have he := p.evict_out k
    generalize p.evict k = r at he ⊢
    obtain ⟨p1, r⟩ := r
    dsimp only at he ⊢
    repeat' split
    all_goals exact he

@[simp] theorem Pipe.vacate_out (p : Pipe) (k pc f : Nat) : (p.vacate k pc f).1.out = p.out := by
  unfold Pipe.vacate
  split
  · rfl
  cases p.holder k pc f with
  | none => rfl
  | some g =>
    dsimp only
    split
    · rfl
    split
    · have hr := p.relocate_out g.1 g.2
      generalize p.relocate g.1 g.2 = r at hr ⊢
      obtain ⟨p1, b⟩ := r
      cases b <;> exact hr
    · have he := p.evictPage_out g.1 g.2
      generalize p.evictPage g.1 g.2 = v at he ⊢
      obtain ⟨p1, w⟩ := v
      cases w <;> exact he

@[simp] theorem Pipe.exhausted_out (p : Pipe) (k : Nat) : (p.exhausted k).out = p.out := rfl

@[simp] theorem Pipe.moveIn_out (p : Pipe) (pg : PageId) : (p.moveIn pg).1.out = p.out := by
  unfold Pipe.moveIn
  extract_lets e read
  have hread : ∀ q : Pipe, (read q).out = q.out := fun _ => rfl
  clear_value read
  cases pg with
  | gen n =>
    dsimp only
    split
    · rfl
    split
    · rfl
    split
    · rfl
    have h := p.takeFrame_out e.home true
    generalize p.takeFrame e.home true = r at h ⊢
    obtain ⟨p1, r⟩ := r
    cases r <;> simpa [hread] using h
  | bank k pc f =>
    dsimp only
    have h := p.vacate_out k pc f
    generalize p.vacate k pc f = r at h ⊢
    obtain ⟨p1, r⟩ := r
    split
    · split
      · rfl
      · cases r <;> simpa [hread] using h
    split
    · rfl
    split
    · rfl
    · cases r <;> simpa [hread] using h

@[simp] theorem Pipe.want_out (p : Pipe) (a n : Nat) : (p.want a n).1.out = p.out := by
  have h : ∀ (l : List PageId) (acc : Pipe × Bool), (l.foldl (fun (acc : Pipe × Bool) pg =>
      if (acc.1.tier pg).here then acc else
      let (p1, r) := acc.1.moveIn pg
      (p1, acc.2 || (match r with | .fail => true | _ => false))) acc).1.out = acc.1.out := by
    intro l
    induction l with
    | nil => exact fun _ => rfl
    | cons pg l ih =>
      intro acc
      refine (ih _).trans ?_
      dsimp only
      split
      · rfl
      · exact acc.1.moveIn_out pg
  exact h _ (p, false)

theorem Pipe.pageWrite_adds (p : Pipe) (who : Nat) (pg : PageId) (off : Nat) (bs : List Byte) : p.Adds (p.pageWrite who pg off bs).1 := by
  unfold Pipe.pageWrite
  extract_lets e put
  have hput : ∀ q e', p.Adds q → p.Adds (put q e') := by
    intro q e' hq
    have h := hq.trans (.trans (.of_eq (q.setTier_out pg { e' with st := .hbm, dirty := true, ref := true }))
      (Pipe.hbmWrite_adds _ (hbmKey e'.home e'.pc (e'.frame * 65536 + off)) bs))
    dsimp only [put]
    split
    · split
      · exact h.trans (.of_eq rfl)
      · exact h
    · exact h
  cases e.st with
  | unmapped => exact .of_eq rfl
  | zero =>
    cases pg with
    | gen n =>
      have h := p.takeFrame_out e.home false
      generalize p.takeFrame e.home false = r at h ⊢
      obtain ⟨p1, r⟩ := r
      cases r with
      | got pc f => exact hput _ _ (.of_eq ((Pipe.hbmClear_out _ _ _).trans h))
      | wait => exact .of_eq h
      | fail => exact .of_eq h
    | bank k pc f =>
      dsimp only
      have h := p.vacate_out k pc f
      generalize p.vacate k pc f = r at h ⊢
      obtain ⟨p1, r⟩ := r
      cases r with
      | got pc' f' => exact hput _ _ (.of_eq ((Pipe.hbmClear_out _ _ _).trans h))
      | wait => exact .of_eq h
      | fail => exact .of_eq h
  | hbm => exact hput p e (.refl p)
  | out => exact hput p e (.refl p)
  | flash =>
    dsimp only
    have h := p.moveIn_out pg
    generalize p.moveIn pg = r at h ⊢
    obtain ⟨p1, r⟩ := r
    cases r <;> exact .of_eq h
  | in_ => exact .refl p

theorem Pipe.writeParts_adds (who : Nat) (l : List (Nat × List Byte)) (p : Pipe) (n : Nat) : p.Adds (p.writeParts who l n).1 := by
  induction l generalizing p n with
  | nil => exact .refl p
  | cons x rest ih =>
    obtain ⟨a, bs⟩ := x
    have hw : ∀ pg off, p.Adds (match p.pageWrite who pg off bs with
        | (p1, .done) => p1.writeParts who rest (n + bs.length)
        | (p1, r) => (p1, r, n)).1 := by
      intro pg off
      have h := p.pageWrite_adds who pg off bs
      split <;> rename_i heq <;> rw [heq] at h
      · exact h.trans (ih _ _)
      · exact h
    unfold Pipe.writeParts
    split
    · split
      · exact .trans (q := p.modPart who fun q => { q with dropped := q.dropped + 1 }) (.of_eq rfl) (ih _ _)
      · split
        · exact (p.hbmWrite_adds _ _).trans (ih _ _)
        · exact hw _ _
    · exact hw _ _

theorem Pipe.iasWrite_adds (p : Pipe) (who a : Nat) (bs : List Byte) : p.Adds (p.iasWrite who a bs).1 := Pipe.writeParts_adds _ _ _ _

theorem Pipe.flushLate_adds (p : Pipe) (n : Nat) : p.Adds (p.flushLate n) := by
  induction n generalizing p with
  | zero => exact .refl p
  | succ n ih =>
    unfold Pipe.flushLate
    split
    · exact .refl p
    · rename_i who a bs rest _
      have h : p.Adds (({ p with late := rest } : Pipe).iasWrite who a bs).1 :=
        (Pipe.iasWrite_adds { p with late := rest } who a bs).after rfl
      split <;> rename_i heq <;> rw [heq] at h
      · exact h.trans (ih _)
      · exact h
      · exact h.trans (ih _)

theorem Pipe.iasPut_adds (p : Pipe) (who a : Nat) (bs : List Byte) : p.Adds (p.iasPut who a bs) :=
  .ite ((Pipe.flushLate_adds { p with late := p.late ++ [(who, a, bs)] } 1).after rfl) (.of_eq rfl)

/-! ## Selection requests -/

@[simp] theorem Pipe.showSel_out (p : Pipe) (k n : Nat) : (p.showSel k n).out = p.out := by
  unfold Pipe.showSel
  dsimp only
  split <;> simp only [Pipe.plateWrite_out]

@[simp] theorem Pipe.dropSel_out (p : Pipe) (k n : Nat) : (p.dropSel k n).out = p.out := Pipe.showSel_out _ k n

@[simp] theorem Pipe.keepList_out (p : Pipe) (k : Nat) (r : SelReq) : (p.keepList k r).out = p.out := out_ite rfl rfl

@[simp] theorem Pipe.putSel_out (p : Pipe) (k n : Nat) (r : SelReq) : (p.putSel k n r).out = p.out :=
  (Pipe.showSel_out _ k n).trans (Pipe.keepList_out _ k r)

@[simp] theorem Pipe.forward_out (p : Pipe) (r : SelReq) : (p.forward r).out = p.out := out_ite rfl rfl

@[simp] theorem Pipe.closeUser_out (p : Pipe) (k n : Nat) (r : SelReq) : (p.closeUser k n r).out = p.out := by
  unfold Pipe.closeUser
  dsimp only
  exact out_ite ((Pipe.forward_out _ _).trans (Pipe.showSel_out _ k n))
    (out_ite (p := p) (Pipe.showSel_out _ k n) (Pipe.showSel_out _ k n))

@[simp] theorem Pipe.putBlocks_out (p : Pipe) (k target : Nat) (src : BlockSrc) (job : Nat) (mapped : Bool) (es : List (W32 × Nat × Nat)) :
    (p.putBlocks k target src job mapped es).out = p.out := rfl

@[simp] theorem Pipe.deliver_out (p : Pipe) (k target : Nat) (src : BlockSrc) (job : Nat) (es : List (W32 × Nat × Nat)) :
    (p.deliver k target src job es).out = p.out := by
  unfold Pipe.deliver
  split
  · exact out_ite rfl rfl
  · rfl

@[simp] theorem Pipe.reside_out (p : Pipe) (k n : Nat) : (p.reside k n).out = p.out := by
  unfold Pipe.reside
  dsimp only
  split
  · rfl
  · split
    · exact out_ite rfl rfl
    · rfl

/-! ## The end of a job -/

theorem Pipe.clearLock_adds (p : Pipe) (k addr : Nat) : p.Adds (p.clearLock k addr) := .ite (p.iasPut_adds _ _ _) (.refl p)

theorem Pipe.unlockJob_adds (p : Pipe) (j : Nat) : p.Adds (p.unlockJob j) := by
  have h := Pipe.Adds.foldl (fun (p : Pipe) (x : Nat × Nat) => p.clearLock_adds x.1 x.2)
    ((List.range 16).flatMap (fun k => ((p.part k).locks.filter (·.job == j)).map (fun l => (k, l.addr)))) p
  unfold Pipe.unlockJob
  dsimp only
  generalize List.foldl _ p _ = q at h ⊢
  exact h

@[simp] theorem Pipe.discardAll_out (p : Pipe) (j : Nat) : (p.discardAll j).out = p.out :=
  out_foldl (fun p _ => out_foldl (fun p _ => p.dropSel_out _ _) _ p) _ p

theorem Pipe.letGo_adds (p : Pipe) (j : Nat) : p.Adds (p.letGo j) := by
  have h : p.Adds ((p.unlockJob j).discardAll j) := (p.unlockJob_adds j).trans (.of_eq (Pipe.discardAll_out _ j))
  unfold Pipe.letGo
  generalize (p.unlockJob j).discardAll j = q at h ⊢
  exact h

@[simp] theorem Pipe.reserveFor_out (p : Pipe) (cq : Nat) : (p.reserveFor cq).out = p.out := by
  unfold Pipe.reserveFor
  split
  · rfl
  · exact out_ite rfl rfl

@[simp] theorem Pipe.toCompletion_out (p : Pipe) (j : Nat) : (p.toCompletion j).out = p.out := by
  unfold Pipe.toCompletion
  dsimp only
  split
  · exact out_ite rfl (Pipe.reserveFor_out _ _)
  · rfl

theorem Pipe.endJob_adds (p : Pipe) (j status : Nat) (f : Option Nat) : p.Adds (p.endJob j status f) := by
  unfold Pipe.endJob
  split
  · exact .refl p
  · exact .ite (.refl p) ((p.letGo_adds j).trans (.of_eq ((Pipe.toCompletion_out _ j).trans (Pipe.modJob_out _ _ _))))

end Sys2Proof.Machine
end

section
/-!
PROOF. Vector instructions and accesses of plate memory by a search core (O6, O7).
-/
namespace Sys2Proof.Machine

open Sys2Proof.Claims

/-! ## Vector instructions -/

/-- A vector instruction of a context that has, or finds, a slot; and of one that finds none. -/
theorem runVec_go {p : Pipe} {k x : Nat} {trap : Bool} {go : Pipe → CoreCtx → Nat → VSlot → Pipe × Bool} :
    p.runVec k x trap go = p.runCtx k x trap (fun p c =>
      match (p.core k).acquire x with
      | none => (p, true)
      | some (n, v) => go p c n v) := rfl

section
variable {s : State} {k x : Nat} (h : CtxOn s k x) {trap : Bool} {go : Pipe → CoreCtx → Nat → VSlot → Pipe × Bool} {f : Pipe → Pipe}
  (hf : f s.pipe = s.pipe.runVec k x trap go) (ht : (s.pipe.core k).inKernel x = true → trap = false)
include h hf ht

theorem vec_done {n : Nat} {v : VSlot} (ha : (s.pipe.core k).acquire x = some (n, v)) {q : Pipe}
    (hgo : go s.pipe (ctxOf s k x) n v = (q, false)) : s.onCore k f = perform s (ran q k x) :=
  ctx_done h hf ht (by rw [ha]; exact hgo)

theorem vec_waits (ha : (s.pipe.core k).acquire x = none) : s.onCore k f = waits s k x :=
  ctx_waits h hf ht (by rw [ha])

end

theorem exec_coreVector {s : State} {k x : Nat} (h : CtxOn s k x) {n : Nat} {v : VSlot}
    (ha : (s.pipe.core k).acquire x = some (n, v)) {op : VecOp} (hv : vecValid op = true) :
    exec (.coreVector k x op) s =
      .next (putVec s k x n (runVecOp op v (ctxOf s k x)).1 (runVecOp op v (ctxOf s k x)).2) := by
  have hgo : (if vecValid op then s.pipe.setVec k x n (runVecOp op v (ctxOf s k x)).1 (runVecOp op v (ctxOf s k x)).2
      else s.pipe.setCtx k x (ctxOf s k x).next, false) =
      (s.pipe.setVec k x n (runVecOp op v (ctxOf s k x)).1 (runVecOp op v (ctxOf s k x)).2, false) := by rw [if_pos hv]
  have htrap : (s.pipe.core k).inKernel x = true → (!vecValid op) = false := fun _ => by rw [hv, Bool.not_true]
  exact congrArg Host.Outcome.next ((vec_done h (f := coreVector k x op) rfl htrap ha hgo).trans (perform_quiet h.1.1.2))

theorem exec_coreVector_waits {s : State} {k x : Nat} (h : CtxOn s k x) (ha : (s.pipe.core k).acquire x = none) {op : VecOp}
    (hv : vecValid op = true) : exec (.coreVector k x op) s = .next (waits s k x) :=
  congrArg Host.Outcome.next (vec_waits h (f := coreVector k x op) rfl (fun _ => by rw [hv, Bool.not_true]) ha)

theorem exec_vfree {s : State} {k x : Nat} (h : CtxOn s k x) :
    exec (.vfree k x) s = .next (withPipe s (ran ((s.pipe.setCtx k x (ctxOf s k x).next).modCore k (fun y =>
      { y with vslots := y.vslots.filter (fun v => v.2.ctx != x) })) k x)) :=
  congrArg Host.Outcome.next (ctx_done_quiet h (f := coreVfree k x) rfl (fun _ => rfl) rfl h.1.1.2)

/-- Settles O7: a vector instruction is `runVecOp` in the slot that the context has or finds. -/
theorem coreVectorResults : Obligations.CoreVectorResults := by
  intro s k x h c
  refine ⟨fun n v ha => ⟨fun f fmt qd qa qb qc hf => ?_, fun f fmt sd qa hf => ?_, fun op hv => exec_coreVector h ha hv⟩,
    fun op ha hv => exec_coreVector_waits h ha hv, exec_vfree h⟩
  · exact exec_coreVector h ha (op := .elem f fmt qd qa qb qc) (decide_eq_true hf)
  · exact exec_coreVector h ha (op := .reduce f fmt sd qa) (decide_eq_true hf)

/-! ## Accesses of plate memory -/

theorem recByte_of_window {a : Nat} (ha : 0x1400000 ≤ a) : recByte a = none := by
  unfold recByte
  rw [if_neg]
  simp only [Bool.and_eq_true, decide_eq_true_eq]
  omega

theorem plateAddr_of_lt {a : Nat} (ha : a < 0x2000000) : plateAddr a = a := Nat.mod_eq_of_lt ha

theorem recByte_in_window {a n i : Nat} (ha : 0x1400000 ≤ a) (hn : a + n ≤ 0x2000000) (hi : i < n) :
    recByte (plateAddr (a + i)) = none := by
  rw [plateAddr_of_lt (by omega), recByte_of_window (by omega)]

theorem storeByte_of_no_record {p : Pipe} {k b : Nat} (h : recByte b = none) (v : Byte) : p.storeByte k b v = p := by
  simp only [Pipe.storeByte, h]

theorem plateStore_in_window {p : Pipe} {k a : Nat} {bs : List Byte} (ha : 0x1400000 ≤ a) (hn : a + bs.length ≤ 0x2000000) :
    p.plateStore k a bs = p.plateWrite k a bs := by
  unfold Pipe.plateStore
  generalize p.plateWrite k a bs = q
  have hnone : ∀ b ∈ bs.zipIdx, recByte (plateAddr (a + b.2)) = none := fun b hb =>
    recByte_in_window ha hn (List.snd_lt_of_mem_zipIdx hb)
  generalize bs.zipIdx = l at hnone
  induction l with
  | nil => rfl
  | cons b l ih =>
    rw [List.foldl_cons, storeByte_of_no_record (hnone b List.mem_cons_self)]
    exact ih fun b hb => hnone b (List.mem_cons_of_mem _ hb)

theorem storeWaits_in_window {p : Pipe} {k a : Nat} {bs : List Byte} (ha : 0x1400000 ≤ a) (hn : a + bs.length ≤ 0x2000000) :
    p.storeWaits k a bs = false := by
  unfold Pipe.storeWaits
  rw [List.any_eq_false]
  intro b hb
  rw [recByte_in_window ha hn (List.snd_lt_of_mem_zipIdx hb)]
  exact Bool.false_ne_true

theorem loadWaits_in_window {p : Pipe} {k a n : Nat} (ha : 0x1400000 ≤ a) (hn : a + n ≤ 0x2000000) : p.loadWaits k a n = false := by
  unfold Pipe.loadWaits
  rw [List.any_eq_false]
  intro i hi
  rw [recByte_in_window ha hn (List.mem_range.mp hi)]
  exact Bool.false_ne_true

theorem plateErrors_of_corrected {p : Pipe} {k : Nat} {es : List (Nat × Bool)} (h : ∀ e ∈ es, e.2 = true) :
    p.plateErrors k es = p.modCore k (fun c => { c with corrected := c.corrected + es.length }) := by
  have hbad : es.filter (fun e => !e.2) = [] := List.filter_eq_nil_iff.mpr fun e he => by simp [h e he]
  have hgood : es.filter (fun e => e.2) = es := List.filter_eq_self.mpr h
  simp only [Pipe.plateErrors, hbad, hgood, List.map_nil, List.isEmpty_nil, if_true]

theorem plateLoad_of_corrected {p : Pipe} {k a n : Nat} {es : List (Nat × Bool)} (h : ∀ e ∈ es, e.2 = true) :
    p.plateLoad k a n es = leNat (p.plateRead k a n) := if_pos (List.all_eq_true.mpr h)

theorem fault_of_plateErrors {p : Pipe} {k : Nat} {es : List (Nat × Bool)} (h : ∃ e ∈ es, e.2 = false) :
    PipeOut.fault (16 * k + 1) ∈ (p.plateErrors k es).out := by
  obtain ⟨e, he, hbad⟩ := h
  unfold Pipe.plateErrors
  extract_lets bad p1
  have hmem : e ∈ es.filter (fun e => !e.2) := List.mem_filter.mpr ⟨he, by rw [hbad, Bool.not_false]⟩
  have hne : bad.isEmpty = false := List.isEmpty_eq_false_iff.mpr (List.ne_nil_of_mem (List.mem_map_of_mem hmem))
  rw [hne, if_neg Bool.false_ne_true]
  refine (Pipe.Adds.foldl (fun p j => p.endJob_adds j stABORTED (some k)) _ _).subset ?_
  exact List.mem_append_right _ (List.mem_singleton.mpr rfl)

/-- The address of an access (R138), and whether an access traps in a kernel (R143). -/
def plateAt (c : CoreCtx) (sa : Nat) (imm : Int) : Nat := (c.reg sa + BitVec.ofInt 64 imm).toNat % 2 ^ 25
def plateTraps (op : PlateOp) (c : CoreCtx) : Bool :=
  !inWindow (plateRange op c).1 (plateRange op c).2 || (plateVector op && (plateRange op c).1 % 128 != 0)

/-- A read of plate memory and what it makes of the pipeline, given the value and the errors met; a write, after which the
context is as `go` makes it. Either waits where the selection unit says so (R265). -/
def Pipe.loadAt (p : Pipe) (k a n : Nat) (ecc : List (Nat × Bool)) (go : Nat → List (Nat × Bool) → Pipe) : Pipe × Bool :=
  if p.loadWaits k a n then (p, true)
  else (go (p.plateLoad k a n (metBy ecc (plateWords false a n))) (metBy ecc (plateWords false a n)), false)
def Pipe.storeAt (p : Pipe) (k a : Nat) (bs : List Byte) (ecc : List (Nat × Bool)) (go : Pipe → Pipe) : Pipe × Bool :=
  if p.storeWaits k a bs then (p, true)
  else (((go p).plateStore k a bs).plateErrors k (metBy ecc (plateWords true a bs.length)), false)

theorem plateRange_load {c : CoreCtx} {sd sa n : Nat} {imm : Int} {sx : Bool} (h1 : 1 ≤ n) (h8 : n ≤ 8) :
    plateRange (.load sd sa imm n sx) c = (plateAt c sa imm, n) :=
  Prod.ext rfl ((congrArg (max 1) (Nat.min_eq_left h8)).trans (Nat.max_eq_right h1))

theorem plateRange_store {c : CoreCtx} {ss sa n : Nat} {imm : Int} (h1 : 1 ≤ n) (h8 : n ≤ 8) :
    plateRange (.store ss sa imm n) c = (plateAt c sa imm, n) :=
  Prod.ext rfl ((congrArg (max 1) (Nat.min_eq_left h8)).trans (Nat.max_eq_right h1))

section
variable (p : Pipe) (k x : Nat) (ecc : List (Nat × Bool))

theorem plateAccess_load (sd sa n : Nat) (imm : Int) (sx : Bool) :
    let r := plateRange (.load sd sa imm n sx) ((p.core k).ctx x)
    plateAccess k x (.load sd sa imm n sx) ecc p = p.runCtx k x (plateTraps (.load sd sa imm n sx) ((p.core k).ctx x)) (fun p c =>
      p.loadAt k r.1 r.2 ecc fun v es =>
        (p.setCtx k x (c.setReg sd (if sx then BitVec.ofInt 64 (signed (8 * r.2) v) else BitVec.ofNat 64 v)).next).plateErrors k es) := rfl

theorem plateAccess_store (ss sa n : Nat) (imm : Int) :
    let r := plateRange (.store ss sa imm n) ((p.core k).ctx x)
    plateAccess k x (.store ss sa imm n) ecc p = p.runCtx k x (plateTraps (.store ss sa imm n) ((p.core k).ctx x)) (fun p c =>
      p.storeAt k r.1 (leBytes r.2 (c.reg ss).toNat) ecc fun p => p.setCtx k x c.next) := rfl

theorem plateAccess_vload (q sa : Nat) (imm : Int) :
    plateAccess k x (.vload q sa imm) ecc p = p.runVec k x (plateTraps (.vload q sa imm) ((p.core k).ctx x)) (fun p' c n y =>
      p'.loadAt k (plateAt ((p.core k).ctx x) sa imm / 128 * 128) 128 ecc fun w es =>
        (p'.setVec k x n { y with q := setNth y.q q (BitVec.ofNat 1024 w) } c.next).plateErrors k es) := rfl

theorem plateAccess_vstore (q sa : Nat) (imm : Int) :
    plateAccess k x (.vstore q sa imm) ecc p = p.runVec k x (plateTraps (.vstore q sa imm) ((p.core k).ctx x)) (fun p' c n y =>
      p'.storeAt k (plateAt ((p.core k).ctx x) sa imm / 128 * 128) (leBytes 128 (y.reg q).toNat) ecc fun p => p.setVec k x n y c.next) :=
  rfl

end

theorem plateTraps_of_window {op : PlateOp} {c : CoreCtx}
    (hin : 0x1400000 ≤ (plateRange op c).1 ∧ (plateRange op c).1 + (plateRange op c).2 ≤ 0x2000000)
    (hal : plateVector op = true → (plateRange op c).1 % 128 = 0) : plateTraps op c = false := by
  have h1 := (inWindow_iff _ _).mpr hin
  cases hv : plateVector op
  · simp only [plateTraps, h1, hv, Bool.false_and, Bool.not_true, Bool.or_false]
  · simp only [plateTraps, h1, hv, hal hv, Bool.not_true, Bool.true_and, Bool.false_or, bne_self_eq_false]

theorem plateTraps_of_outside {op : PlateOp} {c : CoreCtx} (h : inWindow (plateRange op c).1 (plateRange op c).2 = false ∨
    (plateVector op = true ∧ (plateRange op c).1 % 128 ≠ 0)) : plateTraps op c = true := by
  obtain h | ⟨hv, ha⟩ := h
  · simp only [plateTraps, h, Bool.not_false, Bool.true_or]
  · simp only [plateTraps, hv, bne_iff_ne.mpr ha, Bool.true_and, Bool.or_true]

theorem exec_plateAccess_trap {s : State} {k x : Nat} (h : CtxOn s k x) (hk : (s.pipe.core k).inKernel x = true)
    (ecc : List (Nat × Bool)) {op : PlateOp} (ht : plateTraps op (ctxOf s k x) = true) :
    exec (.plateAccess k x ⟨op, ecc⟩) s = .next (perform s (s.pipe.kernelTrap k)) := by
  refine congrArg Host.Outcome.next ?_
  cases op with
  | load sd sa imm n sx => exact ctx_traps h (plateAccess_load ..) ht hk
  | store ss sa imm n => exact ctx_traps h (plateAccess_store ..) ht hk
  | vload q sa imm => exact ctx_traps h (plateAccess_vload ..) ht hk
  | vstore q sa imm => exact ctx_traps h (plateAccess_vstore ..) ht hk

/-- The word of a load, extended as the instruction says. -/
def loadWord (sx : Bool) (n v : Nat) : W64 := if sx then BitVec.ofInt 64 (signed (8 * n) v) else BitVec.ofNat 64 v

section
variable {s : State} {k x : Nat} (h : CtxOn s k x) (ecc : List (Nat × Bool)) {sa n : Nat} {imm : Int}

/-- An access of n bytes by a kernel lies in its window. -/
def InReach (s : State) (k x sa n : Nat) (imm : Int) : Prop :=
  (s.pipe.core k).inKernel x = true → 0x1400000 ≤ plateAt (ctxOf s k x) sa imm ∧ plateAt (ctxOf s k x) sa imm + n ≤ 0x2000000

variable (hr : InReach s k x sa n imm)
include h hr

theorem exec_load (h1 : 1 ≤ n) (h8 : n ≤ 8) (sd : Nat) (sx : Bool) (hw : s.pipe.loadWaits k (plateAt (ctxOf s k x) sa imm) n = false) :
    let a := plateAt (ctxOf s k x) sa imm
    let es := metBy ecc (plateWords false a n)
    exec (.plateAccess k x ⟨.load sd sa imm n sx, ecc⟩) s = .next (perform s (ran ((s.pipe.setCtx k x
      ((ctxOf s k x).setReg sd (loadWord sx n (s.pipe.plateLoad k a n es))).next).plateErrors k es) k x)) := by
  refine congrArg Host.Outcome.next (ctx_done h (plateAccess_load ..) (fun hk => ?_) ?_)
  · exact plateTraps_of_window (by rw [plateRange_load h1 h8]; exact hr hk) nofun
  · have hrange := plateRange_load (c := (s.pipe.core k).ctx x) (sd := sd) (sa := sa) (imm := imm) (sx := sx) h1 h8
    rw [hrange]
    exact if_neg (Bool.eq_false_iff.mp hw)

theorem exec_load_waits (h1 : 1 ≤ n) (h8 : n ≤ 8) (sd : Nat) (sx : Bool)
    (hw : s.pipe.loadWaits k (plateAt (ctxOf s k x) sa imm) n = true) :
    exec (.plateAccess k x ⟨.load sd sa imm n sx, ecc⟩) s = .next (waits s k x) := by
  refine congrArg Host.Outcome.next (ctx_waits h (plateAccess_load ..) (fun hk => ?_) ?_)
  · exact plateTraps_of_window (by rw [plateRange_load h1 h8]; exact hr hk) nofun
  · have hrange := plateRange_load (c := (s.pipe.core k).ctx x) (sd := sd) (sa := sa) (imm := imm) (sx := sx) h1 h8
    rw [hrange]
    exact if_pos hw

theorem exec_store (h1 : 1 ≤ n) (h8 : n ≤ 8) (ss : Nat)
    (hw : s.pipe.storeWaits k (plateAt (ctxOf s k x) sa imm) (leBytes n ((ctxOf s k x).reg ss).toNat) = false) :
    let a := plateAt (ctxOf s k x) sa imm
    let bs := leBytes n ((ctxOf s k x).reg ss).toNat
    exec (.plateAccess k x ⟨.store ss sa imm n, ecc⟩) s = .next (perform s (ran (((s.pipe.setCtx k x
      (ctxOf s k x).next).plateStore k a bs).plateErrors k (metBy ecc (plateWords true a bs.length))) k x)) := by
  refine congrArg Host.Outcome.next (ctx_done h (plateAccess_store ..) (fun hk => ?_) ?_)
  · exact plateTraps_of_window (by rw [plateRange_store h1 h8]; exact hr hk) nofun
  · have hrange := plateRange_store (c := (s.pipe.core k).ctx x) (ss := ss) (sa := sa) (imm := imm) h1 h8
    rw [hrange]
    exact if_neg (Bool.eq_false_iff.mp hw)

theorem exec_store_waits (h1 : 1 ≤ n) (h8 : n ≤ 8) (ss : Nat)
    (hw : s.pipe.storeWaits k (plateAt (ctxOf s k x) sa imm) (leBytes n ((ctxOf s k x).reg ss).toNat) = true) :
    exec (.plateAccess k x ⟨.store ss sa imm n, ecc⟩) s = .next (waits s k x) := by
  refine congrArg Host.Outcome.next (ctx_waits h (plateAccess_store ..) (fun hk => ?_) ?_)
  · exact plateTraps_of_window (by rw [plateRange_store h1 h8]; exact hr hk) nofun
  · have hrange := plateRange_store (c := (s.pipe.core k).ctx x) (ss := ss) (sa := sa) (imm := imm) h1 h8
    rw [hrange]
    exact if_pos hw

end

section
variable {s : State} {k x : Nat} (h : CtxOn s k x) (ecc : List (Nat × Bool)) {sa : Nat} {imm : Int} (hr : InReach s k x sa 128 imm)
  (hal : (s.pipe.core k).inKernel x = true → plateAt (ctxOf s k x) sa imm % 128 = 0) {n : Nat} {v : VSlot}
  (hacq : (s.pipe.core k).acquire x = some (n, v)) (q : Nat)
include h hr hal hacq

theorem exec_vload (hw : s.pipe.loadWaits k (plateAt (ctxOf s k x) sa imm / 128 * 128) 128 = false) :
    let a := plateAt (ctxOf s k x) sa imm / 128 * 128
    let es := metBy ecc (plateWords false a 128)
    exec (.plateAccess k x ⟨.vload q sa imm, ecc⟩) s = .next (perform s (ran ((s.pipe.setVec k x n
      { v with q := setNth v.q q (BitVec.ofNat 1024 (s.pipe.plateLoad k a 128 es)) } (ctxOf s k x).next).plateErrors k es) k x)) := by
  refine congrArg Host.Outcome.next (vec_done h (plateAccess_vload ..) (fun hk => ?_) hacq ?_)
  · exact plateTraps_of_window (hr hk) fun _ => hal hk
  · exact if_neg (Bool.eq_false_iff.mp hw)

theorem exec_vstore (hw : s.pipe.storeWaits k (plateAt (ctxOf s k x) sa imm / 128 * 128) (leBytes 128 (v.reg q).toNat) = false) :
    let a := plateAt (ctxOf s k x) sa imm / 128 * 128
    let bs := leBytes 128 (v.reg q).toNat
    exec (.plateAccess k x ⟨.vstore q sa imm, ecc⟩) s = .next (perform s (ran (((s.pipe.setVec k x n v
      (ctxOf s k x).next).plateStore k a bs).plateErrors k (metBy ecc (plateWords true a bs.length))) k x)) := by
  refine congrArg Host.Outcome.next (vec_done h (plateAccess_vstore ..) (fun hk => ?_) hacq ?_)
  · exact plateTraps_of_window (hr hk) fun _ => hal hk
  · exact if_neg (Bool.eq_false_iff.mp hw)

end

/-- Settles O6: an access that does not trap reads or writes at its address, or waits. -/
theorem plateAccessResults : Obligations.PlateAccessResults := by
  refine ⟨fun s k x ecc h => ?_, fun p k a n bs es => ⟨fun ha hn => ⟨plateStore_in_window ha hn, storeWaits_in_window ha hn⟩,
    loadWaits_in_window, fun he => ⟨plateLoad_of_corrected he, plateErrors_of_corrected he⟩, fault_of_plateErrors⟩⟩
  intro c kern at_ may met after kept
  refine ⟨fun sd sa imm n h1 h8 hmay => ?_, fun q sa imm n v hacq hmay hal => ?_,
    fun op hk hout => exec_plateAccess_trap h hk ecc (plateTraps_of_outside hout)⟩
  · exact ⟨fun hw => ⟨exec_load h ecc hmay h1 h8 sd false hw, exec_load h ecc hmay h1 h8 sd true hw⟩,
      fun hw sx => exec_load_waits h ecc hmay h1 h8 sd sx hw,
      fun ss => ⟨exec_store h ecc hmay h1 h8 ss, exec_store_waits h ecc hmay h1 h8 ss⟩⟩
  · exact ⟨exec_vload h ecc hmay hal hacq q, exec_vstore h ecc hmay hal hacq q⟩

end Sys2Proof.Machine
end

section
/-!
PROOF. Custom kernels of a search core and its hand-offs (O9): the end of a kernel, its limit, its start, blocks for the selection
unit, and requests for an NBU.
-/
namespace Sys2Proof.Machine

open Sys2Proof.Claims

/-! ## KEND and LIMIT -/

theorem inKernel_of_inv {c : CoreSt} {v : Invocation} {x : Nat} (hv : c.inv = some v) (hx : v.ctx = x) : c.inKernel x = true := by
  simp only [CoreSt.inKernel, hv, hx, BEq.rfl]

theorem exec_kend_kernel {s : State} {k x : Nat} (h : CtxOn s k x) (hk : (s.pipe.core k).inKernel x = true) :
    exec (.kend k x) s = .next (withPipe s (ran (s.pipe.modCore k (fun y => y.endKernel x)) k x)) := by
  refine congrArg Host.Outcome.next (ctx_done_quiet h (f := coreKend k x) rfl (fun _ => rfl) ?_ h.1.1.2)
  rw [if_pos hk]

theorem exec_kend_stage {s : State} {k x : Nat} (h : CtxOn s k x) (hk : (s.pipe.core k).inKernel x = false) :
    exec (.kend k x) s = .next (putCtx s k x (ctxOf s k x).next) := by
  refine congrArg Host.Outcome.next (ctx_done_quiet h (f := coreKend k x) rfl (fun _ => rfl) ?_ h.1.1.2)
  rw [hk, if_neg Bool.false_ne_true]

theorem exec_limit {s : State} {k x : Nat} (h : CoreOn s k) (hx : x < 4096) {v : Invocation} (hv : (s.pipe.core k).inv = some v)
    (hvx : v.ctx = x) : exec (.limit k x) s = .next (perform s ((s.pipe.modCore k (fun y =>
      { y.endKernel x with kernelTraps := y.kernelTraps + 1 })).endJobAt v.job stABORTED 7 (some k))) := by
  subst hvx
  have hruns : (s.pipe.ctxRuns k v.ctx && (s.pipe.core k).inKernel v.ctx) = true := by
    simp only [Pipe.ctxRuns, h.2.2.1, hx, h.2.2.2, inKernel_of_inv hv rfl, decide_true, Bool.not_false, Bool.and_self]
  have hlimit : kernelLimit k v.ctx s.pipe = s.pipe.kernelTrap k := if_pos hruns
  have htrap : s.pipe.kernelTrap k = (s.pipe.modCore k (fun y =>
      { y.endKernel v.ctx with kernelTraps := y.kernelTraps + 1 })).endJobAt v.job stABORTED 7 (some k) := by
    simp only [Pipe.kernelTrap, hv]
  exact congrArg Host.Outcome.next ((onCore_perform h _).trans (congrArg (perform s) (hlimit.trans htrap)))

/-! ## KERNEL_INVOKE -/

theorem Pipe.core_modCore_same {p : Pipe} {k : Nat} (f : CoreSt → CoreSt) (hk : k < p.parts.length) :
    (p.modCore k f).core k = f (p.core k) := by
  rw [core, modCore, part_modPart_same _ hk]
  rfl

/-- A core of a partition that does not exist has no invocation waiting. -/
theorem lt_of_invWait {p : Pipe} {k : Nat} {v : Invocation} {rest : List Invocation} (h : (p.core k).invWait = v :: rest) :
    k < p.parts.length := by
  refine Nat.not_le.mp fun hk => ?_
  rw [Pipe.core, Pipe.part, List.getElem?_eq_none hk] at h
  exact absurd h nofun

/-- The plate memory that a kernel finds at its entry (R141 table). -/
def entryPlate (p : Pipe) (k : Nat) (v : Invocation) (stride d : Nat) (f : QueryForms) : Pipe :=
  let p1 := p.plateWrite k 0x1400000 ((qvecElems f.plain d).flatMap (fun w => leBytes 4 w.toNat))
  let p2 := p1.plateWrite k 0x1408000 (v.ords.flatMap (fun o => leBytes 4 o.2))
  v.vectors.zipIdx.foldl (fun (p : Pipe) y => p.plateWrite k (0x1600000 + stride * y.2) (padTo stride y.1)) p2

theorem foldl_plateWrite_keeps {α β : Type} (g : Pipe → β) (hg : ∀ p k a bs, g (p.plateWrite k a bs) = g p) (k : Nat) (a : α → Nat)
    (bs : α → List Byte) (l : List α) (p : Pipe) : g (l.foldl (fun p y => p.plateWrite k (a y) (bs y)) p) = g p := by
  induction l generalizing p with
  | nil => rfl
  | cons y l ih => exact (ih _).trans (hg p k _ _)

theorem entryPlate_keeps {β : Type} (g : Pipe → β) (hg : ∀ p k a bs, g (p.plateWrite k a bs) = g p) (p : Pipe) (k : Nat)
    (v : Invocation) (stride d : Nat) (f : QueryForms) : g (entryPlate p k v stride d f) = g p :=
  (foldl_plateWrite_keeps g hg k _ _ _ _).trans ((hg _ _ _ _).trans (hg _ _ _ _))

section
variable {p : Pipe} {k x : Nat} {v : Invocation} {rest : List Invocation} {jb : Job} {ix : IdxCopy} {f : QueryForms}
  (hfen : p.fenced k = false) (hk : k < 16) (hinv : (p.core k).inv = none) (hwait : (p.core k).invWait = v :: rest)
  (hkey : (p.core k).ctxs.freeKey (4096 - (p.walks.filter (fun v => v.2.core == k && v.2.started)).length) = some x)
  (hjob : p.jobs.get? v.job = some jb) (hix : p.idxOf jb = some ix) (hforms : jb.forms = some f)
include hfen hk hinv hwait hkey hjob hix hforms

theorem kernelInvoke_starts : kernelInvoke k p =
    (entryPlate p k v (ceilDiv ix.fullBytes 32 * 32) ix.desc.dim f).modCore k (fun c => { c with
      inv := some { v with ctx := x }, invWait := rest,
      ctxs := c.ctxs.set x (kernelCtx v (ceilDiv ix.fullBytes 32 * 32) ix.desc.dim) }) := by
  have hfree : (p.fenced k || decide (k ≥ 16)) = false := by
    rw [hfen, decide_eq_false (Nat.not_le.mpr hk), Bool.or_self]
  simp only [kernelInvoke, hfree, Bool.false_eq_true, if_false, hinv, hwait, hkey, hjob, hix, hforms, entryPlate]

end

/-! ## Hand-offs -/

/-- A vector instruction that stalls although its context has a slot. -/
theorem vec_stalls {s : State} {k x : Nat} (h : CtxOn s k x) {trap : Bool} {go : Pipe → CoreCtx → Nat → VSlot → Pipe × Bool}
    {f : Pipe → Pipe} (hf : f s.pipe = s.pipe.runVec k x trap go) (ht : (s.pipe.core k).inKernel x = true → trap = false) {n : Nat}
    {v : VSlot} (ha : (s.pipe.core k).acquire x = some (n, v)) (hgo : go s.pipe (ctxOf s k x) n v = (s.pipe, true)) :
    s.onCore k f = waits s k x :=
  ctx_waits h hf ht (by rw [ha]; exact hgo)

/-- The entries of a block: the scores and the ids, which the map of an invocation turns into a partition and an id. -/
def vselEnts (inv : Option Invocation) (qs qi : BitVec 1024) (lanes : Nat) : List (W32 × Nat × Nat) :=
  ((List.zip (lanesOf 6 qs) (lanesOf 6 qi)).take lanes).map (fun e =>
    match inv with
    | some i => (BitVec.ofNat 32 e.1, (kernelId i.ords e.2).1, (kernelId i.ords e.2).2)
    | none => (BitVec.ofNat 32 e.1, 0, e.2))

section
variable {s : State} {k x qs qi sa lanes n : Nat} {v : VSlot} (h : CtxOn s k x) (hacq : (s.pipe.core k).acquire x = some (n, v))
include h hacq

theorem exec_vsel_sel (hroom : (s.pipe.core k).blocks.length < 256) {job : Nat} {inv : Option Invocation}
    (hjob : (if (s.pipe.core k).inKernel x then (match (s.pipe.core k).inv with | some i => i.job | none => 0) else 0) = job)
    (hinv : (if (s.pipe.core k).inKernel x && (s.pipe.core k).stageSel (((ctxOf s k x).reg sa).toNat % 4096)
      then (s.pipe.core k).inv else none) = inv) :
    exec (.vsel k x qs qi (.sel sa) lanes) s = .next (withPipe s (ran ((s.pipe.setVec k x n v (ctxOf s k x).next).deliver k
      (((ctxOf s k x).reg sa).toNat % 4096) .vsel job (vselEnts inv (v.reg qs) (v.reg qi) lanes)) k x)) := by
  have hfull : ¬ s.pipe.blocksFull k = true := by
    simp only [Pipe.blocksFull, ge_iff_le, decide_eq_true_eq, Nat.not_le]
    exact hroom
  subst hjob hinv
  refine congrArg Host.Outcome.next ((vec_done h (f := coreVsel k x qs qi sa lanes) rfl (fun _ => rfl) hacq (if_neg hfull)).trans
    (perform_quiet ?_))
  exact (Pipe.deliver_out ..).trans h.1.1.2

theorem exec_vsel_full (hfull : 256 ≤ (s.pipe.core k).blocks.length) :
    exec (.vsel k x qs qi (.sel sa) lanes) s = .next (waits s k x) := by
  refine congrArg Host.Outcome.next (vec_stalls h (f := coreVsel k x qs qi sa lanes) rfl (fun _ => rfl) hacq ?_)
  exact if_pos (decide_eq_true hfull)

end

/-- The request that a hand-off reads in plate memory, and what it leaves of the pipeline before the request is on its way. -/
def handOffReq (p : Pipe) (k a : Nat) : NbuReq :=
  { decodeReq (p.plateRead k a 64) (p.plateRead k (a + 64) (reqOperand (p.plateRead k a 64))) with handOff := true }

theorem coreNbuReq_eq (p : Pipe) (k x sd sn : Nat) :
    let a := (((p.core k).ctx x).reg sd).toNat % 2 ^ 25
    coreNbuReq k x sd sn p = p.runCtx k x (!inWindow a (64 + reqOperand (p.plateRead k a 64))) (fun p' c =>
      let h := (c.reg sn).toNat / 64 % 16
      let pc := (c.reg sn).toNat % 64
      let p1 := p'.setCtx k x { c.next with sent := some (h, pc, p'.nbuSeq) }
      (if p'.fenced h then p1 else p1.inject h pc
        { decodeReq (p.plateRead k a 64) (p'.plateRead k (a + 64) (reqOperand (p.plateRead k a 64))) with handOff := true }, false)) := rfl

section
variable {s : State} {k x qs qi sd sn lanes : Nat} (h : CtxOn s k x)
include h

theorem exec_vsel_nbu {h' pc a : Nat} (hh : ((ctxOf s k x).reg sn).toNat / 64 % 16 = h') (hpc : ((ctxOf s k x).reg sn).toNat % 64 = pc)
    (ha : ((ctxOf s k x).reg sd).toNat % 2 ^ 25 = a)
    (hin : (s.pipe.core k).inKernel x = true → 0x1400000 ≤ a ∧ a + (64 + reqOperand (s.pipe.plateRead k a 64)) ≤ 0x2000000) :
    let p1 := s.pipe.setCtx k x { (ctxOf s k x).next with sent := some (h', pc, s.pipe.nbuSeq) }
    exec (.vsel k x qs qi (.nbu sd sn) lanes) s =
      .next (withPipe s (ran (if s.pipe.fenced h' then p1 else p1.inject h' pc (handOffReq s.pipe k a)) k x)) := by
  subst hh hpc ha
  refine congrArg Host.Outcome.next (ctx_done_quiet h (coreNbuReq_eq s.pipe k x sd sn) (fun hk => ?_) rfl ?_)
  · rw [Bool.not_eq_false']
    exact (inWindow_iff _ _).mpr (hin hk)
  · split
    · exact h.1.1.2
    · exact h.1.1.2

theorem exec_vsel_nbu_traps {a : Nat} (ha : ((ctxOf s k x).reg sd).toNat % 2 ^ 25 = a) (hk : (s.pipe.core k).inKernel x = true)
    (hout : ¬ (0x1400000 ≤ a ∧ a + (64 + reqOperand (s.pipe.plateRead k a 64)) ≤ 0x2000000)) :
    exec (.vsel k x qs qi (.nbu sd sn) lanes) s = .next (perform s (s.pipe.kernelTrap k)) := by
  subst ha
  refine congrArg Host.Outcome.next (ctx_traps h (coreNbuReq_eq s.pipe k x sd sn) ?_ hk)
  rw [Bool.not_eq_true']
  exact Bool.eq_false_iff.mpr (mt (inWindow_iff _ _).mp hout)

end

/-- Settles O9: the ends of a kernel, its start, and the two hand-offs. -/
theorem kernelRuns : Obligations.KernelRuns := by
  refine ⟨fun s k x h => ⟨exec_kend_kernel h, exec_kend_stage h⟩, fun s k x h hx => ⟨fun v => exec_limit h hx, ?_⟩, ?_, ?_⟩
  · intro v rest jb ix f hinv hwait hkey hjob hix hforms
    have hstart := kernelInvoke_starts h.2.2.2 h.2.2.1 hinv hwait hkey hjob hix hforms
    have hout : (kernelInvoke k s.pipe).out = [] := by
      rw [hstart, Pipe.modCore_out, entryPlate_keeps (·.out) Pipe.plateWrite_out]
      exact h.1.2
    refine ⟨withPipe s (kernelInvoke k s.pipe), congrArg Host.Outcome.next (onCore_withPipe h hout), rfl, ?_⟩
    have hcore : (kernelInvoke k s.pipe).core k = { s.pipe.core k with
        inv := some { v with ctx := x }, invWait := rest,
        ctxs := (s.pipe.core k).ctxs.set x (kernelCtx v (ceilDiv ix.fullBytes 32 * 32) ix.desc.dim) } := by
      have hparts := entryPlate_keeps (·.parts) Pipe.plateWrite_parts s.pipe k v (ceilDiv ix.fullBytes 32 * 32) ix.desc.dim f
      rw [hstart, Pipe.core_modCore_same _ (by rw [hparts]; exact lt_of_invWait hwait), Pipe.core, Pipe.part, hparts]
      rfl
    have hctx : ctxOf (withPipe s (kernelInvoke k s.pipe)) k x = kernelCtx v (ceilDiv ix.fullBytes 32 * 32) ix.desc.dim := by
      rw [ctxOf, withPipe, hcore]
      exact getD_set_same _ x _ _
    rw [hctx]
    exact ⟨congrArg CoreSt.inv hcore, congrArg CoreSt.invWait hcore, rfl, rfl, rfl, rfl, rfl, rfl⟩
  · intro s k x qs qi sa lanes n v h hacq c dst pairs sent
    refine ⟨fun hroom hk => ?_, fun i hroom hi hx => ⟨fun hst => ?_, fun hst => ?_⟩, exec_vsel_full h hacq⟩
    · exact exec_vsel_sel h hacq hroom (by rw [hk]; rfl) (inv := none) (by rw [hk]; rfl)
    · have hk := inKernel_of_inv hi hx
      exact exec_vsel_sel h hacq hroom (by rw [hk, hi]; rfl) (inv := some i) (by rw [hk, hst, hi]; rfl)
    · have hk := inKernel_of_inv hi hx
      exact exec_vsel_sel h hacq hroom (by rw [hk, hi]; rfl) (inv := none) (by rw [hk, hst]; rfl)
  · intro s k x qs qi sd sn lanes h c a b r h' pc p1 inside
    refine ⟨fun hin => ⟨fun hf => ?_, fun hf => ?_⟩, fun hk hout => exec_vsel_nbu_traps h rfl hk hout⟩
    · refine (exec_vsel_nbu h rfl rfl rfl hin).trans ?_
      rw [if_neg (Bool.eq_false_iff.mp hf)]
      rfl
    · refine (exec_vsel_nbu h rfl rfl rfl hin).trans ?_
      rw [if_pos hf]

end Sys2Proof.Machine
end

section
/-!
PROOF. The effects that a row of the pipeline lists (O10), and the commands and blocks of the selection unit (O11).
-/
namespace Sys2Proof.Machine

open Sys2Proof.Claims

/-! ## Effects performed -/

theorem drain_of_sends {s : State} (h : ∀ o ∈ s.pipe.out, (∃ f a bs rlx, o = .write f a bs rlx) ∨ ∃ f v, o = .msix f v) :
    Sends { s with pipe := { s.pipe with out := [] } } s.drain := by
  unfold State.drain
  generalize s.pipe.out = l at h
  generalize ({ s with pipe := { s.pipe with out := [] } } : State) = t
  induction l generalizing t with
  | nil => exact .refl t
  | cons o l ih =>
    have ho : Sends t (t.pipeOut o) := by
      obtain ⟨f, a, bs, rlx, rfl⟩ | ⟨f, v, rfl⟩ := h o List.mem_cons_self
      · exact sends_hostWrite t f a bs rlx
      · exact sends_msix t f v
    exact ho.trans (ih (fun o ho => h o (List.mem_cons_of_mem _ ho)) _)

theorem settle_of_drained {s : State} (h : s.drain.pipe.out = []) : s.settle = s.drain := by
  unfold State.settle
  rw [drain_empty _ h, drain_empty _ h]

theorem hostWrite_of_canMaster {s : State} {f : Nat} (hperst : s.pwr.perst = false) (hcan : s.canMaster f = true) (a : Nat)
    (bs : List Byte) (rlx : Option Bool) : s.hostWrite f a bs rlx = { s with out := s.out ++ [.write f a bs rlx] } := by
  rw [State.hostWrite, hperst, if_neg Bool.false_ne_true, if_pos hcan]

/-- Settles O10: a write or a message only sends, so that one pass performs the list. -/
theorem effectsPerformed : Obligations.EffectsPerformed := by
  refine ⟨fun s p => perform_quiet, fun s p f a bs rlx hperst hcan hp => ?_, fun s p hp => ?_⟩
  · have hsent : (withPipe s p).drain = { s with pipe := { p with out := [] }, out := s.out ++ [.write f a bs rlx] } := by
      have hwrite : (withPipe s p).drain = (withPipe s { p with out := [] }).hostWrite f a bs rlx := by
        rw [State.drain, withPipe, hp]
        rfl
      exact hwrite.trans (hostWrite_of_canMaster (s := withPipe s { p with out := [] }) hperst hcan a bs rlx)
    refine (settle_of_drained ?_).trans hsent
    rw [hsent]
  · have hpipe : (withPipe s p).drain.pipe = { p with out := [] } := (drain_of_sends hp).pipe
    refine (congrArg State.pipe (settle_of_drained ?_)).trans hpipe
    rw [hpipe]

/-! ## Commands of the selection unit -/

/-- A change of a list, a mark or a record lists nothing, so a row of the unit that makes only such changes is over at once. -/
theorem exec_discard {s : State} {k : Nat} (h : CoreOn s k) (n : Nat) :
    exec (.discard k n) s = .next (withPipe s (s.pipe.dropSel k n)) := by
  have hrow : selDiscard k n s.pipe = s.pipe.dropSel k n := if_neg (Bool.eq_false_iff.mp h.2.2.2)
  refine congrArg Host.Outcome.next ((onCore_withPipe h ?_).trans (congrArg (withPipe s) hrow))
  rw [hrow, Pipe.dropSel_out]
  exact h.1.2

theorem exec_openReq {s : State} {k n : Nat} (h : CoreOn s k) (hn : n < 4096) :
    let q := if (s.pipe.core k).sel.has n then s.pipe.dropSel k n else s.pipe
    exec (.openReq k n) s = .next (withPipe s ((q.modCore k (fun y =>
      { y with sel := y.sel.set n (selFromRecord (q.plateRead k (0x1000000 + 64 * n) 24)) })).showSel k n)) := by
  intro q
  have hq : q.out = [] := (out_ite (s.pipe.dropSel_out k n) rfl).trans h.1.2
  have hfree : ¬ (s.pipe.fenced k || decide (n ≥ 4096)) = true := by
    rw [h.2.2.2, decide_eq_false (Nat.not_le.mpr hn), Bool.or_self]
    exact Bool.false_ne_true
  have hrow : selOpen k n s.pipe = (q.modCore k (fun y =>
      { y with sel := y.sel.set n (selFromRecord (q.plateRead k (selRec n) 24)) })).showSel k n := if_neg hfree
  refine congrArg Host.Outcome.next ((onCore_withPipe h ?_).trans (congrArg (withPipe s) hrow))
  rw [hrow, Pipe.showSel_out]
  exact hq

theorem exec_bound {s : State} {k n : Nat} (h : CoreOn s k) {r : SelReq} (hr : (s.pipe.core k).sel.get? n = some r)
    (hst : r.state ≠ .closing) : exec (.bound k n) s = .next (withPipe s (s.pipe.putSel k n r.makeBound)) := by
  have hrow : selBound k n s.pipe = s.pipe.putSel k n r.makeBound := by
    simp only [selBound, h.2.2.2, Bool.false_eq_true, if_false, hr, hst]
  refine congrArg Host.Outcome.next ((onCore_withPipe h ?_).trans (congrArg (withPipe s) hrow))
  rw [hrow, Pipe.putSel_out]
  exact h.1.2

@[simp] theorem Pipe.rawErrors_out (p : Pipe) (us : List (Nat × Bool)) : (p.rawErrors us).out = p.out := out_ite rfl rfl

theorem Pipe.rawErrors_fenced (p : Pipe) (us : List (Nat × Bool)) (k : Nat) : (p.rawErrors us).fenced k = p.fenced k := by
  unfold Pipe.rawErrors
  split <;> rfl

section
variable {s : State} {k : Nat} (h : CoreOn s k) (cl : CloseAt)
include h

/-- CLOSE of a request that the core has, on the pipeline with the raw errors met. -/
theorem exec_closeReq {r : SelReq} (hr : ((s.pipe.rawErrors cl.raw).core k).sel.get? cl.n = some r) {q : Pipe}
    (hq : (if cl.parity then (s.pipe.rawErrors cl.raw).selParity k r.job
      else if r.use = .user then (s.pipe.rawErrors cl.raw).closeProgram k cl.n r
      else if r.state ≠ .opened || ((s.pipe.rawErrors cl.raw).core k).blocks.any (fun b => b.target == cl.n) then s.pipe.rawErrors cl.raw
      else (s.pipe.rawErrors cl.raw).closeStage k cl.n r) = q) :
    exec (.closeReq k cl) s = .next (perform s q) := by
  have hrow : selClose k cl.n cl.parity (s.pipe.rawErrors cl.raw) = q := by
    rw [selClose, Pipe.rawErrors_fenced, h.2.2.2, if_neg Bool.false_ne_true, hr]
    exact hq
  exact congrArg Host.Outcome.next ((onCore_perform h _).trans (congrArg (perform s) hrow))

theorem exec_closeReq_user {r : SelReq} (hr : ((s.pipe.rawErrors cl.raw).core k).sel.get? cl.n = some r)
    (hpar : cl.parity = false) (huse : r.use = .user) {q : Pipe} (hq : (s.pipe.rawErrors cl.raw).closeProgram k cl.n r = q)
    (hout : q.out = (s.pipe.rawErrors cl.raw).out) : exec (.closeReq k cl) s = .next (withPipe s q) := by
  refine (exec_closeReq h cl hr (q := q) ?_).trans (congrArg Host.Outcome.next (perform_quiet ?_))
  · rw [hpar, if_neg Bool.false_ne_true, if_pos huse, hq]
  · rw [hout, Pipe.rawErrors_out]
    exact h.1.2

end

theorem closeProgram_opened {p : Pipe} {k n : Nat} {r : SelReq} (hst : r.state = .opened) : p.closeProgram k n r =
    if ((p.core k).blocks.filter (fun b => b.target == n)).length = 0 then p.closeUser k n r
    else p.putSel k n { r with state := .closing, owed := ((p.core k).blocks.filter (fun b => b.target == n)).length } := by
  simp only [Pipe.closeProgram, hst]

theorem closeProgram_closing {p : Pipe} {k n : Nat} {r : SelReq} (hst : r.state = .closing) :
    p.closeProgram k n r = p.putSel k n { r with cmds := min 4 (r.cmds + 1) } := by
  simp only [Pipe.closeProgram, hst, SelReq.queueCmd]

/-! ## Blocks served -/

theorem lt_of_nextBlock {p : Pipe} {k : Nat} {b : SelBlock} (h : (p.core k).nextBlock = some b) : k < p.parts.length := by
  refine Nat.not_le.mp fun hk => ?_
  rw [Pipe.core, Pipe.part, List.getElem?_eq_none hk] at h
  exact absurd h nofun

section
variable {s : State} {k : Nat} (h : CoreOn s k) {b : SelBlock} (hb : (s.pipe.core k).nextBlock = some b)

/-- The pipeline once the block has left the queue, and with its entries counted as stray. -/
def taken (p : Pipe) (k : Nat) (b : SelBlock) : Pipe := p.modCore k (fun c => { c with blocks := c.blocks.erase b })
def strayed (p : Pipe) (k : Nat) (b : SelBlock) : Pipe :=
  (taken p k b).modCore k (fun c => { c with stray := c.stray + b.entries.length })

/-- Does a block belong to the request that it names? -/
def blockMine (r : SelReq) (b : SelBlock) : Bool := r.use = .user || b.job = r.job || b.job = 0

theorem blockMine_iff (r : SelReq) (b : SelBlock) : blockMine r b = true ↔ r.use = .user ∨ b.job = r.job ∨ b.job = 0 := by
  simp only [blockMine, Bool.or_eq_true, decide_eq_true_eq, or_assoc]

include hb in
theorem sel_taken (n : Nat) : ((taken s.pipe k b).core k).sel.get? n = (s.pipe.core k).sel.get? n := by
  rw [taken, Pipe.core_modCore_same _ (lt_of_nextBlock hb)]

include h in
theorem selParity_taken (b : SelBlock) (j : Nat) : (taken s.pipe k b).selParity k j =
    ({ taken s.pipe k b with out := [.fault (16 * k + 2)] } : Pipe).endJob j stABORTED (some k) := by
  have hout : (taken s.pipe k b).out = [] := h.1.2
  rw [Pipe.selParity, hout, List.nil_append]

include h hb

theorem exec_selBlockServed_idle (hnone : (s.pipe.core k).sel.get? b.target = none) (parity : Bool) :
    exec (.selBlockServed k parity) s =
      .next (perform s (if parity then (taken s.pipe k b).selParity k b.job else strayed s.pipe k b)) := by
  have hsel := (sel_taken hb b.target).trans hnone
  refine congrArg Host.Outcome.next ((onCore_perform h _).trans (congrArg (perform s) ?_))
  rw [selServe, h.2.2.2, if_neg Bool.false_ne_true, hb]
  dsimp only
  rw [show ((s.pipe.modCore k fun c => { c with blocks := c.blocks.erase b }).core k).sel.get? b.target = none from hsel]
  rfl

theorem exec_selBlockServed {r : SelReq} (hr : (s.pipe.core k).sel.get? b.target = some r) (parity : Bool) :
    exec (.selBlockServed k parity) s = .next (perform s (
      if parity then (taken s.pipe k b).selParity k (if blockMine r b && b.job ≠ 0 then b.job else r.job)
      else if !blockMine r b then strayed s.pipe k b
      else if r.state = .opened || (r.state = .closing && decide (r.owed > 0)) then (taken s.pipe k b).takeSel k r b
      else ((taken s.pipe k b).modCore k (fun c =>
        { c with sel := c.sel.adj b.target (fun r => { r with late := min (r.late + b.entries.length) sat32Max }) })).showSel
          k b.target)) := by
  have hsel := (sel_taken hb b.target).trans hr
  refine congrArg Host.Outcome.next ((onCore_perform h _).trans (congrArg (perform s) ?_))
  rw [selServe, h.2.2.2, if_neg Bool.false_ne_true, hb]
  dsimp only
  rw [show ((s.pipe.modCore k fun c => { c with blocks := c.blocks.erase b }).core k).sel.get? b.target = some r from hsel]
  rfl

end

theorem mapsBlock_iff (r : SelReq) (b : SelBlock) : (r.maps b.src && !b.mapped) = true ↔
    r.use = .user ∧ (b.src = .tile ∨ b.src = .vsel) ∧ b.mapped = false := by
  simp only [SelReq.maps, Bool.and_eq_true, Bool.or_eq_true, beq_iff_eq, Bool.not_eq_true', and_assoc]

theorem takeSel_out (p : Pipe) (k : Nat) (r : SelReq) (b : SelBlock) : (p.takeSel k r b).out = p.out := by
  unfold Pipe.takeSel
  extract_lets b1 r1 p1
  have h1 : p1.out = p.out := (Pipe.putSel_out _ _ _ _).trans (Pipe.reside_out _ _ _)
  exact out_ite ((Pipe.closeUser_out _ _ _ _).trans h1) h1

/-- The block that a request takes: its ids mapped where no map has been applied. -/
def mappedBlock (p : Pipe) (k : Nat) (r : SelReq) (b : SelBlock) : SelBlock :=
  if r.use = .user ∧ (b.src = .tile ∨ b.src = .vsel) ∧ b.mapped = false
    then { b with entries := b.entries.map (p.mapId k r) } else b

theorem takeSel_eq (p : Pipe) (k : Nat) (r : SelReq) (b : SelBlock) :
    let r1 := r.takeBlock (mappedBlock p k r b)
    let p1 := (p.reside k b.target).putSel k b.target { r1 with owed := r1.owed - 1 }
    p.takeSel k r b = if r.state = .closing ∧ r.owed ≤ 1 then p1.closeUser k b.target r1 else p1 := by
  have hb : (if r.maps b.src && !b.mapped then { b with entries := b.entries.map (p.mapId k r) } else b) = mappedBlock p k r b :=
    ite_of_iff (mapsBlock_iff r b) rfl rfl
  unfold Pipe.takeSel
  rw [hb]
  exact ite_of_iff (by rw [Bool.and_eq_true, decide_eq_true_eq, decide_eq_true_eq]) rfl rfl

/-- CLOSE of a program's request, case by case. -/
theorem closeReq_rows {s : State} {k : Nat} (cl : CloseAt) (r : SelReq) (h : CoreOn s k) :
    let q := s.pipe.rawErrors cl.raw
    let n := cl.n
    let w := ((q.core k).blocks.filter (fun b => b.target == n)).length
    let e := { r.close with owed := 0, cmds := 0 }
    let q1 := (q.modCore k (fun y => { y with sel := y.sel.set n e, resident := y.resident.filter (· ≠ n) })).showSel k n
    (q.core k).sel.get? n = some r →
      (cl.parity = true → exec (.closeReq k cl) s =
        .next (perform s (({ q with out := [.fault (16 * k + 2)] } : Pipe).endJob r.job stABORTED (some k)))) ∧
      (cl.parity = false → r.use = .user →
        (r.state = .opened → w = 0 →
          (r.compact = false → r.fwd = false → exec (.closeReq k cl) s =
            .next (withPipe s (q1.plateWrite k e.out (e.result.flatMap selOutBytes)))) ∧
          (r.compact = true → r.fwd = false → exec (.closeReq k cl) s =
            .next (withPipe s (q1.plateWrite k e.list (e.result.flatMap selOutBytes)))) ∧
          (r.fwd = true → exec (.closeReq k cl) s = .next (withPipe s (q1.forward e)))) ∧
        (r.state = .opened → w ≠ 0 → exec (.closeReq k cl) s =
          .next (withPipe s (q.putSel k n { r with state := .closing, owed := w }))) ∧
        (r.state = .closing → exec (.closeReq k cl) s =
          .next (withPipe s (q.putSel k n { r with cmds := min 4 (r.cmds + 1) })))) := by
  intro q n w e q1 hr
  refine ⟨fun hpar => ?_, fun hpar huse => ⟨fun hst hw => ?_, fun hst hw => ?_, fun hst => ?_⟩⟩
  · refine exec_closeReq h cl hr ?_
    have hout : q.out = [] := (Pipe.rawErrors_out _ _).trans h.1.2
    rw [if_pos hpar, Pipe.selParity, show (s.pipe.rawErrors cl.raw).out = [] from hout, List.nil_append]
  · have hrow : q.closeProgram k n r = q.closeUser k n r := (closeProgram_opened hst).trans (if_pos hw)
    have hclose : q.closeUser k n r = if r.fwd = true then q1.forward e
        else if r.compact = true then q1.plateWrite k e.list (e.result.flatMap selOutBytes)
        else q1.plateWrite k e.out (e.result.flatMap selOutBytes) := rfl
    have hexec := exec_closeReq_user h cl hr hpar huse hrow (Pipe.closeUser_out _ _ _ _)
    rw [hexec, hclose]
    refine ⟨fun hc hf => ?_, fun hc hf => ?_, fun hf => ?_⟩
    · rw [if_neg (Bool.eq_false_iff.mp hf), if_neg (Bool.eq_false_iff.mp hc)]
    · rw [if_neg (Bool.eq_false_iff.mp hf), if_pos hc]
    · rw [if_pos hf]
  · exact exec_closeReq_user h cl hr hpar huse ((closeProgram_opened hst).trans (if_neg hw)) (Pipe.putSel_out _ _ _ _)
  · exact exec_closeReq_user h cl hr hpar huse (closeProgram_closing hst) (Pipe.putSel_out _ _ _ _)

/-- Settles O11: the rows of the selection unit, each on the request that it finds. -/
theorem selectionRows : Obligations.SelectionRows := by
  refine ⟨fun s k n h hn => ⟨exec_openReq h hn, exec_discard h n, fun r hr hst => exec_bound h hr hst⟩,
    fun s k cl r h => closeReq_rows cl r h, fun s k b h hb => ⟨fun hnone => ⟨?_, ?_⟩, fun r hr => ?_⟩⟩
  · refine (exec_selBlockServed_idle h hb hnone false).trans (congrArg Host.Outcome.next ?_)
    rw [if_neg Bool.false_ne_true]
    exact perform_quiet h.1.2
  · refine (exec_selBlockServed_idle h hb hnone true).trans ?_
    rw [if_pos rfl, selParity_taken h]
    rfl
  · have hrow := exec_selBlockServed h hb hr
    have hparity := hrow true
    have hserve := hrow false
    rw [if_pos rfl, selParity_taken h] at hparity
    rw [if_neg Bool.false_ne_true] at hserve
    have hsel := takeSel_eq (taken s.pipe k b) k r b
    have htake : ∀ q, (taken s.pipe k b).takeSel k r b = q → r.state = .opened ∨ (r.state = .closing ∧ 0 < r.owed) →
        blockMine r b = true → exec (.selBlockServed k false) s = .next (withPipe s q) := by
      intro q hq hst hmine
      have hst' : (r.state = .opened || (r.state = .closing && decide (r.owed > 0))) = true := by
        simpa only [Bool.or_eq_true, Bool.and_eq_true, decide_eq_true_eq] using hst
      rw [hserve, hmine, Bool.not_true, if_neg Bool.false_ne_true, if_pos hst', hq]
      refine congrArg Host.Outcome.next (perform_quiet ?_)
      rw [← hq, takeSel_out]
      exact h.1.2
    intro mine b1 r1 p2
    have hmine : blockMine r b = true ↔ mine := blockMine_iff r b
    refine ⟨fun hm => ?_, fun hm hj => ?_, fun hm => ?_, fun hm hst => ?_, fun hm hst ho => ?_, fun hm hst ho => ?_, fun hm hst => ?_⟩
    · rw [hserve, Bool.eq_false_iff.mpr (mt hmine.mp hm), Bool.not_false, if_pos rfl]
      exact congrArg Host.Outcome.next (perform_quiet h.1.2)
    · rw [hparity, hmine.mpr hm, Bool.true_and, if_pos (decide_eq_true hj)]
      rfl
    · have hnot : ¬ (blockMine r b && decide (b.job ≠ 0)) = true := by
        rw [Bool.and_eq_true, hmine, decide_eq_true_eq]
        exact fun ⟨h1, h2⟩ => hm.elim (absurd h1) h2
      rw [hparity, if_neg hnot]
      rfl
    · exact htake p2 (hsel.trans (if_neg fun hc => by simp [hst] at hc)) (.inl hst) (hmine.mpr hm)
    · exact htake p2 (hsel.trans (if_neg fun hc => by omega)) (.inr ⟨hst, by omega⟩) (hmine.mpr hm)
    · exact htake _ (hsel.trans (if_pos ⟨hst, by omega⟩)) (.inr ⟨hst, by omega⟩) (hmine.mpr hm)
    · have hst' : ¬ (r.state = .opened || (r.state = .closing && decide (r.owed > 0))) = true := by
        simp only [Bool.or_eq_true, Bool.and_eq_true, decide_eq_true_eq]
        obtain hs | hs | ⟨hs, ho⟩ := hst <;> simp [*]
      rw [hserve, hmine.mpr hm, Bool.not_true, if_neg Bool.false_ne_true, if_neg hst']
      refine congrArg Host.Outcome.next ((perform_quiet ?_).trans rfl)
      rw [Pipe.showSel_out]
      exact h.1.2

end Sys2Proof.Machine
end

section
/-!
PROOF. The key order of a selection (O12): the order of entries is asymmetric, so that inserting by it keeps a list in order.
-/
namespace Sys2Proof.Machine

open Sys2Proof.Claims

theorem Num.lt_asymm {x y : Num} (h : x.lt y = true) : y.lt x = false := by
  cases x with
  | nan => exact absurd h nofun
  | inf a => cases y with
    | nan => exact absurd h nofun
    | inf b => revert h; cases a <;> cases b <;> decide
    | fin b n g => revert h; cases a <;> simp [Num.lt]
  | fin a m e => cases y with
    | nan => exact absurd h nofun
    | inf b => revert h; cases b <;> simp [Num.lt]
    | fin b n g =>
      simp only [Num.lt, decide_eq_true_eq, decide_eq_false_iff_not, Int.not_lt, Int.min_comm g e] at h ⊢
      exact Int.le_of_lt h

theorem entBefore4_asymm {a b : SelEnt} (h : entBefore4 a b = true) : entBefore4 b a = false := by
  unfold entBefore4 at h ⊢
  dsimp only at h ⊢
  generalize f32IsNan a.score = na at h ⊢
  generalize f32IsNan b.score = nb at h ⊢
  have hlt := fun h => Num.lt_asymm (x := f32 a.score) (y := f32 b.score) h
  change f32Lt a.score b.score = true → f32Lt b.score a.score = false at hlt
  generalize f32Lt a.score b.score = lab at h hlt ⊢
  generalize f32Lt b.score a.score = lba at h hlt ⊢
  by_cases hp : a.part = b.part
  · simp only [hp, ne_eq, not_true_eq_false, if_false] at h ⊢
    revert h hlt
    cases na <;> cases nb <;> cases lab <;> cases lba <;> simp <;> omega
  · simp only [hp, Ne.symm hp, ne_eq, not_false_eq_true, if_true] at h ⊢
    revert h hlt
    cases na <;> cases nb <;> cases lab <;> cases lba <;> simp <;> omega

theorem entBefore_asymm {a b : SelEnt} (h : entBefore a b = true) : entBefore b a = false := by
  simp only [entBefore, Bool.or_eq_true, Bool.and_eq_true, Bool.not_eq_true', decide_eq_true_eq] at h
  simp only [entBefore, Bool.or_eq_false_iff, Bool.and_eq_false_iff, Bool.not_eq_false', decide_eq_false_iff_not]
  obtain h | ⟨h, hpos⟩ := h
  · exact ⟨entBefore4_asymm h, .inl h⟩
  · exact ⟨h, .inr (Nat.not_lt.mpr (Nat.le_of_lt hpos))⟩

theorem keyOrder_cons {a : SelEnt} {l : List SelEnt} : KeyOrder (a :: l) ↔ (∀ b ∈ l.head?, entBefore b a = false) ∧ KeyOrder l := by
  cases l with
  | nil => exact ⟨fun _ => ⟨nofun, trivial⟩, fun _ => trivial⟩
  | cons b t => exact and_congr ⟨fun h c hc => Option.some.inj hc ▸ h, fun h => h b rfl⟩ Iff.rfl

theorem head?_entInsert (x : SelEnt) (l : List SelEnt) : ∀ b ∈ (entInsert x l).head?, b = x ∨ b ∈ l.head? := by
  cases l with
  | nil => exact fun b hb => .inl (Option.some.inj hb).symm
  | cons y ys =>
    unfold entInsert
    split
    · exact fun b hb => .inl (Option.some.inj hb).symm
    · exact fun b hb => .inr hb

theorem keyOrder_entInsert (x : SelEnt) {l : List SelEnt} (h : KeyOrder l) : KeyOrder (entInsert x l) := by
  induction l with
  | nil => trivial
  | cons y ys ih =>
    obtain ⟨hhead, htail⟩ := keyOrder_cons.mp h
    unfold entInsert
    split
    case isTrue hlt => exact ⟨entBefore_asymm hlt, h⟩
    case isFalse hlt =>
      refine keyOrder_cons.mpr ⟨fun b hb => ?_, ih htail⟩
      obtain rfl | hb := head?_entInsert x ys b hb
      · exact Bool.eq_false_iff.mpr hlt
      · exact hhead b hb

theorem keyOrder_dropLast {l : List SelEnt} (h : KeyOrder l) : KeyOrder l.dropLast := by
  induction l with
  | nil => trivial
  | cons a l ih =>
    cases l with
    | nil => trivial
    | cons b t =>
      obtain ⟨hhead, htail⟩ := keyOrder_cons.mp h
      refine keyOrder_cons.mpr ⟨fun c hc => hhead c ?_, ih htail⟩
      cases t with
      | nil => exact absurd hc nofun
      | cons d t => exact hc

theorem mem_entInsert {x y : SelEnt} {l : List SelEnt} (h : y ∈ entInsert x l) : y = x ∨ y ∈ l := by
  induction l with
  | nil => exact .inl (List.mem_singleton.mp h)
  | cons z zs ih =>
    unfold entInsert at h
    split at h
    · exact List.mem_cons.mp h
    · obtain rfl | h := List.mem_cons.mp h
      · exact .inr List.mem_cons_self
      · exact (ih h).imp_right (List.mem_cons_of_mem z)

theorem length_entInsert (x : SelEnt) (l : List SelEnt) : (entInsert x l).length = l.length + 1 := by
  induction l with
  | nil => rfl
  | cons y ys ih =>
    unfold entInsert
    split
    · rfl
    · exact congrArg (· + 1) ih

/-- The entries of a selection within one register after another has come: the same, or with the new one, less the last where
there are more than K. -/
theorem takeEntry_entries (r : SelReq) (canon : Bool) (score : W32) (part id : Nat) (hc : r.compact = false) (hk : r.k ≤ 256) :
    (r.takeEntry canon score part id).k = r.k ∧
      ((r.takeEntry canon score part id).entries = r.entries ∨ ∃ e : SelEnt, e.part = part ∧ e.id = id ∧
        (r.takeEntry canon score part id).entries =
          if (entInsert e r.entries).length > r.k then (entInsert e r.entries).dropLast else entInsert e r.entries) := by
  unfold SelReq.takeEntry
  extract_lets w r1 out1 nan r2 out2 es lost e r3
  have hr2 : r2.compact = r.compact ∧ r2.k = r.k ∧ r2.entries = r.entries := by
    dsimp only [r2]
    split <;> exact ⟨rfl, rfl, rfl⟩
  obtain ⟨hc2, hk2, he2⟩ := hr2
  have hes : es = entInsert ⟨w, part, id, r2.arrivals⟩ r.entries := congrArg (entInsert _) he2
  split
  · exact ⟨rfl, .inl rfl⟩
  rw [hc2, hc, if_neg Bool.false_ne_true, hk2, if_pos hk]
  split
  case isTrue hgt => exact ⟨rfl, .inr ⟨_, rfl, rfl, by rw [← hes, if_pos hgt]⟩⟩
  case isFalse hle => exact ⟨rfl, .inr ⟨_, rfl, rfl, by rw [← hes, if_neg hle]⟩⟩

/-- Settles O12: an entry is inserted by the key, and the last is dropped where there are more than K. -/
theorem selectionKeepsOrder : Obligations.SelectionKeepsOrder := by
  intro r canon score part id hc hk h1 hlen hord t
  obtain ⟨htk, ht | ⟨e, hpart, hid, ht⟩⟩ := takeEntry_entries r canon score part id hc hk
  · have ht : t.entries = r.entries := ht
    rw [ht]
    exact ⟨htk, hlen, hord, fun e he => .inl he⟩
  · have hmem : ∀ x ∈ entInsert e r.entries, x ∈ r.entries ∨ (x.part = part ∧ x.id = id) := fun x hx => by
      obtain rfl | hx := mem_entInsert hx
      · exact .inr ⟨hpart, hid⟩
      · exact .inl hx
    have hins := length_entInsert e r.entries
    have ht : t.entries = _ := ht
    rw [ht]
    split
    case isTrue hgt =>
      refine ⟨htk, ?_, keyOrder_dropLast (keyOrder_entInsert e hord), fun x hx => hmem x (List.dropLast_subset _ hx)⟩
      rw [List.length_dropLast]
      omega
    case isFalse hle => exact ⟨htk, Nat.le_of_not_gt hle, keyOrder_entInsert e hord, hmem⟩

end Sys2Proof.Machine
end

section
/-!
PROOF. SCAN (O22): what the survivor buffer keeps, and how far the scan loop goes.
-/
namespace Sys2Proof.Machine

open Sys2Proof.Claims

/-! ## The survivor buffer -/

theorem mem_survInsert {x y : Surv} {l : List Surv} (h : y ∈ survInsert x l) : y = x ∨ y ∈ l := by
  induction l with
  | nil => exact .inl (List.mem_singleton.mp h)
  | cons z zs ih =>
    unfold survInsert at h
    split at h
    · exact List.mem_cons.mp h
    · obtain rfl | h := List.mem_cons.mp h
      · exact .inr List.mem_cons_self
      · exact (ih h).imp_right (List.mem_cons_of_mem z)

theorem mem_survByNum {x y : Surv} {l : List Surv} (h : y ∈ survByNum x l) : y = x ∨ y ∈ l := by
  induction l with
  | nil => exact .inl (List.mem_singleton.mp h)
  | cons z zs ih =>
    unfold survByNum at h
    split at h
    · exact List.mem_cons.mp h
    · obtain rfl | h := List.mem_cons.mp h
      · exact .inr List.mem_cons_self
      · exact (ih h).imp_right (List.mem_cons_of_mem z)

theorem length_survByNum (x : Surv) (l : List Surv) : (survByNum x l).length = l.length + 1 := by
  induction l with
  | nil => rfl
  | cons y ys ih =>
    unfold survByNum
    split
    · rfl
    · exact congrArg (· + 1) ih

theorem mem_foldr_insert {f : Surv → List Surv → List Surv} (hf : ∀ {x y l}, y ∈ f x l → y = x ∨ y ∈ l) {y : Surv} {l : List Surv}
    (h : y ∈ l.foldr f []) : y ∈ l := by
  induction l with
  | nil => exact h
  | cons x xs ih =>
    obtain rfl | h := hf h
    · exact List.mem_cons_self
    · exact List.mem_cons_of_mem x (ih h)

theorem length_foldr_survByNum (l : List Surv) : (l.foldr survByNum []).length = l.length := by
  induction l with
  | nil => rfl
  | cons x xs ih => exact (length_survByNum _ _).trans (congrArg (· + 1) ih)

theorem ScanBuf.length_live_le (b : ScanBuf) : b.live.length ≤ b.len := List.length_take_le _ _

/-- What is in use after an entry has been pushed was in use before, or is that entry. -/
theorem ScanBuf.mem_live_push {b : ScanBuf} {x y : Surv} (h : y ∈ (b.push x).live) : y ∈ b.live ∨ y = x := by
  have hsub : y ∈ b.live ++ [x] := by
    by_cases hlen : b.len ≤ b.slots.length
    · have hlive : (b.live ++ [x]).length = b.len + 1 := by
        rw [List.length_append, live, List.length_take, Nat.min_eq_left hlen]
        rfl
      have htake : (b.push x).live = b.live ++ [x] := List.take_left' hlive
      rwa [htake] at h
    · have hdrop : b.slots.drop (b.len + 1) = [] := List.drop_of_length_le (by omega)
      have hmem := List.mem_of_mem_take h
      rwa [push, hdrop, List.append_nil] at hmem
  obtain h | h := List.mem_append.mp hsub
  · exact .inl h
  · exact .inr (List.mem_singleton.mp h)

theorem ScanBuf.mem_live_prune {b : ScanBuf} {k : Nat} {lth : W32} {y : Surv} (h : y ∈ (b.prune k lth).1.live) : y ∈ b.live := by
  unfold prune at h
  split at h
  · exact h
  · dsimp only [live] at h
    rw [List.take_left' rfl] at h
    have hkept := mem_foldr_insert mem_survByNum h
    exact mem_foldr_insert mem_survInsert (List.mem_of_mem_take hkept)

theorem ScanBuf.len_prune_le (b : ScanBuf) (k : Nat) (lth : W32) : (b.prune k lth).1.len ≤ k := by
  unfold prune
  split
  · assumption
  · exact Nat.le_trans (Nat.le_of_eq (length_foldr_survByNum _)) (List.length_take_le _ _)

/-! ## The scan loop -/

/-- Every entry in use is below a bound. -/
def ScanBuf.Below (b : ScanBuf) (bound : Nat) : Prop := ∀ y ∈ b.live, y.1 < bound

theorem ScanBuf.Below.push {b : ScanBuf} {n bound : Nat} (h : b.Below bound) (hn : n < bound) (y s : W32) :
    (b.push (n, y, s)).Below bound := fun z hz => by
  obtain hz | rfl := mem_live_push hz
  · exact h z hz
  · exact hn

theorem scanLoop_below (e : ScoreEnv) (h : PieceHdr) (cap bound : Nat) (k n : Nat) (buf : ScanBuf) (lth : W32) (tested : Nat) (b : Bank)
    (hbuf : buf.Below bound) (hn : n + k ≤ bound) :
    (scanLoop e h cap k n buf lth tested b).1.Below bound ∧ (scanLoop e h cap k n buf lth tested b).2.1 ≤ tested + k := by
  induction k generalizing n buf lth tested b with
  | zero => exact ⟨hbuf, Nat.le_refl _⟩
  | succ k ih =>
    have hnext : ∀ (buf : ScanBuf) lth b, buf.Below bound →
        (scanLoop e h cap k (n + 1) buf lth (tested + 1) b).1.Below bound ∧
          (scanLoop e h cap k (n + 1) buf lth (tested + 1) b).2.1 ≤ tested + (k + 1) := fun buf lth b hb => by
      have h1 := ih (n + 1) buf lth (tested + 1) b hb (by omega)
      exact ⟨h1.1, by omega⟩
    unfold scanLoop
    split
    · exact ⟨hbuf, Nat.le_add_right _ _⟩
    · generalize b.testEntry e h lth n = r
      obtain ⟨pass, y, s, b1⟩ := r
      have hpush := hbuf.push (n := n) (by omega) y s
      dsimp only
      split
      · split
        · exact hnext _ _ _ fun z hz => hpush z (ScanBuf.mem_live_prune hz)
        · exact hnext _ _ _ hpush
      · exact hnext _ _ _ hbuf

/-- The scoring environment of a SCAN, the slots of its buffer, and the port once the tables of further sweeps lie in the window. -/
def scanEnv (e : ScoreEnv) (h : PieceHdr) : ScoreEnv := { e with qfmt := queryFmt 3 h.codeb h.sfmt e.query.length }
def scanCap (e : ScoreEnv) (h : PieceHdr) : Nat := bufSlots (scanEnv e h).req.smax (pqSweeps h)
def scanBank (e : ScoreEnv) (h : PieceHdr) (w : Nat) (b : Bank) : Bank :=
  b.sweepTabs (scanEnv e h) h w h.tail ((0x40000 - 8 * scanCap e h) / 16384)

/-- What a SCAN answers when its loop has ended. -/
def scanEnd (e : ScoreEnv) (h : PieceHdr) (w : Nat) : ScanBuf × Nat × Bank → KernelEnd × ScanBuf
  | (buf, tested, b) =>
    let kept := (buf.prune (scanEnv e h).req.smax f32PosInf).1
    let b1 := b.putBuf (scanEnv e h) h w (scanCap e h) tested kept
    ({ status := if b1.ue then .ue else .done, survivors := kept.live.map (fun x => (x.2.1, ordOf h x.1)),
       scanned := tested, tailRead := h.tail, bank := b1 }, kept)

def scanFrom (e : ScoreEnv) (w : Nat) : PieceHdr × Bank → KernelEnd × ScanBuf
  | (h, b) => scanEnd e h w (scanLoop (scanEnv e h) h (scanCap e h) h.tail 0 ⟨[], 0⟩ f32PosInf 0 (scanBank e h w b))

/-- The equation is between functions: of an application the kernel would evaluate the header that it reads. -/
theorem kernelScan_eq : kernelScan = fun e w b => scanFrom e w (b.hdr e.req.piece) := by
  delta kernelScan
  funext e w b
  generalize b.hdr e.req.piece = x
  obtain ⟨h, b1⟩ := x
  rfl

theorem kernelScan_apply (e : ScoreEnv) (w : Nat) (b : Bank) : kernelScan e w b = scanFrom e w (b.hdr e.req.piece) :=
  congrFun (congrFun (congrFun kernelScan_eq e) w) b

/-- The end of a SCAN whose loop went over n entries below TAIL. -/
theorem scanEnd_stops (e : ScoreEnv) (h : PieceHdr) (w : Nat) {r : ScanBuf × Nat × Bank} (hbelow : r.1.Below h.tail)
    (htested : r.2.1 ≤ h.tail) : let x := (scanEnd e h w r).1
    x.tailRead = h.tail ∧ x.scanned ≤ h.tail ∧ x.survivors.length ≤ e.req.smax ∧
    ∀ y ∈ x.survivors, ∃ n, n < h.tail ∧ y.2 = (h.ordbase + n) % 2 ^ 32 := by
  obtain ⟨buf, tested, b⟩ := r
  refine ⟨rfl, htested, ?_, fun y hy => ?_⟩
  · exact Nat.le_trans (Nat.le_of_eq (List.length_map _)) (Nat.le_trans (ScanBuf.length_live_le _) (ScanBuf.len_prune_le _ _ _))
  · obtain ⟨z, hz, rfl⟩ := List.mem_map.mp hy
    exact ⟨z.1, hbelow z (ScanBuf.mem_live_prune hz), rfl⟩

theorem scanFrom_stops (e : ScoreEnv) (w : Nat) (hb : PieceHdr × Bank) :
    let x := (scanFrom e w hb).1
    let h := hb.1
    x.tailRead = h.tail ∧ x.scanned ≤ h.tail ∧ x.survivors.length ≤ e.req.smax ∧
    ∀ y ∈ x.survivors, ∃ n, n < h.tail ∧ y.2 = (h.ordbase + n) % 2 ^ 32 := by
  obtain ⟨h, b⟩ := hb
  have hloop := scanLoop_below (scanEnv e h) h (scanCap e h) h.tail h.tail 0 ⟨[], 0⟩ f32PosInf 0 (scanBank e h w b) nofun
    (Nat.le_of_eq (Nat.zero_add _))
  unfold scanFrom
  dsimp only
  exact scanEnd_stops e h w hloop.1 (Nat.le_trans hloop.2 (Nat.le_of_eq (Nat.zero_add _)))

/-- Settles O22: the loop runs over the entries below TAIL, and the last prune leaves SMAX of them. -/
theorem scanStopsAtTail : Obligations.ScanStopsAtTail := by
  intro e w b
  rw [kernelScan_apply]
  exact scanFrom_stops e w (b.hdr e.req.piece)

end Sys2Proof.Machine
end

section
/-!
PROOF. Passes of the arrays and the Derotator (O13).
-/
namespace Sys2Proof.Machine

open Sys2Proof.Claims

/-! ## What a pass leaves of the selection requests -/

theorem Pipe.sel_modPart (p : Pipe) (i k : Nat) {f : Part → Part} (hf : ∀ q, (f q).core.sel = q.core.sel) :
    ((p.modPart i f).core k).sel = (p.core k).sel := by
  rw [core, core, part, part, modPart, getElem?_modNth]
  split
  · cases p.parts[k]? with
    | none => rfl
    | some q => exact hf q
  · rfl

theorem Pipe.sel_foldl {α : Type} {f : Pipe → α → Pipe} {k : Nat} (h : ∀ p x, ((f p x).core k).sel = (p.core k).sel) (l : List α)
    (p : Pipe) : ((l.foldl f p).core k).sel = (p.core k).sel := by
  induction l generalizing p with
  | nil => rfl
  | cons x xs ih => exact (ih _).trans (h p x)

theorem Pipe.sel_chargePass (p : Pipe) (i k : Nat) (t : Tile) : ((p.chargePass i t).core k).sel = (p.core k).sel := by
  unfold chargePass
  dsimp only
  refine (sel_foldl ?_ _ _).trans (sel_modPart p i k ?_)
  · exact fun _ _ => rfl
  · exact fun _ => rfl

theorem Pipe.sel_putBlocks (p : Pipe) (i k target : Nat) (src : BlockSrc) (job : Nat) (mapped : Bool) (es : List (W32 × Nat × Nat)) :
    ((p.putBlocks i target src job mapped es).core k).sel = (p.core k).sel := sel_modPart p i k fun _ => rfl

theorem Pipe.sel_deliver (p : Pipe) (i k target : Nat) (src : BlockSrc) (job : Nat) (es : List (W32 × Nat × Nat)) :
    ((p.deliver i target src job es).core k).sel = (p.core k).sel := by
  unfold deliver
  split
  · split <;> exact sel_putBlocks ..
  · exact sel_putBlocks ..

/-! ## Rows of a pass -/

/-- One row of a pass, delivered to its request; its entries count as stray where its job has left the tile. -/
def deliverRow (k : Nat) (t : Tile) (stage : Nat → Bool) (cells : List (Nat × Nat × W32 × W32)) (p : Pipe) (i : Nat) : Pipe :=
  let es := t.rowEntries (stage (t.sel.getD i 0)) cells i
  let j := t.jobs.getD i (t.jobs.headD 0)
  if j = 0 ∧ t.jobs ≠ [] then p.modCore k (fun c => { c with stray := c.stray + es.length })
  else p.deliver k (t.sel.getD i 0) .tile j es

theorem sel_deliverRow (k : Nat) (t : Tile) (stage : Nat → Bool) (cells : List (Nat × Nat × W32 × W32)) (p : Pipe) (i : Nat) :
    ((deliverRow k t stage cells p i).core k).sel = (p.core k).sel := by
  unfold deliverRow
  dsimp only
  split
  · exact Pipe.sel_modPart p k k fun _ => rfl
  · exact Pipe.sel_deliver ..

/-- The requests of the core are the same through all rows, so one reading of them serves. -/
theorem deliverRows_eq (k : Nat) (t : Tile) (cells : List (Nat × Nat × W32 × W32)) (stage : Nat → Bool) (rows : List Nat) (p : Pipe)
    (hp : ∀ n, (p.core k).stageSel n = stage n) :
    rows.foldl (fun (p : Pipe) i =>
      let es := t.rowEntries ((p.core k).stageSel (t.sel.getD i 0)) cells i
      let j := t.jobs.getD i (t.jobs.headD 0)
      if j = 0 && !t.jobs.isEmpty then p.modCore k (fun c => { c with stray := c.stray + es.length })
      else p.deliver k (t.sel.getD i 0) .tile j es) p = rows.foldl (deliverRow k t stage cells) p := by
  induction rows generalizing p with
  | nil => rfl
  | cons i rows ih =>
    have hi : (let es := t.rowEntries ((p.core k).stageSel (t.sel.getD i 0)) cells i
        let j := t.jobs.getD i (t.jobs.headD 0)
        if j = 0 && !t.jobs.isEmpty then p.modCore k (fun c => { c with stray := c.stray + es.length })
        else p.deliver k (t.sel.getD i 0) .tile j es) = deliverRow k t stage cells p i := by
      rw [deliverRow, hp]
      exact ite_of_iff (by simp) rfl rfl
    rw [List.foldl_cons, List.foldl_cons, hi]
    refine ih _ fun n => (Eq.trans ?_ (hp n))
    simp only [CoreSt.stageSel, sel_deliverRow]

/-! ## TILE_PASS -/

theorem coarseBatch_empty {p : Pipe} {k : Nat} (h : (p.core k).coarse = []) : p.coarseBatch k = p := by
  simp only [Pipe.coarseBatch, h, List.find?_nil, List.head?_nil, Option.orElse_none]

section
variable {s : State} {k : Nat} (h : CoreOn s k) {t : Tile} (hcoarse : (s.pipe.core k).coarse = [])
  (hroom : (s.pipe.core k).blocks.length < 256) (hnext : (s.pipe.core k).nextTile = some t)
include h hcoarse hroom hnext

theorem exec_tilePass_parity : exec (.tilePass k true) s = .next (perform s
    (let p1 := ((t.jobs.filter (· ≠ 0)).eraseDups).foldl (fun p j => p.endJob j stABORTED (some k)) s.pipe
     { p1.modCore k (fun c => { c with tiles := c.tiles.filter (fun x => x.handle != t.handle) }) with
        out := p1.out ++ [.fault (16 * k + 2)] })) := by
  refine congrArg Host.Outcome.next ((onCore_perform h _).trans (congrArg (perform s) ?_))
  have hon : (s.pipe.fenced k || decide (k ≥ 16)) = false := by
    rw [h.2.2.2, decide_eq_false (Nat.not_le.mpr h.2.2.1), Bool.or_self]
  have hfull : s.pipe.blocksFull k = false := decide_eq_false (Nat.not_le.mpr hroom)
  unfold tilePass
  rw [hon, if_neg Bool.false_ne_true, coarseBatch_empty hcoarse]
  dsimp only
  rw [hfull, if_neg Bool.false_ne_true, hnext]
  rfl

theorem exec_tilePass_last (hout : t.out = none) (huse : t.use = .plain) (hsel : t.sel ≠ []) (hlast : t.next + 1 ≥ t.passes) :
    let cells := (t.passCells t.next).map (fun c => (c.1, c.2, (t.output c.1 c.2).1, (t.output c.1 c.2).2))
    exec (.tilePass k false) s = .next (perform s (((cells.map (fun c => c.1)).eraseDups.foldl
      (deliverRow k t (s.pipe.core k).stageSel cells) (s.pipe.chargePass k t)).modCore k (fun c =>
        { c with tiles := c.tiles.filter (fun x => x.handle != t.handle) }))) := by
  intro cells
  refine congrArg Host.Outcome.next ((onCore_perform h _).trans (congrArg (perform s) ?_))
  have hon : (s.pipe.fenced k || decide (k ≥ 16)) = false := by
    rw [h.2.2.2, decide_eq_false (Nat.not_le.mpr h.2.2.1), Bool.or_self]
  have hfull : s.pipe.blocksFull k = false := decide_eq_false (Nat.not_le.mpr hroom)
  have hne : t.sel.isEmpty = false := List.isEmpty_eq_false_iff.mpr hsel
  have hrows := deliverRows_eq k t cells (s.pipe.core k).stageSel (cells.map (fun c => c.1)).eraseDups (s.pipe.chargePass k t)
    fun n => by simp only [CoreSt.stageSel, Pipe.sel_chargePass]
  unfold tilePass
  rw [hon, if_neg Bool.false_ne_true, coarseBatch_empty hcoarse]
  dsimp only
  rw [hfull, if_neg Bool.false_ne_true, hnext]
  dsimp only
  rw [if_neg Bool.false_ne_true, hout, huse, hne, if_neg Bool.false_ne_true, if_neg (Nat.not_lt.mpr hlast)]
  exact congrArg (fun p : Pipe => p.modCore k (fun c => { c with tiles := c.tiles.filter (fun x => x.handle != t.handle) })) hrows

end

/-! ## DEROTATOR -/

section
variable {s : State} {k : Nat} (h : CoreOn s k) {w : DerotWait}
  (hw : [0, 1, 2].findSome? (fun g => (s.pipe.core k).derot.find? (fun w => w.group == g)) = some w)
include h hw

theorem exec_derotator (parity : Bool) : exec (.derotator k parity) s = .next (perform s
    (let p1 := s.pipe.modCore k (fun c => { c with derot := c.derot.erase w })
     if parity then ({ p1 with out := [.fault (16 * k + 2)] } : Pipe).endJob w.job stABORTED (some k)
     else if w.group = 2 then p1.derotIngest w.job
     else
       let p2 := p1.derotQuery w.job
       match p2.jobAt w.job .derot with
       | none => p2
       | some jb => match p2.idxOf jb with
         | some x => if x.desc.graph then p2.enterWalk w.job else p2
         | none => p2)) := by
  refine congrArg Host.Outcome.next ((onCore_perform h _).trans (congrArg (perform s) ?_))
  have hout : (s.pipe.modCore k (fun c => { c with derot := c.derot.erase w })).out = [] := h.1.2
  unfold derotator
  rw [h.2.2.2, if_neg Bool.false_ne_true]
  dsimp only
  rw [hw]
  dsimp only
  rw [hout, List.nil_append] <;> rfl

end

/-- Settles O13: the rows of a last pass, one after another, and the vector that the Derotator takes. -/
theorem arrayRows : Obligations.ArrayRows := by
  intro s k h
  refine ⟨fun t hcoarse hroom hnext => ⟨exec_tilePass_last h hcoarse hroom hnext, exec_tilePass_parity h hcoarse hroom hnext⟩,
    fun w hw => ?_⟩
  have hrow := exec_derotator h hw
  refine ⟨fun hg => ?_, fun hg hnone => ?_, hrow true⟩
  · rw [hrow, if_neg Bool.false_ne_true, if_pos hg]
  · rw [hrow, if_neg Bool.false_ne_true, if_neg hg]
    dsimp only
    rw [hnone]

end Sys2Proof.Machine
end

section
/-!
PROOF. Commands of the Coelostat, once the tests of R563 have been passed: how each end of a command leaves the package. And the
queue commands (O45).
-/
namespace Sys2Proof.Machine

open Sys2Proof.Claims

/-! ## A command that is served -/

section
variable {s : State} {core op : Nat} {x : Running} {g : State → Request → Gate} {k : State → Request → Bool → State × CmdEnd}

/-- The core goes on with its command later. -/
def State.goesOn (s : State) (core : Nat) (x : Running) : State :=
  { s with coel := { s.coel with running := s.coel.running.set core x } }.settle

theorem cmd_served (h : Served s core op x (g s x.req)) : s.cmd core op g k =
    match k s x.req false with
    | (s1, .wait) => s1.goesOn core { x with begun := true }
    | (s1, .more pos tally) => s1.goesOn core { x with begun := true, pos := pos, tally := tally }
    | (s1, .done a) => answers s1 core x a
    | (_, .short parts) => (s.freeCore core).defer_ x.req parts
    | (s1, .hold k u) =>
      let s2 := (s1.freeCore core).settle
      { s2 with coel := { s2.coel with waiters := s2.coel.waiters ++ [{ req := x.req, part := k, unfence := u }] } } := by
  obtain ⟨hrun, hop, hserves, hlate, hbegun, hgate⟩ := h
  have hnot : ¬ (decide (x.req.opcode ≠ op) || !s.serves) = true := by simp [hop, hserves]
  have hgated : s.gated x.req (x.late || x.begun) (g s x.req) (k s x.req (x.late || x.begun)) = k s x.req false := by
    rw [hlate, hbegun, Bool.or_self, State.gated, hgate]
  unfold State.cmd State.command
  rw [hrun]
  dsimp only
  rw [if_neg hnot, hgated]
  generalize k s x.req false = r
  obtain ⟨s1, e⟩ := r
  cases e with
  | done a => simp only [answers, State.finish, hlate, Bool.false_eq_true, if_false]
  | wait => rfl
  | more pos tally => rfl
  | short parts => rfl
  | hold k u => rfl

theorem cmd_answers (h : Served s core op x (g s x.req)) {t : State} {a : Answer} (hk : k s x.req false = (t, .done a)) :
    s.cmd core op g k = answers t core x a := by
  rw [cmd_served h, hk]

theorem cmd_waits (h : Served s core op x (g s x.req)) {t : State} (hk : k s x.req false = (t, .wait)) :
    s.cmd core op g k = t.goesOn core { x with begun := true } := by
  rw [cmd_served h, hk]

theorem cmd_more (h : Served s core op x (g s x.req)) {t : State} {pos tally : Nat} (hk : k s x.req false = (t, .more pos tally)) :
    s.cmd core op g k = t.goesOn core { x with begun := true, pos := pos, tally := tally } := by
  rw [cmd_served h, hk]

theorem cmd_holds (h : Served s core op x (g s x.req)) {t : State} {n : Nat} {u : Bool} (hk : k s x.req false = (t, .hold n u)) :
    s.cmd core op g k = { (t.freeCore core).settle with coel := { (t.freeCore core).settle.coel with
      waiters := (t.freeCore core).settle.coel.waiters ++ [{ req := x.req, part := n, unfence := u }] } } := by
  rw [cmd_served h, hk]

end

/-! ## Changes under a generation number (R445) -/

section
variable {p : Pipe} {q gen : Nat} {f : AlmEntry → Option AlmEntry}

theorem almChange_stale (h : gen ≠ ((p.touchQueue q).queue q).gen) :
    p.almChange q gen f = (p.touchQueue q, stSTALE, ((p.touchQueue q).queue q).gen) := if_pos h

theorem almChange_badState (h : gen = ((p.touchQueue q).queue q).gen) (hf : f ((p.touchQueue q).queue q) = none) :
    p.almChange q gen f = (p.touchQueue q, stBADSTATE, ((p.touchQueue q).queue q).gen) := by
  simp only [Pipe.almChange, h, ne_eq, not_true_eq_false, if_false, hf]

theorem almChange_ok (h : gen = ((p.touchQueue q).queue q).gen) {e : AlmEntry} (hf : f ((p.touchQueue q).queue q) = some e) :
    p.almChange q gen f = ((p.touchQueue q).setQueue q { e with gen := (((p.touchQueue q).queue q).gen + 1) % 65536 }, stOK,
      (((p.touchQueue q).queue q).gen + 1) % 65536) := by
  simp only [Pipe.almChange, h, ne_eq, not_true_eq_false, if_false, hf]

end

section
variable (e : AlmEntry) (b : Bool) (i : List Byte)

theorem create_free (h : e.state = .free) : e.create b i = some { (AlmEntry.zero.takeFixed i).takeRest i with
    state := if b then .paused else .enabled, gen := e.gen, cphase := true } := by
  simp only [AlmEntry.create, h, ne_eq, not_true_eq_false, if_false]

theorem create_eq_none (h : e.state ≠ .free) : e.create b i = none := if_pos h

theorem isSome_create : (e.create b i).isSome = true ↔ e.state = .free := by
  by_cases h : e.state = .free
  · simp [create_free e b i h, h]
  · simp [create_eq_none e b i h, h]

theorem isSome_pause : e.pause.isSome = true ↔ e.state = .enabled := by
  unfold AlmEntry.pause
  split <;> simp_all

theorem isSome_resume : e.resume.isSome = true ↔ e.state = .paused := by
  unfold AlmEntry.resume
  split <;> simp_all

theorem isSome_modify : (e.modify i).isSome = true ↔ e.state ≠ .free := by
  unfold AlmEntry.modify
  split <;> simp_all

theorem destroy_fit (h : e.state = .enabled ∨ e.state = .paused) :
    e.destroy = some { e with state := if e.outst = 0 then .free else .draining, fetched := [] } :=
  if_pos (by simpa using h)

theorem destroy_unfit (h : ¬ (e.state = .enabled ∨ e.state = .paused)) : e.destroy = none := if_neg (by simpa using h)

theorem isSome_destroy : e.destroy.isSome = true ↔ e.state = .enabled ∨ e.state = .paused := by
  by_cases h : e.state = .enabled ∨ e.state = .paused
  · simp only [destroy_fit e h, h, Option.isSome_some]
  · simp only [destroy_unfit e h, h, Option.isSome_none, Bool.false_eq_true]

theorem isSome_reset : e.reset.isSome = true ↔ e.state ≠ .free := by
  unfold AlmEntry.reset
  split <;> simp_all

end

/-! ## The queue commands -/

/-- What follows a change that has been made, and what does not. -/
def Pipe.andThen (r : Pipe × Nat × Nat) (f : Pipe → Pipe) : Pipe × Nat × Nat := if r.2.1 = stOK then (f r.1, r.2) else r

theorem queReset_eq (p : Pipe) (q gen : Nat) : p.queReset q gen = Pipe.andThen (p.almChange q gen AlmEntry.reset) (fun p1 =>
    let t := p1.unlist q
    if (p.queue q).kind = .qsub ∨ (p.queue q).kind = .isub then
      ((t.jobs.filter (fun j => j.2.queue == q && j.2.peer.isNone)).map Prod.fst).foldl Pipe.markAbort t
    else if (p.queue q).kind = .comp then t.dropComps q
    else t) := by
  unfold Pipe.queReset Pipe.andThen
  dsimp only
  by_cases hok : (p.almChange q gen AlmEntry.reset).2.1 = stOK
  · rw [if_neg (not_not_intro hok), if_pos hok]
    by_cases hsub : (p.queue q).kind = .qsub ∨ (p.queue q).kind = .isub
    · rw [if_pos (by simpa using hsub), if_pos hsub]
    · rw [if_neg (by simpa using hsub), if_neg hsub]
      split <;> rfl
  · rw [if_pos hok, if_neg hok]

section
variable {s : State} {c op : Nat} {h : HostData} {x : Running} {i : Instr} {f : AlmEntry → Option AlmEntry} {after : Pipe → Pipe}

/-- A queue command changes the entry, and does what follows. -/
def QueueRow (s : State) (c op : Nat) (i : Instr) (x : Running) (f : AlmEntry → Option AlmEntry) (after : Pipe → Pipe) : Prop :=
  ∃ k, exec i s = .next (s.cmd c op (gateQ true) k) ∧
    k s x.req false = s.queued (Pipe.andThen (s.pipe.almChange (x.req.q 32) x.req.gen f) after)

theorem QueueRow.refused (hi : QueueRow s c op i x f after) (hs : Served s c op x (gateQ true s x.req)) :
    let p := s.pipe.touchQueue (x.req.q 32)
    let e := p.queue (x.req.q 32)
    (x.req.gen ≠ e.gen → exec i s = .next (answers (withPipe s p) c x { status := stSTALE, gen := e.gen })) ∧
    (x.req.gen = e.gen → f e = none → exec i s = .next (answers (withPipe s p) c x { status := stBADSTATE, gen := e.gen })) := by
  obtain ⟨k, hexec, hk⟩ := hi
  refine ⟨fun hg => ?_, fun hg hf => ?_⟩
  · rw [almChange_stale hg] at hk
    exact hexec.trans (congrArg Host.Outcome.next (cmd_answers hs hk))
  · rw [almChange_badState hg hf] at hk
    exact hexec.trans (congrArg Host.Outcome.next (cmd_answers hs hk))

theorem QueueRow.made (hi : QueueRow s c op i x f after) (hs : Served s c op x (gateQ true s x.req)) {e1 : AlmEntry} :
    let p := s.pipe.touchQueue (x.req.q 32)
    let e := p.queue (x.req.q 32)
    x.req.gen = e.gen → f e = some e1 →
      exec i s = .next (answers (withPipe s (after (p.setQueue (x.req.q 32) { e1 with gen := (e.gen + 1) % 65536 }))) c x
        { status := stOK, gen := (e.gen + 1) % 65536 }) := by
  intro p e hg hf
  obtain ⟨k, hexec, hk⟩ := hi
  rw [almChange_ok hg hf] at hk
  exact hexec.trans (congrArg Host.Outcome.next (cmd_answers hs hk))

end

theorem andThen_id (r : Pipe × Nat × Nat) : Pipe.andThen r id = r := by
  unfold Pipe.andThen
  split <;> rfl

section
variable (s : State) (c : Nat) (h : HostData) (x : Running)

theorem row_queCreate : QueueRow s c 0x0201 (.queCreate c h) x (fun e => e.create (x.req.b 35 == 1) x.req.image)
    (·.unlist (x.req.q 32)) := ⟨_, rfl, rfl⟩
theorem row_queModify : QueueRow s c 0x0202 (.queModify c h) x (fun e => e.modify x.req.image) id := by
  refine ⟨_, rfl, ?_⟩
  rw [andThen_id]
  rfl
theorem row_quePause : QueueRow s c 0x0203 (.quePause c h) x AlmEntry.pause (·.delist (x.req.q 32)) := ⟨_, rfl, rfl⟩
theorem row_queResume : QueueRow s c 0x0204 (.queResume c h) x AlmEntry.resume (·.enlist (x.req.q 32)) := ⟨_, rfl, rfl⟩
theorem row_queDestroy : QueueRow s c 0x0205 (.queDestroy c h) x AlmEntry.destroy (·.unlist (x.req.q 32)) := ⟨_, rfl, rfl⟩
theorem row_queReset : QueueRow s c 0x0206 (.queReset c h) x AlmEntry.reset (fun p1 =>
    let t := p1.unlist (x.req.q 32)
    let kind := (s.pipe.queue (x.req.q 32)).kind
    if kind = .qsub ∨ kind = .isub then
      ((t.jobs.filter (fun j => j.2.queue == x.req.q 32 && j.2.peer.isNone)).map Prod.fst).foldl Pipe.markAbort t
    else if kind = .comp then t.dropComps (x.req.q 32)
    else t) := ⟨_, rfl, by rw [queReset_eq]⟩

end

/-! ## QRY_ABORT -/

section
variable {p : Pipe} {q slot tag : Nat}

/-- The job that an abort names, and a fetched slot that it names. -/
def abortJob? (p : Pipe) (q slot tag : Nat) : Option (Nat × Job) :=
  p.jobs.find? (fun j => j.2.queue == q && j.2.slot == slot && j.2.peer.isNone && j.2.tag == tag)
def abortSlot? (e : AlmEntry) (slot : Nat) : Option Fetched := e.fetched.find? (fun f => f.slot == slot && !f.aborted)

theorem abortJob_job {n : Nat} {j : Job} (hj : abortJob? p q slot tag = some (n, j)) : p.abortJob q slot tag =
    if j.batch = true ∧ j.counted = true then (p, stTOOLATE, 0) else (p.markAbort n, stOK, 0) := by
  unfold abortJob? at hj
  unfold Pipe.abortJob
  rw [hj]
  exact ite_of_iff (Bool.and_eq_true _ _).to_iff rfl rfl

section
variable (hj : abortJob? p q slot tag = none)
include hj

theorem abortJob_noQueue (he : (p.queue q).isSub = false ∨ (p.queue q).state = .free) :
    p.abortJob q slot tag = (p, stTOOLATE, 0) := by
  unfold abortJob? at hj
  unfold Pipe.abortJob
  rw [hj]
  exact if_pos (by simpa using he)

variable (hsub : (p.queue q).isSub = true) (hfree : (p.queue q).state ≠ .free)
include hsub hfree

theorem abortJob_held {f : Fetched} (hf : abortSlot? (p.queue q) slot = some f) : p.abortJob q slot tag =
    if (p.queue q).tagOf f.desc ≠ tag then (p, stTOOLATE, 0)
    else (((p.entryEnd q f).modQueue q (fun e =>
      ({ e with fetched := e.fetched.map (fun (x : Fetched) => if x.slot = slot then { x with aborted := true } else x) }).dropAborted
        65536)).passAborts q (p.queue q).cidx, stOK, 0) := by
  unfold abortJob? at hj
  unfold abortSlot? at hf
  unfold Pipe.abortJob
  rw [hj]
  dsimp only
  rw [if_neg (by simp [hsub, hfree]), hf]

theorem abortJob_ahead (hf : abortSlot? (p.queue q) slot = none) :
    let e := p.queue q
    let ahead := (slot + e.size - e.cidx % e.size) % e.size
    p.abortJob q slot tag = if slot ≥ e.size ∨ ahead ≥ e.occupied ∨ ahead < e.fetchedSlots then (p, stTOOLATE, 0)
      else if (p.part (queuePart q)).alm.aborts.length ≥ 16 then (p, stBUSY, 10)
      else (p.modPart (queuePart q) (fun x => { x with alm := { x.alm with aborts := x.alm.aborts ++ [(q, slot, tag)] } }), stOK, 0) := by
  unfold abortJob? at hj
  unfold abortSlot? at hf
  unfold Pipe.abortJob
  rw [hj]
  dsimp only
  rw [if_neg (by simp [hsub, hfree]), hf]
  exact ite_of_iff (by simp only [Bool.or_eq_true, decide_eq_true_eq, or_assoc]) rfl rfl

end
end

theorem exec_qryAbort {s : State} {c : Nat} {x : Running} (hs : Served s c 0x0208 x (gateQ false s x.req)) (h : HostData)
    {t : Pipe} {st hint : Nat} (ha : s.pipe.abortJob (x.req.q 32) (x.req.h 36) (x.req.d 40) = (t, st, hint)) :
    exec (.qryAbort c h) s = .next (answers (withPipe s t) c x { status := st, hint := hint }) := by
  refine congrArg Host.Outcome.next (cmd_answers hs ?_)
  rw [ha]
  rfl

/-- Settles O45: each command is a change of the entry under its generation number; QRY_ABORT goes by what it finds. -/
theorem queueCommands : Obligations.QueueCommands := by
  refine ⟨fun s c h x => ?_, fun s c h x hs => ?_, fun p q gen f => ?_⟩
  · intro r q p e gen set ok no turned
    have hturned : ∀ {op i f after} {unfit : Prop}, QueueRow s c op i x f after → (unfit → f e = none) → turned op i unfit :=
      fun hrow hunfit hs => ⟨(hrow.refused hs).1, fun hg hu => (hrow.refused hs).2 hg (hunfit hu)⟩
    have hfit : ∀ {y : Option AlmEntry} {fit : Prop}, (y.isSome = true ↔ fit) → ¬ fit → y = none := fun hiff hn =>
      Option.not_isSome_iff_eq_none.mp (mt hiff.mp hn)
    refine ⟨hturned (row_queCreate s c h x) (hfit (isSome_create e _ _)), hturned (row_queModify s c h x) fun hf => if_pos hf,
      hturned (row_quePause s c h x) (hfit (isSome_pause e)), hturned (row_queResume s c h x) (hfit (isSome_resume e)),
      hturned (row_queDestroy s c h x) fun hn => destroy_unfit e (not_or.mpr hn), hturned (row_queReset s c h x) fun hf => if_pos hf,
      fun hs hg hf => ?_, fun hs hg hf => ?_, fun hs hg hf => ?_, fun hs hg hf => ?_, fun hs hg hf => ?_, fun hs hg hf => ?_,
      fun hs => ?_⟩
    · exact (row_queCreate s c h x).made hs hg
        (e1 := { (AlmEntry.zero.takeFixed r.image).takeRest r.image with
          state := if r.b 35 = 1 then .paused else .enabled, gen := e.gen, cphase := true })
        ((create_free e _ _ hf).trans (congrArg some (congrArg (fun st =>
          { (AlmEntry.zero.takeFixed r.image).takeRest r.image with state := st, gen := e.gen, cphase := true })
          (ite_of_iff beq_iff_eq rfl rfl))))
    · exact (row_queModify s c h x).made hs hg (if_neg hf)
    · exact (row_quePause s c h x).made hs hg (if_pos hf)
    · exact (row_queResume s c h x).made hs hg (if_pos hf)
    · exact (row_queDestroy s c h x).made hs hg (destroy_fit e hf)
    · have hreset := (row_queReset s c h x).made hs hg (if_neg hf)
      refine ⟨fun hk => ?_, fun hk => ?_, fun hk => ?_⟩
      · refine hreset.trans ?_
        dsimp only
        rw [if_pos hk]
      · refine hreset.trans ?_
        dsimp only
        rw [if_neg (by rw [hk]; decide), if_pos hk]
      · refine hreset.trans ?_
        dsimp only
        rw [if_neg (by rw [hk]; decide), if_neg (by rw [hk]; decide)]
    · exact congrArg Host.Outcome.next (cmd_answers hs rfl)
  · intro r q slot tag p e ends job held ahead waits
    have hends : ∀ {t st hint}, p.abortJob q slot tag = (t, st, hint) → ends t st hint := fun ha => exec_qryAbort hs h ha
    refine ⟨fun n j hj => ⟨fun hb => ?_, fun hb => ?_⟩, fun hj he => hends (abortJob_noQueue hj he),
      fun f hj hsub hfree hf => ⟨fun ht => ?_, fun ht => ?_⟩, fun hj hsub hfree hf => ⟨fun hw => ?_, fun hw hn => ?_, fun hw hn => ?_⟩⟩
    · exact hends ((abortJob_job hj).trans (if_pos hb))
    · exact hends ((abortJob_job hj).trans (if_neg hb))
    · exact hends ((abortJob_held hj hsub hfree hf).trans (if_pos ht))
    · exact hends ((abortJob_held hj hsub hfree hf).trans (if_neg (not_not_intro ht)))
    · exact hends ((abortJob_ahead hj hsub hfree hf).trans (if_pos (by
        have hout : ¬ (slot < e.size ∧ ahead < e.occupied ∧ e.fetchedSlots ≤ ahead) := hw
        show slot ≥ e.size ∨ ahead ≥ e.occupied ∨ ahead < e.fetchedSlots
        omega)))
    · have hnot : ¬ (slot ≥ e.size ∨ ahead ≥ e.occupied ∨ ahead < e.fetchedSlots) := by
        obtain ⟨h1, h2, h3⟩ := hw
        omega
      exact hends ((abortJob_ahead hj hsub hfree hf).trans ((if_neg hnot).trans (if_pos hn)))
    · have hnot : ¬ (slot ≥ e.size ∨ ahead ≥ e.occupied ∨ ahead < e.fetchedSlots) := by
        obtain ⟨h1, h2, h3⟩ := hw
        omega
      exact hends ((abortJob_ahead hj hsub hfree hf).trans ((if_neg hnot).trans (if_neg (Nat.not_le.mpr hn))))
  · intro e
    refine ⟨almChange_stale, almChange_badState, fun e1 hg hf => almChange_ok hg hf, isSome_pause e, isSome_resume e, isSome_create e,
      isSome_modify e, isSome_destroy e, isSome_reset e, fun y hy => ?_, fun b i y hy => ?_⟩
    · have hst := (isSome_destroy e).mp (by rw [hy]; rfl)
      rw [destroy_fit e hst] at hy
      exact (Option.some.inj hy) ▸ rfl
    · have hst := (isSome_create e b i).mp (by rw [hy]; rfl)
      rw [create_free e b i hst] at hy
      exact (Option.some.inj hy) ▸ ⟨rfl, rfl, rfl, rfl⟩

end Sys2Proof.Machine
end

section
/-!
PROOF. The Meridian counter takes a value (R61), the rows of its clock (chapter 02), and the values after reset.
-/
namespace Sys2Proof.Machine

/-! ## The counter takes a value -/

section
variable {m : Meridian} {v : Nat}

theorem Meridian.take_step (h : m.now + 10 < grid10 v) : m.take v = { m.goTo (grid10 v) with stepped := true, hold := 0 } := if_pos h

theorem Meridian.take_freeze (h : grid10 v < m.now) :
    m.take v = { m with hold := (m.now - grid10 v) / 10, freeze := true } :=
  (if_neg (by omega)).trans (if_pos h)

theorem Meridian.now_le_goTo (hm : m.now ≤ merMax) (h : m.now ≤ v) : m.now ≤ (m.goTo v).now := Nat.le_min.mpr ⟨h, hm⟩

theorem Meridian.now_le_take (hm : m.now ≤ merMax) : m.now ≤ (m.take v).now := by
  unfold Meridian.take
  dsimp only
  split
  · exact now_le_goTo hm (by omega)
  · split
    · exact Nat.le_refl _
    · split
      · exact Nat.le_refl _
      · exact now_le_goTo hm (by omega)

theorem Meridian.tick_hold (h : 0 < m.hold) : m.tick = { m with ticks := m.ticks + 1, hold := m.hold - 1 } := if_pos h

theorem Meridian.tick_goTo (h : m.hold = 0) : m.tick = ({ m with ticks := m.ticks + 1 } : Meridian).goTo (m.now + 10) :=
  if_neg (by rw [h]; exact Nat.lt_irrefl 0)

theorem Meridian.goTo_of_le (h : v ≤ merMax) :
    m.goTo v = { m with prev := if m.watchDue then m.prev else m.now, now := v, watchDone := false } := by
  unfold Meridian.goTo
  rw [Nat.min_eq_left h]

end

/-- Settles O29: each case of a taken value is a branch of `take`, and a tick holds or goes on. -/
theorem counterTakes : Obligations.CounterTakes := by
  intro m v hm
  refine ⟨Meridian.now_le_take hm, fun h hv => ?_, fun h => ?_, fun h => ?_, fun h hv => ?_⟩
  · rw [Meridian.take_step h, Meridian.goTo_of_le hv]
    exact ⟨rfl, rfl, rfl⟩
  · rw [Meridian.take_freeze h]
    exact ⟨rfl, rfl, rfl⟩
  · rw [Meridian.tick_hold h]
    exact ⟨rfl, rfl⟩
  · rw [Meridian.tick_goTo h, Meridian.goTo_of_le hv]

/-! ## The pulse edge -/

section
variable {m : Meridian}

theorem Meridian.pulse_noClk (h : m.clkOk = false) : m.pulse = m := if_pos (by rw [h]; rfl)

theorem Meridian.clkPresent10us_iff (h : m.clkOk = true) : m.clkPresent10us = true ↔ m.clkSince + 1000 ≤ m.ticks := by
  unfold Meridian.clkPresent10us
  rw [h, Bool.true_and, decide_eq_true_eq]
  omega

theorem Meridian.pulse_loaded {v : Nat} (h : m.clkOk = true) (hl : m.loaded = some v) : m.pulse =
    let a := grid10 (v + 10 * m.delayComp)
    let m1 := { m.take a with loaded := none, lastEdge := some a }
    if m.state ≠ .locked ∧ m.clkSince + 1000 ≤ m.ticks then m1.enter .locked else m1 := by
  unfold Meridian.pulse
  rw [if_neg (by rw [h]; exact Bool.false_ne_true), hl]
  refine ite_of_iff ?_ rfl rfl
  rw [Bool.and_eq_true, decide_eq_true_eq, clkPresent10us_iff h]

theorem Meridian.pulse_expected {e : Nat} (h : m.clkOk = true) (hl : m.loaded = none) (hs : m.state = .locked)
    (he : m.lastEdge = some e) : m.pulse =
    if m.ref ≤ e + 1001000 ∧ e + 1000000 ≤ m.ref + 1000 then { m.take (e + 1000000) with lastEdge := some (e + 1000000) }
    else { m with syncIgnored := true } := by
  unfold Meridian.pulse
  rw [if_neg (by rw [h]; exact Bool.false_ne_true), hl]
  dsimp only
  rw [hs, he]
  refine ite_of_iff ?_ rfl rfl
  rw [Bool.and_eq_true, decide_eq_true_eq, decide_eq_true_eq]

theorem Meridian.pulse_unexpected (h : m.clkOk = true) (hl : m.loaded = none) (hn : m.state ≠ .locked ∨ m.lastEdge = none) :
    m.pulse = { m with syncIgnored := true } := by
  unfold Meridian.pulse
  rw [if_neg (by rw [h]; exact Bool.false_ne_true), hl]
  dsimp only
  split
  · next e hs he =>
    rcases hn with hn | hn
    · exact absurd hs hn
    · rw [hn] at he
      cases he
  · rfl

theorem Meridian.syncLossDue_of {e : Nat} (h : m.clkOk = true) (hs : m.state = .locked) (he : m.lastEdge = some e)
    (hr : e + 1002000 ≤ m.ref) : m.syncLossDue = true := by
  unfold Meridian.syncLossDue
  rw [h, hs, he]
  simpa using hr

theorem Meridian.limitDue_of (hs : m.state = .holdover) (h : m.holdStart + m.holdMs * 100000 ≤ m.ticks) :
    m.limitDue = true := by
  unfold Meridian.limitDue
  rw [hs]
  simpa using Nat.le_sub_of_add_le' h

end

section
variable {s : State}

theorem merRuns_of (h : s.boot.stage ≠ .reset) : s.merRuns = true := decide_eq_true h

theorem exec_counterAdvance (hr : s.boot.stage ≠ .reset) :
    exec .counterAdvance s = .next (if s.owed = 7 then { s with mer := s.mer.tick } else s) := by
  refine congrArg Host.Outcome.next (ite_of_iff ?_ rfl rfl)
  rw [merRuns_of hr, Bool.true_and, decide_eq_true_eq]

theorem exec_pulseEdge (hr : s.boot.stage ≠ .reset) : exec .pulseEdge s = .next { s with mer := s.mer.pulse } :=
  congrArg Host.Outcome.next (if_pos (merRuns_of hr))

end

/-- Settles O30: the edge goes by the loaded value and the edge expected, the losses by when they are due. -/
theorem meridianClockRows : Obligations.MeridianClockRows := by
  intro s hr m upd
  refine ⟨fun ho => ?_, fun ho hh hm => ?_, fun ho hh => ?_, fun hc => ⟨?_, ?_⟩, fun v hc hl => ⟨fun hs => ?_, fun hs ht => ?_⟩,
    fun e hc hl hs he h1 h2 => ?_, fun hc hl hn => ?_, fun hc => ?_, fun e hc hs he h => ?_, fun hs h => ?_⟩
  · rw [exec_counterAdvance hr, if_neg ho]
  · rw [exec_counterAdvance hr, if_pos ho, Meridian.tick_goTo hh, Meridian.goTo_of_le hm]
    rfl
  · rw [exec_counterAdvance hr, if_pos ho, Meridian.tick_hold hh]
  · rw [exec_pulseEdge hr, Meridian.pulse_noClk hc]
  · exact congrArg Host.Outcome.next (congrArg upd (if_neg (by rw [hc]; exact Bool.false_ne_true)))
  · rw [exec_pulseEdge hr, Meridian.pulse_loaded hc hl]
    dsimp only
    rw [if_neg (fun h => hs.elim h.1 fun ht => absurd h.2 (Nat.not_le.mpr ht))]
  · rw [exec_pulseEdge hr, Meridian.pulse_loaded hc hl]
    dsimp only
    rw [if_pos ⟨hs, ht⟩]
  · rw [exec_pulseEdge hr, Meridian.pulse_expected hc hl hs he, if_pos ⟨h1, h2⟩]
  · have hpulse : m.pulse = { m with syncIgnored := true } := by
      by_cases hs : m.state = .locked
      · obtain ⟨e, he, hout⟩ := hn.resolve_left (not_not_intro hs)
        rw [Meridian.pulse_expected hc hl hs he, if_neg (by omega)]
      · exact Meridian.pulse_unexpected hc hl (.inl hs)
    rw [exec_pulseEdge hr, hpulse]
  · exact congrArg Host.Outcome.next ((if_neg (by rw [merRuns_of hr]; exact Bool.false_ne_true)).trans (if_pos hc))
  · exact congrArg Host.Outcome.next (if_pos (by rw [merRuns_of hr, Meridian.syncLossDue_of hc hs he h]; rfl))
  · exact congrArg Host.Outcome.next (if_pos (by rw [merRuns_of hr, Meridian.limitDue_of hs h]; rfl))

/-! ## The values after reset -/

theorem Pipe.reset_part (v64 : Bool) (nand : Nand) (media : Mem) (k : Nat) : (Pipe.reset v64 nand media).part k = Part.reset := by
  refine (congrArg (Option.getD · Part.reset) (List.getElem?_replicate (n := 16))).trans ?_
  split <;> rfl

theorem State.reset_mailbox (m : Nat) : State.reset.mailbox m = Mailbox.reset := by
  refine (congrArg (Option.getD · Mailbox.reset) (List.getElem?_replicate (n := 17))).trans ?_
  split <;> rfl

theorem Fcu.alert_of_clear {f : Fcu} (h : f.bits = 0) : f.alert = false := by
  have hnone : f.sources = [] := by
    refine List.filter_eq_nil_iff.mpr fun x _ => ?_
    unfold Fcu.has
    rw [h]
    simp
  unfold Fcu.alert
  rw [hnone]
  rfl

/-- Settles O35: the fields of the reset state, the partitions and the mailboxes one by one. -/
theorem resetValues : Obligations.ResetValues := by
  have hpart : ∀ k, State.reset.pipe.part k = Part.reset := Pipe.reset_part _ _ _
  refine ⟨rfl, rfl, rfl, rfl, rfl, rfl, rfl, rfl, rfl, rfl, fun k _ => ?_, rfl, rfl, Fcu.alert_of_clear rfl, rfl, rfl, rfl, rfl, rfl,
    fun m _ => ?_, rfl, rfl, rfl, rfl, rfl, rfl, rfl, rfl⟩
  · unfold Pipe.fenced
    rw [hpart k]
    exact ⟨rfl, rfl, rfl, rfl⟩
  · rw [State.reset_mailbox]
    exact ⟨rfl, rfl, rfl⟩

end Sys2Proof.Machine
end

section
/-!
PROOF. Fault sources and their reactions (R590 to R593), the limits that set them (R606 to R608), and the flush (R422 to R425).
-/
namespace Sys2Proof.Machine

/-! ## One source sets -/

section
variable {f : Fcu} {x : Nat}

theorem Fcu.has_set1_self (hx : x < 512) : (f.set1 x).has x = true := by
  unfold Fcu.has Fcu.set1
  simp [hx]

theorem Fcu.fresh_set (h : f.has x = true) : f.fresh [x] = [] := by
  unfold Fcu.fresh
  rw [List.filter_eq_nil_iff.mpr (by simp [h])]
  rfl

theorem Fcu.fresh_clear (hx : x < 512) (h : f.has x = false) : f.fresh [x] = [x] := by
  unfold Fcu.fresh
  rw [List.filter_eq_self.mpr (by simp [h, hx])]
  rfl

end

section
variable {s : State} {x : Nat}

theorem raise_set (h : s.fcu.has x = true) : s.raise [x] = s := by
  unfold State.raise
  rw [Fcu.fresh_set h]
  exact if_pos rfl

/-- What follows when the bit of x, which was 0, has set (R593). -/
def reactTo (s : State) (x : Nat) : State :=
  let strong := fun (r : Reaction) => [x].filter (fun y => s.fcu.reaction y == r)
  let s2 := if [x].any (fun y => s.fcu.reaction y != .record) then s.msix 0 1 else s
  if !(strong .safe).isEmpty then s2.enterSafe else (strong .fence).foldl (fun s y => s.fence (y / 16) (some y)) s2

/-- What each reaction does (R593). -/
def afterReaction (s : State) (x : Nat) : Reaction → State
  | .record => s
  | .interrupt => s.msix 0 1
  | .fence => (s.msix 0 1).fence (x / 16) (some x)
  | .safe => (s.msix 0 1).enterSafe

theorem raise_clear (hx : x < 512) (h : s.fcu.has x = false) (hf : s.flush.state ≠ .flushing) :
    s.raise [x] = reactTo { s with fcu := s.fcu.set1 x } x := by
  unfold State.raise
  rw [Fcu.fresh_clear hx h]
  exact (if_neg Bool.false_ne_true).trans (if_neg hf)

theorem reactTo_of {r : Reaction} (h : s.fcu.reaction x = r) : reactTo s x = afterReaction s x r := by
  unfold reactTo
  cases r <;> simp [h, afterReaction]

end

/-- Settles O39: a source that is set raises nothing; one that was clear sets its bit and has its reaction. -/
theorem faultReactions : Obligations.FaultReactions := by
  intro s x hx hf s1
  have hraise : s.fcu.has x = false → s.raise [x] = reactTo s1 x := fun h => raise_clear hx h hf
  exact ⟨raise_set, fun h => ⟨Fcu.has_set1_self hx, fun hr => (hraise h).trans (reactTo_of (s := s1) hr),
    fun hr => (hraise h).trans (reactTo_of (s := s1) hr), fun hr => (hraise h).trans (reactTo_of (s := s1) hr),
    fun hr => (hraise h).trans (reactTo_of (s := s1) hr)⟩⟩

/-! ## The limits -/

/-- Settles O40: each limit passes its test in the limits block and raises its source. -/
theorem limitRows : Obligations.LimitRows := by
  intro s hg at_
  have hpower : ∀ {ok : Bool} {srcs f}, ok = true → Host.Outcome.next (s.onPower ok srcs f) =
      (.next (at_ (f s.pwr) srcs) : Host.Outcome State Fault Refusal) := fun hok =>
    congrArg Host.Outcome.next (if_pos (by rw [hg, hok]; rfl))
  refine ⟨fun d t hd ht => hpower (by simp [hd, ht]), fun d t hd ht => hpower (by simp [hd, ht]),
    fun d t a h => hpower (by simpa using h), fun d a hd ha => hpower (by simp [hd, ha]),
    fun k t hk ht => hpower (by simp [hk, ht]), fun k t ht => hpower (by simp [ht]), fun r hr => hpower (by simp [hr]),
    fun r hr => hpower (by simp [hr]), fun k hk hb hp hc => ?_, fun hb hs => hpower (by simp [State.pcieUp, hb, hs]),
    fun hw hc => ⟨?_, ?_⟩, fun hs hi => ⟨_, congrArg Host.Outcome.next (if_pos (by rw [hs, hi]; rfl)), rfl, rfl, rfl, rfl, rfl⟩⟩
  · refine (congrArg (fun s1 : State => Host.Outcome.next (s1.onFault _ _)) (if_neg ?_)).trans (hpower ?_)
    · simp [hc]
    · simp [hk, hp, hb]
  · exact congrArg Host.Outcome.next (if_pos (by simp [hw, hc]))
  · exact congrArg Host.Outcome.next ((if_pos (by simp [hw, hc])).trans (if_pos (by rw [hg]; rfl)))

/-! ## The flush -/

section
variable {s : State}

theorem works_fields (h : s.works = true) : s.boot.stage ≠ .reset ∧ s.fcu.safe = false ∧ s.flush.state = .idle ∧
    s.flush.inertDone = false := by
  unfold State.works at h
  simpa [and_assoc] using h

theorem exec_holdup (hw : s.works = true) (hg : s.pwr.good = true) : exec (.holdup true) s = .next
    (if s.coel.dpen then ({ s with flush := { s.flush with holdup := true } } : State).startFlush .stay
     else s.holdInert) := by
  obtain ⟨hboot, hsafe, hidle, hinert⟩ := works_fields hw
  refine congrArg Host.Outcome.next ((if_neg Bool.false_ne_true).trans ((if_neg ?_).trans (if_neg ?_)))
  · simp [hg, hboot, hsafe]
  · simp [hidle, hinert]

theorem exec_flushPartDone {k n : Nat} (hf : s.flush.state = .flushing) (hk : s.flush.parts[k]? = some n) (hn : n < 3) :
    exec (.flushPartDone k) s = .next { s with
      pipe := s.pipe.flushed k n, flush := { s.flush with parts := setNth s.flush.parts k (n + 1) } } := by
  have hget : s.flush.parts.getD k 3 = n := (List.getD_eq_getElem?_getD).trans (congrArg (Option.getD · 3) hk)
  refine (congrArg (fun i => Host.Outcome.next (if s.flush.state = .flushing && i < 3 then ({ s with
    pipe := s.pipe.flushed k i, flush := { s.flush with parts := setNth s.flush.parts k (i + 1) } } : State) else s)) hget).trans ?_
  exact congrArg Host.Outcome.next (if_pos (by simp [hf, hn]))

/-- The state once the flush record is programmed (R423 step 5). -/
def flushedState (s : State) : State :=
  { s with
    pipe := s.pipe.flushPage s.mer.pub s.flush.alarms,
    flush := { s.flush with state := .done, inertDone := true } }

theorem exec_flushRecord (hf : s.flush.state = .flushing) (hp : ∀ n ∈ s.flush.parts, n = 3) : exec .flushRecord s = .next
    (match s.flush.after with
      | .perst => (flushedState s).packageReset .perst
      | .rstCtl => (flushedState s).packageReset .rstCtl
      | .stay => if s.fcu.parityWaits then (flushedState s).enterSafe else flushedState s) :=
  congrArg Host.Outcome.next (if_pos (by simpa [hf] using hp))

end

/-- Settles O37: HOLDUP starts the flush, its parts end in order, and the record ends it. -/
theorem flushRows : Obligations.FlushRows := by
  intro s
  refine ⟨fun hw hg => ⟨fun hd => ?_, fun hd => ?_⟩, rfl, fun hf => ⟨fun k n hk hn => exec_flushPartDone hf hk hn,
    fun hp => ⟨fun ha hw => ?_, fun ha hw => ?_, fun ha => ?_, fun ha => ?_⟩⟩⟩
  · rw [exec_holdup hw hg, if_pos hd]
  · rw [exec_holdup hw hg, if_neg (by rw [hd]; exact Bool.false_ne_true)]
    rfl
  · rw [exec_flushRecord hf hp, ha, hw]
    rfl
  · rw [exec_flushRecord hf hp, ha, hw]
    rfl
  · rw [exec_flushRecord hf hp, ha]
    rfl
  · rw [exec_flushRecord hf hp, ha]
    rfl

end Sys2Proof.Machine
end

section
/-!
PROOF. Registers that a read clears or latches, and register writes (chapter 22).
-/
namespace Sys2Proof.Machine
open Sys2Proof.Claims

/-! ## Reads -/

section
variable {s : State} (hr : s.reach = true)
include hr

theorem readReg_reach {off : Nat} {v : W32} (hv : BitVec.ofNat 32 (s.regVal off) = v) : readReg s off = v :=
  (if_pos hr).trans hv

/-- A read returns the value held, and then has its effect. -/
theorem doRead_reach {off : Nat} {v : W32} (hv : BitVec.ofNat 32 (s.regVal off) = v) (after : State → State) :
    s.doRead off after = after { s with reads := s.reads ++ [⟨off, v⟩] } := by
  unfold State.doRead
  rw [readReg_reach hr hv]
  exact if_pos hr

variable {k : Nat} (hk : k < 16) (hf : s.pipe.fenced k = false)
include hk hf

theorem readPart_reach {base : Nat} {v : W32} (hv : s.partReg (base + 4 * k) = some (k, v.toNat)) (clear : Part → Part) :
    s.readPart base k clear =
      { s with reads := s.reads ++ [⟨base + 4 * k, v⟩], pipe := s.pipe.modPart k clear } := by
  have hval : BitVec.ofNat 32 (s.regVal (base + 4 * k)) = v := by
    unfold State.regVal
    rw [hv]
    dsimp only
    rw [if_neg (by rw [hf]; exact Bool.false_ne_true), BitVec.ofNat_toNat, BitVec.setWidth_eq]
  unfold State.readPart
  rw [Nat.mod_eq_of_lt hk, doRead_reach hr hval]
  exact if_neg (by rw [hf]; exact Bool.false_ne_true)

end

/-- The low half of a 64-bit value, as a read returns it. -/
theorem ofNat_low (n : Nat) : BitVec.ofNat 32 (n % 2 ^ 32) = BitVec.ofNat 32 n :=
  BitVec.eq_of_toNat_eq (by rw [BitVec.toNat_ofNat, BitVec.toNat_ofNat, Nat.mod_mod])

theorem ofNat_word (v : W32) : BitVec.ofNat 32 v.toNat = v := by rw [BitVec.ofNat_toNat, BitVec.setWidth_eq]

section
variable (s : State) {k : Nat} (hk : k < 16)
include hk

theorem partReg_rows :
    s.partReg (0x5100 + 4 * k) = some (k, (s.pipe.part k).ce.toNat) ∧
    s.partReg (0x5200 + 4 * k) = some (k, (s.pipe.part k).trapCnt.toNat) ∧
    s.partReg (0x6100 + 4 * k) = some (k, (s.pipe.part k).flash.ue.toNat) ∧
    s.partReg (0x7000 + 4 * k) = some (k, (s.pipe.part k).alm.dbdrop.toNat) ∧
    s.partReg (0x7040 + 4 * k) = some (k, (s.pipe.part k).alm.orphan.toNat) ∧
    s.partReg (0x7080 + 4 * k) = some (k, (s.pipe.part k).alm.miss.toNat) ∧
    s.partReg (0x8040 + 4 * k) = some (k, (s.pipe.part k).sched.finder.toNat) ∧
    s.partReg (0x8080 + 4 * k) = some (k, (s.pipe.part k).sched.forgive.toNat) := by
  unfold State.partReg
  simp only [Bool.and_eq_true, decide_eq_true_eq]
  refine ⟨?_, ?_, ?_, ?_, ?_, ?_, ?_, ?_⟩
  all_goals
    repeat rw [if_neg (by omega)]
    rw [if_pos (by omega), Nat.add_sub_cancel_left, Nat.mul_div_cancel_left _ (by decide)]

end

/-- Settles O26: a read returns the value of the map, and its register is then cleared or latched. -/
theorem readRegisters : Obligations.ReadRegisters := by
  refine ⟨fun s hr => ?_, fun s hr => ⟨?_, fun hv => ?_, fun hv => ?_, ?_, ?_⟩⟩
  · have hread : ∀ {off v after}, BitVec.ofNat 32 (s.regVal off) = v → (Host.Outcome.next (s.doRead off after) :
        Host.Outcome State Fault Refusal) = .next (after { s with reads := s.reads ++ [⟨off, v⟩] }) := fun hv =>
      congrArg Host.Outcome.next (doRead_reach hr hv _)
    refine ⟨hread (ofNat_low _), hread (ofNat_low _), hread (ofNat_word _), hread (ofNat_word _), hread (ofNat_word _),
      hread (ofNat_word _), hread (ofNat_word _), hread (ofNat_word _), hread (ofNat_word _), hread (ofNat_word _),
      hread (ofNat_word _), fun k hk hf => ?_⟩
    obtain ⟨hce, htrap, hue, hdrop, horphan, hmiss, hfinder, hforgive⟩ := partReg_rows s hk
    have hpart : ∀ {base v clear}, s.partReg (base + 4 * k) = some (k, BitVec.toNat v) → (Host.Outcome.next
        (s.readPart base k clear) : Host.Outcome State Fault Refusal) =
        .next { s with reads := s.reads ++ [⟨base + 4 * k, v⟩], pipe := s.pipe.modPart k clear } := fun hv =>
      congrArg Host.Outcome.next (readPart_reach hr hk hf hv _)
    exact ⟨hpart hce, hpart htrap, hpart hue, hpart hdrop, hpart horphan, hpart hmiss, hpart hfinder, hpart hforgive⟩
  · exact readReg_reach hr rfl
  · exact readReg_reach hr (congrArg (fun b => BitVec.ofNat 32 (if b = true then _ else _)) hv)
  · exact readReg_reach hr (congrArg (fun b => BitVec.ofNat 32 (if b = true then _ else _)) hv)
  · exact readReg_reach hr rfl
  · exact readReg_reach hr rfl

/-! ## Writes -/

section
variable {s : State}

theorem doWrite_reach (hr : s.reach = true) (f : State → State) : s.doWrite f = f s := if_pos hr

theorem State.mailbox_modMbx_same {m : Nat} {f : Mailbox → Mailbox} {P : Mailbox → Prop} (h : P (s.mailbox m))
    (hf : P (s.mailbox m) → P (f (s.mailbox m))) : P ((s.modMbx m f).mailbox m) := by
  unfold State.mailbox State.modMbx at *
  dsimp only
  rw [getElem?_modNth, if_pos rfl]
  cases hm : s.mbx[m]? with
  | none => rwa [hm] at h
  | some b =>
    rw [hm] at h hf
    exact hf h

theorem writeRW_request {m : Nat} {v : W32} (hm : m < 17) (hen : (s.mailbox m).en = false) :
    s.writeRW (0xA000 + 64 * m) v = s.modMbx m (fun b => { b with rqLo := v }) ∧
    s.writeRW (0xA000 + 64 * m + 4) v = s.modMbx m (fun b => { b with rqHi := v }) := by
  have hnone : ¬ (s.mailbox m).en = true := by rw [hen]; exact Bool.false_ne_true
  have hdiv : (64 * m + 4) / 64 = m := by omega
  have hmod : (64 * m + 4) % 64 = 4 := by omega
  refine ⟨(if_pos (by simp; omega)).trans ?_, (if_pos (by simp; omega)).trans ?_⟩
  · rw [Nat.add_sub_cancel_left, Nat.mul_div_cancel_left _ (by decide), Nat.mul_mod_right]
    exact if_neg hnone
  · rw [Nat.add_assoc, Nat.add_sub_cancel_left, hdiv, hmod]
    exact if_neg hnone

theorem raise_nil : s.raise [] = s := by
  unfold State.raise
  exact if_pos rfl

/-- What a write of a register does, by its size and the doorbells that it covers. -/
theorem exec_registerWrite {off size : Nat} {v : W64} (hr : s.reach = true) : exec (.registerWrite 0 off size v) s = .next
    (if size ≠ 8 && !(bellsAt 0 off size).isEmpty || size = 8 && off % 8 ≠ 0 then (bellsAt 0 off size).foldl State.shortBell s
     else if size ≠ 4 && size ≠ 8 || off % size ≠ 0 then s
     else
       let s1 := s.writeRW off (v.setWidth 32)
       if size = 8 then s1.writeRW (off + 4) ((v >>> 32).setWidth 32) else s1) :=
  congrArg Host.Outcome.next ((doWrite_reach hr _).trans (if_neg Bool.false_ne_true))

theorem bellsAt_scratch : ∀ i < 4, bellsAt 0 (0x20000 + 4 * i) 4 = [] := by decide

end

/-- Settles O27: a write reaches its register while BAR0 answers, and a bit written 0 keeps its value. -/
theorem writeRegisters : Obligations.WriteRegisters := by
  refine ⟨fun s => ⟨fun hr => ?_, fun hr func off size v => congrArg Host.Outcome.next (if_neg (by rw [hr]; exact Bool.false_ne_true)),
    fun _ => rfl, fun _ _ => rfl, rfl⟩, fun s v hr => ?_⟩
  · have hwrite : ∀ {f : State → State}, (Host.Outcome.next (s.doWrite f) : Host.Outcome State Fault Refusal) = .next (f s) :=
      congrArg Host.Outcome.next (doWrite_reach hr _)
    refine ⟨fun m v => hwrite, fun m v => hwrite, fun v => hwrite, fun v hi => hwrite.trans (congrArg _ (if_pos hi)),
      fun v hi => hwrite.trans (congrArg _ (if_neg (by rw [hi]; exact Bool.false_ne_true))), fun i v hi => ?_, fun m v hm hen => ?_,
      fun off size v hoff hb => ?_, fun off size v hs hb => ?_⟩
    · rw [exec_registerWrite hr, bellsAt_scratch i hi, if_neg (by simp), if_neg (by simp)]
      dsimp only
      rw [if_neg (by decide)]
      unfold State.writeRW
      rw [if_neg (by simp; omega), if_pos (by simp; omega), Nat.add_sub_cancel_left, Nat.mul_div_cancel_left _ (by decide)]
    · rw [exec_registerWrite hr, if_neg (by simp; omega), if_neg (by simp; omega)]
      dsimp only
      rw [if_pos rfl, (writeRW_request hm hen).1, (writeRW_request hm (State.mailbox_modMbx_same
        (P := fun b => b.en = false) hen id)).2]
    · rw [exec_registerWrite hr, hb]
      refine congrArg Host.Outcome.next ?_
      split
      · rfl
      · exact if_pos (Bool.or_eq_true _ _ ▸ .inr (decide_eq_true hoff))
    · rw [exec_registerWrite hr, if_pos]
      simp only [Bool.or_eq_true, Bool.and_eq_true, decide_eq_true_eq, Bool.not_eq_true', List.isEmpty_eq_false_iff]
      by_cases h8 : size = 8
      · exact .inr ⟨h8, hs.resolve_left (not_not_intro h8)⟩
      · exact .inl ⟨h8, hb⟩
  · have hwrite : ∀ {f : State → State}, (Host.Outcome.next (s.doWrite f) : Host.Outcome State Fault Refusal) = .next (f s) :=
      congrArg Host.Outcome.next (doWrite_reach hr _)
    refine ⟨hwrite, hwrite, fun n hn => ?_, fun m => hwrite, fun k hk hf => ?_, fun w hw hhold hout => ?_⟩
    · have hmod : n % 32 = n := Nat.mod_eq_of_lt hn
      exact hwrite.trans (congrArg (fun i => Host.Outcome.next ({ s with fab := s.fab.modLink i _ } : State)) hmod)
    · have hmod : k % 16 = k := Nat.mod_eq_of_lt hk
      have hpart : ∀ {f : Part → Part}, (Host.Outcome.next (s.doWrite (fun s => if s.pipe.fenced (k % 16) then s
          else { s with pipe := s.pipe.modPart (k % 16) f })) : Host.Outcome State Fault Refusal) =
          .next (withPipe s (s.pipe.modPart k f)) := by
        intro f
        rw [hmod]
        exact hwrite.trans (congrArg _ (if_neg (by rw [hf]; exact Bool.false_ne_true)))
      refine ⟨hpart.trans ?_, hpart, hpart⟩
      rw [if_neg Bool.false_ne_true, BitVec.shiftLeft_zero]
    · have hmod : w % 16 = w := Nat.mod_eq_of_lt hw
      refine hwrite.trans (congrArg Host.Outcome.next ?_)
      dsimp only
      rw [hmod, List.filter_eq_nil_iff.mpr (fun x hx => by simpa using hhold x hx), raise_nil]
      exact settle_empty _ hout

end Sys2Proof.Machine
end

section
/-!
PROOF. The PTP rows (R71 to R74) and the events of a counter value (R75 to R85, R468 to R475).
-/
namespace Sys2Proof.Machine
open Sys2Proof.Claims

/-! ## PTP -/

section
variable {s : State} (hr : s.boot.stage ≠ .reset)
include hr

/-- The fabric after a PTP frame has been counted on its link. -/
def ptpCounted (s : State) (port : Nat) : Fabric := s.fab.modLink (4 * port) (fun l => { l with rx := l.rx + 1 })

variable {port domain : Nat} {unlisted : Bool} {f : Meridian → Meridian}

theorem onPtp_badPort (h : s.mer.ptpEn = false ∨ port ≠ s.mer.ptpPort) : s.onPtp port domain unlisted f =
    { s with fab := { ptpCounted s port with badPkt := satAdd (ptpCounted s port).badPkt 1 } } := by
  unfold State.onPtp
  rw [merRuns_of hr, if_neg (by simp)]
  exact if_pos (by simpa using h)

variable (hen : s.mer.ptpEn = true) (hport : port = s.mer.ptpPort)
include hen hport

theorem onPtp_port : s.onPtp port domain unlisted f =
    { s with fab := ptpCounted s port, mer := if s.mer.takesPtp port domain unlisted then f s.mer else s.mer } := by
  unfold State.onPtp
  rw [merRuns_of hr, if_neg (by simp)]
  dsimp only
  rw [if_neg (by simp [hen, hport])]
  split <;> rfl

omit hr
theorem takesPtp_iff : s.mer.takesPtp port domain unlisted = true ↔
    unlisted = false ∧ domain = s.mer.ptp.domain ∧ domain ≤ 127 := by
  unfold Meridian.takesPtp
  simp [hen, hport, and_assoc]

end

theorem takesPtp_port {m : Meridian} {port domain : Nat} {unlisted : Bool} (h : m.takesPtp port domain unlisted = true) :
    m.ptpEn = true ∧ port = m.ptpPort := by
  unfold Meridian.takesPtp at h
  simp only [Bool.and_eq_true, beq_iff_eq, decide_eq_true_eq] at h
  exact ⟨h.1.1.1.1, h.1.1.2⟩

theorem syncIntervalOk_iff {i : Int} : syncIntervalOk i = true ↔ -7 ≤ i ∧ i ≤ 0 := by
  unfold syncIntervalOk
  rw [Bool.and_eq_true, decide_eq_true_eq, decide_eq_true_eq]

theorem takesPtp_unlisted {m : Meridian} {port domain : Nat} {u : Bool} (hu : u = true) :
    m.takesPtp port domain u = false := by
  unfold Meridian.takesPtp
  simp [hu]

/-- Settles O31: a frame is counted on its link, and goes to the servo if it is taken. -/
theorem ptpRows : Obligations.PtpRows := by
  intro s port head hr m f upd passed
  have hbad : ∀ {domain u g}, m.ptpEn = false ∨ port ≠ m.ptpPort → (Host.Outcome.next (s.onPtp port domain u g) :
      Host.Outcome State Fault Refusal) = .next { s with fab := { f with badPkt := satAdd f.badPkt 1 } } := fun h =>
    congrArg Host.Outcome.next (onPtp_badPort hr h)
  have hpast : ∀ {domain u g}, m.ptpEn = true → port = m.ptpPort → m.takesPtp port domain u = false →
      (Host.Outcome.next (s.onPtp port domain u g) : Host.Outcome State Fault Refusal) = .next (upd m) := fun hen hport ht =>
    congrArg Host.Outcome.next ((onPtp_port hr hen hport).trans
      (congrArg upd (if_neg (by rw [ht]; exact Bool.false_ne_true))))
  have htook : ∀ {domain u g x}, m.takesPtp port domain u = true → g m = x → (Host.Outcome.next (s.onPtp port domain u g) :
      Host.Outcome State Fault Refusal) = .next (upd x) := fun ht hg =>
    congrArg Host.Outcome.next ((onPtp_port hr (takesPtp_port ht).1 (takesPtp_port ht).2).trans
      (congrArg upd ((if_pos ht).trans hg)))
  refine ⟨fun domain h => ⟨fun _ _ _ _ => hbad h, fun _ => hbad h, fun _ => hbad h, fun _ _ => hbad h⟩,
    fun domain hen hport hn => ?_, fun domain two n t1 sub hen hport hi => ?_,
    fun domain ht => ⟨fun rank => htook ht rfl, fun hm => ?_, fun hm => ?_⟩, fun hen hne => ?_, fun sub hen hb hq => ?_⟩
  · have huntaken : m.takesPtp port domain head.unlisted = false := by
      rw [← Bool.not_eq_true, takesPtp_iff hen hport]
      rintro ⟨hu, hd, hle⟩
      rcases hn with hn | hn | hn
      · exact hn hd
      · omega
      · rw [hu] at hn
        cases hn
    have hsync : m.takesPtp port domain (head.unlisted || !syncIntervalOk head.interval) = false := by
      rw [← Bool.not_eq_true, takesPtp_iff hen hport, Bool.or_eq_false_iff]
      rintro ⟨⟨hu, _⟩, hd⟩
      exact absurd ((takesPtp_iff hen hport).mpr ⟨hu, hd⟩) (by rw [huntaken]; exact Bool.false_ne_true)
    exact ⟨fun _ _ _ _ => hpast hen hport hsync, fun _ => hpast hen hport huntaken, fun _ => hpast hen hport huntaken,
      fun _ _ => hpast hen hport huntaken⟩
  · refine hpast hen hport (takesPtp_unlisted ?_)
    have hbadInterval : syncIntervalOk head.interval = false := by
      rw [← Bool.not_eq_true, syncIntervalOk_iff]
      omega
    rw [hbadInterval, Bool.not_false, Bool.or_true]
  · refine ⟨fun two n t1 sub => ?_, fun t4 => htook ht ?_, fun n t1 => htook ht ?_⟩
    · by_cases hok : m.takesPtp port domain (head.unlisted || !syncIntervalOk head.interval) = true
      · exact htook hok (if_pos (by rw [hm]; rfl))
      · exact hpast (takesPtp_port ht).1 (takesPtp_port ht).2 (Bool.not_eq_true _ ▸ hok)
    · rw [hm]
    · rw [hm]
  · refine ⟨fun n t1 sub h7 h0 => ?_, fun n t1 t2 hs => htook ht ?_, fun t1 t2 t3 t4 hl hq => htook ht ?_⟩
    · have hok : m.takesPtp port domain (head.unlisted || !syncIntervalOk head.interval) = true := by
        rwa [syncIntervalOk_iff.mpr ⟨h7, h0⟩, Bool.not_true, Bool.or_false]
      have hmine : ¬ (!m.fromMaster head.source) = true := by rw [hm]; exact Bool.false_ne_true
      exact ⟨htook hok ((if_neg hmine).trans (if_neg Bool.false_ne_true)), htook hok ((if_neg hmine).trans (if_pos rfl))⟩
    · rw [hm, hs]
      exact if_pos rfl
    · rw [hm, hl, hq]
  · exact congrArg Host.Outcome.next (if_pos (by simp [merRuns_of hr, show s.mer.ptpEn = true from hen, hne, m]))
  · exact congrArg Host.Outcome.next (if_pos (by
      rw [merRuns_of hr, show s.mer.ptpEn = true from hen, show s.mer.ptp.best.isSome = true from hb]
      exact congrArg not hq))

/-! ## An event taken by all unfenced partitions -/

/-- A change of every unfenced partition. -/
def Pipe.eachUnfenced (p : Pipe) (f : Part → Part) : Pipe :=
  (List.range 16).foldl (fun p k => if p.fenced k then p else p.modPart k f) p

section
variable (p : Pipe) (f : Part → Part)

theorem Pipe.part_modPart_of_ne {j k : Nat} (h : k ≠ j) : (p.modPart k f).part j = p.part j := by
  rw [part, part, modPart, getElem?_modNth, if_neg h]

/-- One turn of the change. -/
theorem Pipe.eachUnfenced_turn (k : Nat) : ∃ ps, (if p.fenced k then p else p.modPart k f) = { p with parts := ps } ∧
    ps.length = p.parts.length := by
  split
  · exact ⟨p.parts, rfl, rfl⟩
  · exact ⟨_, rfl, length_modNth _ _ _⟩

theorem Pipe.foldl_unfenced (l : List Nat) (hl : l.Nodup) :
    let q := l.foldl (fun p k => if p.fenced k then p else p.modPart k f) p
    q = { p with parts := q.parts } ∧ q.parts.length = p.parts.length ∧
    (∀ k, k ∉ l → q.part k = p.part k) ∧
    ∀ k ∈ l, k < p.parts.length → q.part k = if p.fenced k then p.part k else f (p.part k) := by
  induction l generalizing p with
  | nil => exact ⟨rfl, rfl, fun _ _ => rfl, fun _ hk => absurd hk List.not_mem_nil⟩
  | cons i l ih =>
    obtain ⟨hi, hl⟩ := List.nodup_cons.mp hl
    have hstep : ∀ k, k ≠ i → (if p.fenced i then p else p.modPart i f).part k = p.part k := fun k hk => by
      split
      · rfl
      · exact p.part_modPart_of_ne f (Ne.symm hk)
    have hself : i < p.parts.length → (if p.fenced i then p else p.modPart i f).part i =
        if p.fenced i then p.part i else f (p.part i) := fun hlen => by
      split
      · rfl
      · exact Pipe.part_modPart_same f hlen
    obtain ⟨ps, hps, hlen⟩ := p.eachUnfenced_turn f i
    obtain ⟨heq, hlen1, hout, hin⟩ := ih (if p.fenced i then p else p.modPart i f) hl
    rw [List.foldl_cons]
    refine ⟨heq.trans (by rw [hps]), hlen1.trans (by rw [hps, hlen]), fun k hk => ?_, fun k hk hkl => ?_⟩
    · rw [List.mem_cons, not_or] at hk
      exact (hout k hk.2).trans (hstep k hk.1)
    · rcases List.mem_cons.mp hk with rfl | hk
      · exact (hout k hi).trans (hself hkl)
      · have hne : k ≠ i := fun h => hi (h ▸ hk)
        have hsame := hstep k hne
        have hfenced : (if p.fenced i then p else p.modPart i f).fenced k = p.fenced k :=
          congrArg (fun q : Part => decide (q.st ≠ .serving)) hsame
        refine (hin k hk (by rw [hps, hlen]; exact hkl)).trans ?_
        rw [hfenced, hsame]

theorem Pipe.eachUnfenced_spec : p.eachUnfenced f = { p with parts := (p.eachUnfenced f).parts } ∧
    (p.eachUnfenced f).parts.length = p.parts.length ∧
    ∀ k, k < 16 → k < p.parts.length → (p.eachUnfenced f).part k = if p.fenced k then p.part k else f (p.part k) := by
  obtain ⟨heq, hlen, -, hin⟩ := p.foldl_unfenced f (List.range 16) List.nodup_range
  exact ⟨heq, hlen, fun k hk => hin k (List.mem_range.mpr hk)⟩

end

/-! ## The events of the counter -/

section
variable {s : State}

theorem Meridian.watchEnd_done (m : Meridian) : m.watchEnd.watchDone = true ∧ m.watchEnd.now = m.now := by
  unfold Meridian.watchEnd
  split
  · dsimp only
    split <;> exact ⟨rfl, rfl⟩
  · exact ⟨rfl, rfl⟩

theorem exec_watchEnd (h : s.owed = 2) : exec .watchEnd s = .next { s with
    mer := s.mer.watchEnd
    pipe := s.pipe.eachUnfenced (fun q =>
      { q with watchNo := s.mer.watchEnd.watchNo, sched := q.sched.watchEnd s.mer.now s.mer.watchSkipped }) } := by
  rw [← s.mer.watchEnd_done.2]
  exact congrArg Host.Outcome.next (if_pos h)

theorem exec_transitTakeover (h : s.owed = 3) : exec .transitTakeover s = .next { s with
    pipe := s.pipe.eachUnfenced (fun q => { q with sched := q.sched.takeover s.mer.now }) } :=
  congrArg Host.Outcome.next (if_pos h)

theorem exec_epochPublish {slot : Nat} {e : EphEntry} (h : s.owed = 4) (hn : s.mer.nextDue = some (slot, e)) :
    exec .epochPublish s = .next { s with
      mer := s.mer.perform slot e
      pipe := s.pipe.eachUnfenced (fun q =>
        { q with pub := (s.mer.perform slot e).pub, pend := (s.mer.perform slot e).pend }) } := by
  refine congrArg Host.Outcome.next ((if_pos h).trans ?_)
  rw [hn]
  rfl

end

section
variable {m : Meridian} {slot : Nat} {e : EphEntry}

theorem Meridian.publishes_iff : m.publishes e = true ↔ m.pub < e.epoch ∧ e.epoch < 0xFFFFFFFFFFFF := by
  unfold Meridian.publishes
  rw [Bool.and_eq_true, decide_eq_true_eq, decide_eq_true_eq, gt_iff_lt]

theorem Meridian.perform_publishes (h : m.publishes e = true) : (m.perform slot e).pub = e.epoch ∧
    (m.perform slot e).pend = min (e.epoch + 1) 0xFFFFFFFFFFFF ∧ ((m.perform slot e).slot slot).state = .done ∧
    (m.perform slot e).skipCnt = m.skipCnt := by
  unfold Meridian.perform Meridian.slot
  dsimp only
  rw [if_pos h]
  exact ⟨rfl, rfl, congrArg EphEntry.state (getD_set_same _ _ _ _), rfl⟩

theorem Meridian.perform_skips (h : ¬ m.publishes e = true) : (m.perform slot e).pub = m.pub ∧
    (m.perform slot e).pend = m.pend ∧ ((m.perform slot e).slot slot).state = .skipped ∧
    (m.perform slot e).skipCnt = satAdd m.skipCnt 1 := by
  unfold Meridian.perform Meridian.slot
  dsimp only
  rw [if_neg h]
  exact ⟨rfl, rfl, congrArg EphEntry.state (getD_set_same _ _ _ _), rfl⟩

end

/-- Settles O32: an event in its turn changes every unfenced partition alone; the rows of the wheel act on one. -/
theorem counterEvents : Obligations.CounterEvents := by
  refine ⟨fun s => ?_, fun s k hc hf => ?_⟩
  · intro m only
    have honly : ∀ (x : Meridian) (f : Part → Part), only { s with mer := x, pipe := s.pipe.eachUnfenced f } x f := fun x f => by
      have hspec := s.pipe.eachUnfenced_spec f
      generalize s.pipe.eachUnfenced f = q at hspec ⊢
      obtain ⟨heq, hparts⟩ := hspec
      exact ⟨congrArg (fun p => ({ s with mer := x, pipe := p } : State)) heq, hparts⟩
    refine ⟨fun h => ⟨_, exec_watchEnd h, m.watchEnd_done.1, ?_⟩, fun h => ⟨_, exec_transitTakeover h, ?_⟩,
      fun slot e h hn => ⟨_, exec_epochPublish h hn, ?_, fun hp he => ?_, fun hn => ?_⟩,
      fun h => congrArg Host.Outcome.next (if_neg h), fun h => congrArg Host.Outcome.next (if_neg h),
      fun h => congrArg Host.Outcome.next (if_neg h)⟩
    · exact honly m.watchEnd _
    · exact honly m _
    · exact honly (m.perform slot e) _
    · obtain ⟨hpub, hpend, hstate, hskip⟩ := Meridian.perform_publishes (m := m) (slot := slot)
        (Meridian.publishes_iff.mpr ⟨hp, he⟩)
      exact ⟨hpub, hpend.trans (by omega), hstate, hskip⟩
    · exact Meridian.perform_skips (m := m) (fun hp => by have := Meridian.publishes_iff.mp hp; omega)
  · intro q elig
    have hopen : ¬ s.pipe.fenced k = true := by rw [hf]; exact Bool.false_ne_true
    refine ⟨congrArg Host.Outcome.next (if_pos (by rw [hc.1, hf]; rfl)), ?_, ?_⟩
    · exact congrArg Host.Outcome.next ((onPipe_perform hc _).trans (congrArg (perform s) (if_neg hopen)))
    · exact congrArg Host.Outcome.next ((onPipe_perform hc _).trans (congrArg (perform s) (if_neg hopen)))

end Sys2Proof.Machine
end

section
/-!
PROOF. Package resets, function level resets and the loss of the PCIe link (R454, R543, R544, R610 to R613).
-/
namespace Sys2Proof.Machine

/-! ## Entries of the Almanac after a change of one -/

theorem Tbl.mem_of_get? {α : Type} {t : Tbl α} {n : Nat} {x : α} (h : t.get? n = some x) : (n, x) ∈ t := by
  induction t with
  | nil => cases h
  | cons y t ih =>
    unfold Tbl.get? at h
    split at h
    · rename_i heq
      obtain rfl := Option.some.inj h
      exact heq ▸ List.mem_cons_self
    · split at h
      · cases h
      · exact List.mem_cons_of_mem _ (ih h)

section
variable (p : Pipe) (a b : Nat)

theorem Pipe.queue_modPart {f : Part → Part} (hf : ∀ q, (f q).alm.entries = q.alm.entries) (k : Nat) :
    (p.modPart k f).queue b = p.queue b := by
  unfold Pipe.queue Pipe.part Pipe.modPart
  dsimp only
  rw [getElem?_modNth]
  split
  · cases p.parts[queuePart b]? with
    | none => rfl
    | some q => exact congrArg (fun t : Tbl AlmEntry => t.getD _ _) (hf q)
  · rfl

/-- A change of one entry: another one, and one of no partition, stays. -/
theorem Pipe.queue_modQueue (f : AlmEntry → AlmEntry) : (p.modQueue a f).queue b = p.queue b ∨
    (p.modQueue a f).queue b = f (p.queue b) := by
  unfold Pipe.modQueue Pipe.setQueue Pipe.queue Pipe.part Pipe.modPart
  dsimp only
  rw [getElem?_modNth]
  split
  · next h =>
    rw [h]
    cases p.parts[queuePart b]? with
    | none => exact .inl rfl
    | some q =>
      by_cases hs : b % 2 ^ 20 = a % 2 ^ 20
      · rw [hs]
        exact .inr (getD_set_same _ _ _ _)
      · exact .inl (congrArg (Option.getD · _) (get?_set_ne _ _ _ _ hs))
  · exact .inl rfl

theorem Pipe.queue_modQueue_same (f : AlmEntry → AlmEntry) (h : (p.modQueue a f).queue a ≠ f (p.queue a)) :
    p.queue a = AlmEntry.zero ∧ (p.modQueue a f).queue a = AlmEntry.zero := by
  unfold Pipe.modQueue Pipe.setQueue Pipe.queue Pipe.part Pipe.modPart at *
  dsimp only at *
  rw [getElem?_modNth, if_pos rfl] at *
  cases hq : p.parts[queuePart a]? with
  | none => exact ⟨rfl, rfl⟩
  | some q =>
    rw [hq] at h
    exact absurd (getD_set_same _ _ _ _) h

end

section
variable (p : Pipe) (a b : Nat)

theorem Pipe.queue_delist : (p.delist a).queue b = (p.modQueue a (fun e => { e with onlist := false })).queue b :=
  by
  refine Pipe.queue_modPart _ b ?_ _
  exact fun _ => rfl

theorem Pipe.queue_unlist : (p.unlist a).queue b = ((p.delist a).modQueue a (fun e => { e with onwheel := false })).queue b :=
  by
  refine Pipe.queue_modPart _ b ?_ _
  exact fun _ => rfl

end

/-- A function level reset frees one queue (R454). -/
def Pipe.freeQueue (p : Pipe) (q : Nat) : Pipe :=
  (p.unlist q).modQueue q (fun e => { e with state := .free, gen := (e.gen + 1) % 65536, fetched := [] })

theorem Pipe.queue_flrEntries (p : Pipe) (k b : Nat) (qs : List Nat) :
    (p.flrEntries k qs).queue b = (qs.foldl Pipe.freeQueue p).queue b := by
  refine Pipe.queue_modPart _ b ?_ _
  exact fun _ => rfl

section
variable (p : Pipe) (a b : Nat) (pf : Bool)

theorem Pipe.flrHits_modQueue {f : AlmEntry → AlmEntry} (hf : ∀ e, e.flrHits pf = false → (f e).flrHits pf = false)
    (h : (p.queue b).flrHits pf = false) : ((p.modQueue a f).queue b).flrHits pf = false := by
  rcases p.queue_modQueue a b f with he | he
  · rwa [he]
  · rw [he]
    exact hf _ h

theorem Pipe.flrHits_unlist (h : (p.queue b).flrHits pf = false) : ((p.unlist a).queue b).flrHits pf = false := by
  rw [Pipe.queue_unlist]
  refine Pipe.flrHits_modQueue _ _ _ _ (fun e he => he) ?_
  rw [Pipe.queue_delist]
  exact Pipe.flrHits_modQueue _ _ _ _ (fun e he => he) h

theorem AlmEntry.flrHits_free {e : AlmEntry} (h : e.state = .free) : e.flrHits pf = false := by
  unfold AlmEntry.flrHits
  rw [h]
  exact Bool.and_false _

theorem Pipe.flrHits_freeQueue (h : (p.queue b).flrHits pf = false) : ((p.freeQueue a).queue b).flrHits pf = false :=
  Pipe.flrHits_modQueue _ _ _ _ (fun _ _ => AlmEntry.flrHits_free pf rfl) (p.flrHits_unlist a b pf h)

theorem Pipe.flrHits_freeQueue_same : ((p.freeQueue a).queue a).flrHits pf = false := by
  by_cases h : ((p.freeQueue a).queue a) = { (p.unlist a).queue a with
      state := .free, gen := (((p.unlist a).queue a).gen + 1) % 65536, fetched := [] }
  · rw [h]
    exact AlmEntry.flrHits_free pf rfl
  · have hz : (p.freeQueue a).queue a = AlmEntry.zero := (Pipe.queue_modQueue_same _ _ _ h).2
    rw [hz]
    exact AlmEntry.flrHits_free pf rfl

theorem Pipe.flrHits_foldl (qs : List Nat) (h : b ∈ qs ∨ (p.queue b).flrHits pf = false) :
    ((qs.foldl Pipe.freeQueue p).queue b).flrHits pf = false := by
  induction qs generalizing p with
  | nil => exact h.resolve_left List.not_mem_nil
  | cons q qs ih =>
    refine ih _ ?_
    rcases h with h | h
    · rcases List.mem_cons.mp h with rfl | h
      · exact .inr (p.flrHits_freeQueue_same b pf)
      · exact .inl h
    · exact .inr (p.flrHits_freeQueue q b pf h)

variable {k q : Nat} (hk : k < 16) (hq : q < 1048576)
include hk hq

theorem Pipe.mem_flrQueues (h : (p.queue (k * 1048576 + q)).flrHits pf = true) : k * 1048576 + q ∈ p.flrQueues k pf := by
  have hpart : queuePart (k * 1048576 + q) = k := by unfold queuePart; omega
  have hidx : (k * 1048576 + q) % 2 ^ 20 = q := by omega
  unfold Pipe.queue at h
  rw [hpart, hidx] at h
  unfold Tbl.getD at h
  unfold Pipe.flrQueues
  cases hget : (p.part k).alm.entries.get? q with
  | none =>
    rw [hget, Option.getD_none, AlmEntry.flrHits_free pf rfl] at h
    cases h
  | some e =>
    rw [hget] at h
    exact List.mem_map.mpr ⟨(q, e), List.mem_filter.mpr ⟨Tbl.mem_of_get? hget, h⟩, rfl⟩

/-- After a function level reset no queue of the partition is one that it frees (R454). -/
theorem Pipe.flrHits_flrEntries :
    ((p.flrEntries k (p.flrQueues k pf)).queue (k * 1048576 + q)).flrHits pf = false := by
  have hfold := p.flrHits_foldl (k * 1048576 + q) pf (p.flrQueues k pf) (by
    cases hb : (p.queue (k * 1048576 + q)).flrHits pf with
    | false => exact .inr rfl
    | true => exact .inl (p.mem_flrQueues pf hk hq hb))
  rwa [Pipe.queue_flrEntries]

end

/-! ## A function level reset of VF k + 1 -/

section
variable (s : State) (pf : Bool) (k : Nat)

theorem flrPart_mbx : (s.flrPart pf k).mbx = s.mbx := rfl

theorem flrVf_mailbox (h : k + 1 < s.mbx.length) : (s.flrVf k).mailbox (k + 1) = (s.mailbox (k + 1)).blockReset := by
  have hmbx : (s.flrVf k).mbx = modNth s.mbx (k + 1) Mailbox.blockReset := rfl
  unfold State.mailbox
  rw [hmbx, getElem?_modNth, if_pos rfl, List.getElem?_eq_getElem h]
  rfl

theorem flrVf_running : ∀ r ∈ (s.flrVf k).coel.running, r.2.req.mb ≠ k + 1 := fun _ hr =>
  bne_iff_ne.mp (List.mem_filter.mp hr).2

theorem flrVf_unmasked : ∀ x ∈ (s.flrVf k).pcie.unmasked, x.1 ≠ k + 1 := fun _ hx =>
  bne_iff_ne.mp (List.mem_filter.mp hx).2

theorem flrVf_dpen : (s.flrVf k).coel.dpen = s.coel.dpen := rfl

theorem dpen_foldl {f : State → Nat → State} (h : ∀ s k, (f s k).coel.dpen = s.coel.dpen) (l : List Nat) :
    (l.foldl f s).coel.dpen = s.coel.dpen := by
  induction l generalizing s with
  | nil => rfl
  | cons k l ih => exact (ih _).trans (h s k)

theorem linkReset_dpen : s.linkReset.coel.dpen = s.coel.dpen := by
  have hparts : ((List.range 16).foldl (State.flrPart · true) s).coel.dpen = s.coel.dpen :=
    dpen_foldl s (fun s k => show (s.flrPart true k).coel.dpen = s.coel.dpen from rfl) (List.range 16)
  unfold State.linkReset State.flrPf State.flrVfs
  generalize (List.range 16).foldl (State.flrPart · true) s = t at hparts ⊢
  exact (dpen_foldl ((t.flrMbx 0).flrFunc 0) flrVf_dpen (List.range 16)).trans hparts

end

/-! ## Package resets -/

section
variable {s : State}

theorem packageReset_fenced (w : LastRst) (k : Nat) : (s.packageReset w).pipe.fenced k = true := by
  have hpart : (s.packageReset w).pipe.part k = Part.reset := Pipe.reset_part _ _ _ k
  unfold Pipe.fenced
  rw [hpart]
  rfl

theorem askReset_now {after : AfterFlush} {why : LastRst} (hf : s.flush.state ≠ .flushing)
    (h : s.coel.dpen = false ∨ s.works = false) : s.askReset after why = s.packageReset why :=
  (if_neg hf).trans (if_neg (by simpa using fun hd => h.resolve_left (by rw [hd]; exact Bool.noConfusion)))

theorem askReset_flush {after : AfterFlush} {why : LastRst} (hd : s.coel.dpen = true) (hw : s.works = true) :
    s.askReset after why = s.startFlush after := by
  obtain ⟨-, -, hidle, -⟩ := works_fields hw
  exact (if_neg (by rw [hidle]; exact HoldState.noConfusion)).trans (if_pos (by rw [hd, hw]; rfl))

end

/-- Settles O34: the rows that restart the package, and what each function level reset leaves. -/
theorem resetRows : Obligations.ResetRows := by
  refine ⟨fun s => ⟨fun aon => rfl, rfl, rfl, rfl, rfl, rfl, rfl, rfl, rfl, List.length_replicate, fun k _ => packageReset_fenced _ k,
      rfl, ?_, fun hr hf => ?_, fun v hv => ?_⟩, fun s hb hs => ?_⟩
  · intro p hg
    have hask : exec .packageReset s = .next (p.askReset .perst .perst) := congrArg Host.Outcome.next (if_pos hg)
    exact ⟨fun hf hd => hask.trans (congrArg _ (askReset_now hf hd)), fun hd hw => hask.trans (congrArg _ (askReset_flush hd hw)),
      fun hf => hask.trans (congrArg _ (if_pos hf))⟩
  · have hask : exec (.rstCtl 0xB1C10001) s = .next (s.askReset .rstCtl .rstCtl) :=
      congrArg Host.Outcome.next ((doWrite_reach hr _).trans ((if_neg (not_not_intro rfl)).trans (if_neg (by simp [hf]))))
    exact ⟨fun hd => hask.trans (congrArg _ (askReset_now hf hd)), fun hd hw => hask.trans (congrArg _ (askReset_flush hd hw))⟩
  · refine congrArg Host.Outcome.next ?_
    unfold State.doWrite
    dsimp only
    rw [if_pos hv]
    exact ite_self s
  · have hup : s.pcieUp = true := by simp [State.pcieUp, hb, hs]
    refine ⟨congrArg Host.Outcome.next (if_pos hup), fun k hk hv => congrArg Host.Outcome.next (if_pos (by simp [hup, hv, hk])),
      fun hv => congrArg Host.Outcome.next (if_pos (by rw [hup, hv]; rfl)),
      fun ht => congrArg Host.Outcome.next (if_pos (by rw [hup, ht]; rfl)),
      fun k hk => ⟨flrVf_mailbox s k, flrVf_running s k, flrVf_unmasked s k, fun q pf hq => s.pipe.flrHits_flrEntries pf hk hq⟩,
      ?_, ?_, ?_, linkReset_dpen s⟩
    · rfl
    · rfl
    · rfl

end Sys2Proof.Machine
end

section
/-!
PROOF. The boot stages (R615 to R622) and the restarts of the Coelostat (R557, R558, R637, R639).
-/
namespace Sys2Proof.Machine

/-! ## The stages of boot -/

section
variable {s : State} {stage : Stage}

/-- The row of a stage is taken while the package works and the stage is its own. -/
theorem bootRow (hw : s.works = true) (hb : s.boot.stage = stage) {t : State} :
    (if s.works && s.boot.stage = stage then t else s) = t :=
  if_pos (by rw [hw, hb]; simp)

end

section
variable {s : State} {r : RomEnd}

theorem romEnd_start {slot : Bool} (h : r.start = some slot) : (s.romEnd r).boot.stage = s.boot.stage := by
  unfold State.romEnd
  rw [h]

theorem romEnd_none (h : r.start = none) : (s.romEnd r).boot.stage = .recovery := by
  unfold State.romEnd
  rw [h]

end

theorem failTraining_nil (s : State) : s.failTraining [] = s := if_pos rfl

theorem linkSources_trained : linkSources (d2dReset.map (fun l => { l with trained := true })) = [] := by decide

theorem unreachSources_trained : unreachSources (d2dReset.map (fun l => { l with trained := true })) = [] := by decide

theorem exec_clocks {s : State} (hw : s.works = true) (hb : s.boot.stage = .clocks) : exec (.clocks []) s = .next (({ s with
      d2d := d2dReset.map (fun l => { l with trained := true }), sb := s.sb.writeFunc s.settings.sbFunc,
      boot := { s.boot with stage := .hbm }, pwr := s.pwr.ungate } : State).raise []).settle := by
  refine congrArg Host.Outcome.next ((bootRow hw hb).trans ?_)
  rw [List.filter_nil, List.foldl_nil]
  dsimp only
  rw [unreachSources_trained, linkSources_trained, List.map_nil, failTraining_nil, List.append_nil]

/-- What the FLASH stage leaves, with the record that the last flush left (R425 to R428). -/
def flashRestored (s : State) (found : FlashFound) (pub out : Nat) (alarms : BitVec 8) : State :=
  { s with
    mer := { s.mer with pub := pub, pend := pub + 1 }, pipe := s.pipe.flashStage found s.settings.pair,
    flush := { s.flush with lastOutcome := out, lastAlarms := alarms }, boot := { s.boot with stage := .restore } }

theorem exec_flash {s : State} (hw : s.works = true) (hb : s.boot.stage = .flash) {found : FlashFound}
    (hl : found.luns ∈ [64, 32, 16]) : exec (.flash [] found) s = .next
    (((match s.pipe.nand.record with
      | none => flashRestored s found 0 0 0
      | some (pub, a, inc) => flashRestored s found pub (if inc then 2 else 1) a).raise []).settle) := by
  have hluns : (found.luns = 64 || found.luns = 32 || found.luns = 16) = true := by
    simpa [or_assoc] using hl
  refine congrArg Host.Outcome.next ((if_pos (by rw [hw, hb, hluns]; rfl)).trans ?_)
  rw [List.filter_nil]
  dsimp only
  rw [failTraining_nil, List.map_nil]
  unfold Nand.pub
  cases s.pipe.nand.record with
  | none => rfl
  | some x => rfl

/-- A partition that passed training, as READY leaves it (R621). -/
def readied (m : Meridian) (q : Part) : Part :=
  if q.trained then { q.clearRegs with flash := q.flash, st := .serving, pub := m.pub, pend := m.pend, watchNo := m.watchNo } else q

theorem Pipe.parts_sendMarkers (p : Pipe) (srcs : List Nat) (pub : Nat) : ∃ g : Part → Part,
    (p.sendMarkers srcs pub).parts = p.parts.map g ∧ ∀ q, (g q).st = q.st ∧ (g q).pub = q.pub ∧ (g q).pend = q.pend :=
  ⟨_, rfl, fun _ => ⟨rfl, rfl, rfl⟩⟩

theorem Pipe.part_of_map {p t : Pipe} {g : Part → Part} (h : t.parts = p.parts.map g) {k : Nat} (hk : k < p.parts.length) :
    t.part k = g (p.part k) := by
  unfold Pipe.part
  rw [h, List.getElem?_map, List.getElem?_eq_getElem hk]
  rfl

theorem exec_ready {s : State} (hw : s.works = true) (hb : s.boot.stage = .ready) (hc : s.coel.state = .training)
    (hf : s.fcu.clearOfSafe = true) : exec .ready s = .next { s with
      coel := { s.coel with state := .ready },
      pipe := ({ s.pipe with parts := s.pipe.parts.map (readied s.mer) } : Pipe).sendMarkers (List.range 16) s.mer.pub } :=
  congrArg Host.Outcome.next (if_pos (by rw [hw, hb, hc, hf]; rfl))

/-- Settles O36: each stage's row under its own premise. -/
theorem bootRows : Obligations.BootRows := by
  intro s
  refine ⟨fun hg hf hb => ?_, fun hw b hb => ?_, fun hw hb => congrArg Host.Outcome.next (bootRow hw hb),
    fun hw hb => exec_clocks hw hb, fun hw hb bad => congrArg Host.Outcome.next (bootRow hw hb),
    fun hw hb hn found hl => ?_, fun hw hb found pub a inc hl hn => ?_, fun hw hb => congrArg Host.Outcome.next (bootRow hw hb),
    fun hw hb hc hf => ⟨_, exec_ready hw hb hc hf, rfl, ?_, fun k hk ht => ?_⟩⟩
  · exact congrArg Host.Outcome.next ((if_neg (by simp [hg, hf])).trans (if_pos hb))
  · intro r
    have hrow : exec (.norRead b) s = .next (if (s.romEnd r).boot.stage = .recovery then s.romEnd r
        else { s.romEnd r with boot := { (s.romEnd r).boot with stage := .fwStart } }) :=
      congrArg Host.Outcome.next (bootRow hw hb)
    refine ⟨fun slot hr => hrow.trans (congrArg _ (if_neg ?_)), fun hr => hrow.trans (congrArg _ (if_pos (romEnd_none hr)))⟩
    rw [romEnd_start hr, hb]
    exact Stage.noConfusion
  · rw [exec_flash hw hb hl, hn]
    rfl
  · rw [exec_flash hw hb hl, hn]
    rfl
  · obtain ⟨g, hg, -⟩ := Pipe.parts_sendMarkers { s.pipe with parts := s.pipe.parts.map (readied s.mer) } (List.range 16) s.mer.pub
    exact (congrArg List.length hg).trans (by rw [List.length_map, List.length_map])
  · obtain ⟨g, hg, hkeep⟩ := Pipe.parts_sendMarkers { s.pipe with parts := s.pipe.parts.map (readied s.mer) } (List.range 16) s.mer.pub
    have hpart := Pipe.part_of_map (p := s.pipe) (g := g ∘ readied s.mer) (hg.trans (List.map_map)) hk
    obtain ⟨hst, hpub, hpend⟩ := hkeep (readied s.mer (s.pipe.part k))
    have hready : readied s.mer (s.pipe.part k) = { (s.pipe.part k).clearRegs with
        flash := (s.pipe.part k).flash, st := .serving, pub := s.mer.pub, pend := s.mer.pend, watchNo := s.mer.watchNo } := if_pos ht
    rw [hready] at hst hpub hpend
    dsimp only
    rw [hpart]
    exact ⟨(congrArg (fun q => (g q).st) hready).trans hst, (congrArg (fun q => (g q).pub) hready).trans hpub,
      (congrArg (fun q => (g q).pend) hready).trans hpend⟩

/-! ## Restarts -/

/-- An abandoned command changes nothing but what its mailbox holds (R548). -/
theorem sends_abandon (s : State) (x : Running) : Sends s (s.abandon x) := by
  unfold State.abandon
  split
  · exact sends_result _ _ _ _ _
  · exact sends_answer _ _ _

theorem abandonAll_fields (s : State) : s.abandonAll.pipe = { s.pipe with edits := [] } ∧ s.abandonAll.boot = s.boot := by
  have hrun : Sends s (s.coel.running.vals.foldl State.abandon s) := Sends.foldl _ _ sends_abandon s
  have hwait := hrun.trans (Sends.foldl ((s.coel.running.vals.foldl State.abandon s).mbx.flatMap (·.waiting))
    (fun s r => s.answer r (Answer.busy 10000)) (fun s r => sends_answer s r _) _)
  exact ⟨congrArg (fun p : Pipe => { p with edits := [] }) hwait.pipe, hwait.boot⟩

theorem storeUp_abandonAll (s : State) : s.abandonAll.storeUp = s.storeUp := by
  unfold State.storeUp
  rw [(abandonAll_fields s).1]
  rfl

/-- A restart by the watchdog outside a trial, with the store there (R557). -/
theorem watchdog_restarts {t : State} (hstore : t.storeUp = true) (ht : t.boot.trial = false) :
    (let s3 := { t with boot := { t.boot with wdInTrial := t.boot.wdInTrial || t.boot.trial } }
     (if !s3.storeUp then s3.loseSram.fromNor
      else
        let nor := if s3.boot.trial then s3.nor.bumpUnconf else s3.nor
        { s3 with
          nor := nor, coel := { s3.coel with state := .restarting },
          boot := { s3.boot with unconf := if s3.boot.trial then nor.cb.count else s3.boot.unconf } }).settle) =
    ({ t with coel := { t.coel with state := .restarting } } : State).settle := by
  refine congrArg State.settle ((if_neg (show ¬ (!t.storeUp) = true by rw [hstore]; exact Bool.false_ne_true)).trans ?_)
  dsimp only
  rw [ht, if_neg Bool.false_ne_true, if_neg Bool.false_ne_true, Bool.or_false, ← ht]

/-- Settles O38: each restart's row, by the state that the ROM's choice leaves. -/
theorem coelostatRestarts : Obligations.CoelostatRestarts := by
  intro s
  refine ⟨fun hw hc hsafe hup => ?_, fun hw hb hc hf => ?_, fun hw hb hc => ?_, fun ho => ?_, fun ht hg => ?_⟩
  · intro s1 s2 ht
    have hstore : s2.storeUp = true := (storeUp_abandonAll _).trans hup
    refine congrArg Host.Outcome.next ((if_pos (by simp [hw, hc])).trans ((if_neg (by rw [hsafe]; exact Bool.false_ne_true)).trans
      (watchdog_restarts hstore ht)))
  · exact congrArg Host.Outcome.next (if_pos (by simp [hw, State.trained, hb, hc, hf]))
  · exact congrArg Host.Outcome.next (if_pos (by simp [hw, State.trained, hb, hc]))
  · intro s2 r
    have hrow : exec .activationWindow s = .next (if (s2.romEnd r).boot.stage = .recovery then s2.romEnd r
        else { s2.romEnd r with coel := { (s2.romEnd r).coel with state := .activating } }).settle :=
      congrArg Host.Outcome.next (if_pos ho)
    refine ⟨rfl, fun slot hr hb => hrow.trans (congrArg (fun t : State => Host.Outcome.next t.settle) ((if_neg ?_).trans ?_)),
      fun hr => hrow.trans (congrArg (fun t : State => Host.Outcome.next t.settle) (if_pos (romEnd_none hr)))⟩
    · rwa [romEnd_start hr]
    · unfold State.romEnd
      rw [hr]
  · have hgo : ¬ (!s.boot.trialRun || !s.pwr.good) = true := by rw [ht, hg]; exact Bool.false_ne_true
    intro s1
    exact ⟨fun hw => congrArg Host.Outcome.next ((if_neg hgo).trans (if_neg (by simp [hw]))),
      fun hw hc => congrArg Host.Outcome.next ((if_neg hgo).trans (if_pos (by simp [hw, hc])))⟩

end Sys2Proof.Machine
end

section
/-!
PROOF. PWR_GOOD, reference clocks, die-to-die links, margins, PCIe rows and fabric links (chapters 16, 17, 19 and 21).
-/
namespace Sys2Proof.Machine

section
variable {s : State}

theorem onFault_good (hg : s.pwr.good = true) (srcs : List Nat) : s.onFault true srcs = (s.raise srcs).settle :=
  if_pos (by rw [hg]; rfl)

theorem exec_laneFail {l m lane : Nat} {x : D2dLink} {fs : List Nat} (hg : s.pwr.good = true) (hl : s.d2d[l]? = some x)
    (ht : x.trained = true) (hm : x.failed[m]? = some fs) (hlane : lane < 66) (hnew : lane ∉ fs)
    (hup : (x.failLane m lane).up = true) (hmod : moduleState fs ≠ .down) : exec (.laneFail l m lane) s =
    .next ((({ s with d2d := setNth s.d2d l (x.failLane m lane) } : State).raise [264 + l]).settle) := by
  refine congrArg Host.Outcome.next ?_
  rw [hl]
  dsimp only
  rw [hm, if_neg (by simp [ht, hlane, hnew]), if_pos hup, if_pos (by simpa using hmod)]
  exact onFault_good (s := { s with d2d := setNth s.d2d l (x.failLane m lane) }) hg _

theorem exec_d2dDown {l : Nat} {x : D2dLink} (hg : s.pwr.good = true) (hl : s.d2d[l]? = some x) (hup : x.up = true) :
    let ls := setNth s.d2d l { x with dead := true }
    exec (.d2dDown l) s = .next ((({ s with d2d := ls } : State).raise ([276 + l] ++ unreachSources ls)).settle) := by
  refine congrArg Host.Outcome.next ?_
  rw [hl]
  dsimp only
  rw [if_neg (by rw [hup]; exact Bool.false_ne_true)]
  exact onFault_good (s := { s with d2d := setNth s.d2d l { x with dead := true } }) hg _

theorem exec_marginMeasure {kind idx : Nat} {v sp : Int} {x : Nat} (hw : s.works = true) (hg : s.pwr.good = true)
    (hb : s.boot.stage = .serving) (hm : marginInfo kind idx = some (some sp, some x))
    (hf : kind = 1 → s.pipe.fenced (idx / 64) = false) (hk : kind ≠ 2) : exec (.marginMeasure kind idx v) s =
    .next ((({ s with pwr := { s.pwr with
         margins := s.pwr.margins.set (kind * 65536 + idx) v } } : State).raise (if v < sp then [x] else [])).settle) := by
  refine congrArg Host.Outcome.next ?_
  rw [hm]
  dsimp only
  rw [if_neg (by simpa [hw, hb] using hf)]
  refine (if_pos (by rw [hg]; rfl)).trans ?_
  dsimp only
  rw [if_neg (show ¬ (decide (kind = 2) && decide (idx < 4)) = true by simp [hk])]

theorem exec_answerFrame {n : Nat} {b : List Byte} (hb : s.boot.stage ≠ .reset) (hn : n < 32) (hup : (s.fab.link n).up = true)
    (hq : s.fab.squelched n s.quiet = false) : s.answerFrame n (some b) = { s with
      fab := (s.fab.modLink n (fun l => { l with rx := l.rx + 1 })).modLink n (fun l => { l with tx := l.tx + 1 })
      out := s.out ++ [.net n b] } := by
  refine (if_neg (by simp [hb, hup, hn])).trans (if_neg ?_)
  rw [hq]
  exact Bool.false_ne_true

end

/-- Settles O41: each row under its premises, what waited for the PCIe link being released. -/
theorem clockAndLinkRows : Obligations.ClockAndLinkRows := by
  refine ⟨fun s => ⟨fun bad hg => ?_, fun hc ht => ?_, fun hc ht hb hs => ?_, rfl, fun hc => ?_,
      fun l m lane x fs hg hl ht hm hlane hnew hup hmod => exec_laneFail hg hl ht hm hlane hnew hup hmod,
      fun l x hg hl hup => exec_d2dDown hg hl hup, fun kind idx v sp x hw hg hb hm hf hk => exec_marginMeasure hw hg hb hm hf hk⟩,
    fun s => ⟨fun hb hs hp hg hc hd => ?_, fun hr => ⟨?_, fun f b d hf hv => ?_, fun f v hf hv hlt hnew => ?_⟩, fun ht => ?_⟩,
    fun s n hb => ⟨fun _ _ _ => congrArg Host.Outcome.next (if_neg hb), fun hn => ?_⟩⟩
  · exact congrArg Host.Outcome.next (if_neg (by rw [hg]; exact Bool.false_ne_true))
  · exact congrArg Host.Outcome.next ((if_neg (by rw [hc]; exact Bool.false_ne_true)).trans (if_neg (by simp [ht])))
  · exact congrArg Host.Outcome.next ((if_neg (by rw [hc]; exact Bool.false_ne_true)).trans
      (if_pos (by simp [State.pcieUp, ht, hb, hs])))
  · exact congrArg Host.Outcome.next (if_neg (by rw [hc]; exact Bool.false_ne_true))
  · exact congrArg Host.Outcome.next (if_pos (by simp [State.pcieUp, hb, hs, hp, hg, hc, hd]))
  · exact congrArg Host.Outcome.next (doWrite_reach hr _)
  · refine congrArg Host.Outcome.next ((doWrite_reach hr _).trans (if_neg ?_))
    have hvf : f ≠ 0 → s.pcie.vfEnable = true := hv.resolve_left
    simpa [Nat.not_lt.mpr hf] using hvf
  · refine congrArg Host.Outcome.next ((doWrite_reach hr _).trans (if_neg ?_))
    have hvf : f ≠ 0 → s.pcie.vfEnable = true := hv.resolve_left
    rw [Bool.or_eq_true, Bool.or_eq_true]
    rintro ((h | h) | h)
    · exact absurd hvf (by simpa [Nat.not_lt.mpr hf] using h)
    · exact absurd hlt (Nat.not_lt.mpr (of_decide_eq_true h))
    · exact hnew (List.contains_iff_mem.mp h)
  · simp [State.reach, ht]
  · intro l
    refine ⟨fun hup => congrArg Host.Outcome.next (if_pos (by simp [hb, hn, show (s.fab.link n).up = true from hup])),
      fun hup => congrArg Host.Outcome.next (if_neg (by simp [show (s.fab.link n).up = false from hup])),
      fun hup hex hl hr hbl hq => ?_, fun frame b hup hq => ⟨fun ha => ?_, fun ha => ?_⟩⟩
    · exact congrArg Host.Outcome.next (if_pos (by simp [hb, hn, hq, show (s.fab.link n).up = false from hup,
        show (s.fab.link n).exists_ = true from hex, show (s.fab.link n).lfault = false from hl,
        show (s.fab.link n).rfault = false from hr, show (s.fab.link n).blockLoss = false from hbl]))
    · exact congrArg Host.Outcome.next ((congrArg (s.answerFrame n) ha).trans (exec_answerFrame hb hn hup hq))
    · exact congrArg Host.Outcome.next ((congrArg (s.answerFrame n) ha).trans (exec_answerFrame hb hn hup hq))

end Sys2Proof.Machine
end

section
/-!
PROOF. How commands are taken and started, the tests before a command, and the commands of the package, of Meridian time and of the
scheduler (chapters 02, 15, 17 and 18).
-/
namespace Sys2Proof.Machine
open Sys2Proof.Claims

/-! ## Taking and starting -/

section
variable {s : State} {core : Nat} {r : Request} {late : Bool}

/-- Core `core` takes a command, from a state in which it has left its mailbox (R552, R555). -/
def State.takes (t : State) (core : Nat) (r : Request) (late : Bool) : State :=
  if !knownOps.contains r.opcode then
    t.answer r (Answer.of (if r.mb ≠ 0 && !t.coel.dpen then stNOTENABLED else stNOCOMMAND))
  else
    let s3 := if late then t.result r .running stBUDGETWAIT 0 else t
    { s3 with coel := { s3.coel with
      running := s3.coel.running.set core { req := r, late := late, begun := false, pos := 0, tally := 0 } } }

theorem takes_unknown (t : State) (h : knownOps.contains r.opcode = false) : t.takes core r late =
    t.answer r (Answer.of (if r.mb ≠ 0 ∧ t.coel.dpen = false then stNOTENABLED else stNOCOMMAND)) := by
  unfold State.takes
  rw [h, if_pos (by simp)]
  exact congrArg (fun n => t.answer r (Answer.of n)) (ite_of_iff (by simp) rfl rfl)

theorem takes_known (t : State) (h : knownOps.contains r.opcode = true) : t.takes core r late =
    (let s3 := if late then t.result r .running stBUDGETWAIT 0 else t
     { s3 with coel := { s3.coel with
       running := s3.coel.running.set core { req := r, late := late, begun := false, pos := 0, tally := 0 } } }) :=
  if_neg (by rw [h]; exact Bool.false_ne_true)

section
variable (hc : core < 8) (hs : s.serves = true) (hfree : s.coel.running.has core = false)
include hc hs hfree

theorem exec_cmdStart_core0 (h0 : core = 0) (hn : s.nextOfCore0 = some (r, late)) :
    exec (.cmdStart core) s = .next ((s.unqueue r).takes core r late) := by
  refine congrArg Host.Outcome.next ((if_pos (by simp [hc, hs, hfree])).trans ?_)
  rw [if_pos h0, hn]
  dsimp only
  rw [if_pos h0]
  rfl

theorem exec_cmdStart_other (h0 : core ≠ 0) (hst : s.coel.state = .ready) (hn : s.nextOf s.coel.turn 17 = some (r, late)) :
    exec (.cmdStart core) s = .next
      (({ s.unqueue r with coel := { (s.unqueue r).coel with turn := (r.mb + 1) % 17 } } : State).takes core r late) := by
  refine congrArg Host.Outcome.next ((if_pos (by simp [hc, hs, hfree])).trans ?_)
  rw [if_neg h0, if_pos hst, hn]
  dsimp only
  rw [if_neg h0]
  rfl

end

theorem exec_mbxRequestTake {m : Nat} (hm : m < 17) (hw : s.works = true) (hc : s.canMaster m = true)
    (ht : (s.mailbox m).mayTake = true) (slot : HostData) : exec (.mbxRequestTake m slot) s = .next
      (match slot with
      | none => s.modMbx m (fun b => { b with ringErr := true, stuck := true })
      | some bytes =>
        let r : Request := { mb := m, slot := padTo 256 bytes, seq := s.coel.nextSeq }
        let s1 := ({ s with coel := { s.coel with nextSeq := s.coel.nextSeq + 1 } }).modMbx m (fun b =>
          { b with rqCidx := (b.rqCidx + 1) % 65536, outst := b.outst + 1 })
        match s.busyHint r with
        | some h => s1.answer r (Answer.busy h)
        | none => s1.modMbx m (fun b => { b with waiting := b.waiting ++ [r] })) :=
  congrArg Host.Outcome.next (if_pos (by simp [hm, hw, hc, ht]))

end

/-- Settles O42: what is taken waits or is answered; what starts runs or is answered. -/
theorem mailboxRows : Obligations.MailboxRows := by
  intro s hw
  refine ⟨fun m hm hc ht => ⟨exec_mbxRequestTake hm hw hc ht none, fun bytes => ?_⟩, fun core r late h0 h8 hst hfree hn => ?_,
    fun r hs hfree hn hk => ?_, fun hst hd => congrArg Host.Outcome.next (if_pos (by simp [hw, hst, hd]))⟩
  · intro r t
    have htake := exec_mbxRequestTake hm hw hc ht (some bytes)
    refine ⟨fun hb => htake.trans ?_, fun h hb => htake.trans ?_⟩
    · exact congrArg Host.Outcome.next (by
        dsimp only
        rw [show s.busyHint { mb := m, slot := padTo 256 bytes, seq := s.coel.nextSeq } = none from hb])
    · exact congrArg Host.Outcome.next (by
        dsimp only
        rw [show s.busyHint { mb := m, slot := padTo 256 bytes, seq := s.coel.nextSeq } = some h from hb])
  · intro s1 s2 s3 y
    have hserves : s.serves = true := by simp [State.serves, hw, hst]
    have hrow : exec (.cmdStart core) s = .next (s2.takes core r late) :=
      exec_cmdStart_other h8 hserves hfree (Nat.ne_of_gt h0) hst hn
    refine ⟨fun hk => hrow.trans (congrArg _ (takes_known s2 hk)), fun hk hon => hrow.trans ?_, fun hk hm hd => hrow.trans ?_⟩
    · rw [takes_unknown s2 hk, if_neg]
      rintro ⟨hm, hd⟩
      exact Bool.noConfusion ((hon.resolve_left hm).symm.trans hd)
    · rw [takes_unknown s2 hk, if_pos ⟨hm, hd⟩]
  · exact (exec_cmdStart_core0 (by decide) hs hfree rfl hn).trans (congrArg _ (takes_known _ hk))

/-! ## The tests before a command -/

/-- A command that a test ends is answered, and has no other effect (R563). -/
theorem cmd_gated {s : State} {core op : Nat} {x : Running} {g : State → Request → Gate}
    {f : State → Request → Bool → State × CmdEnd} {a : Answer} (hrun : s.coel.running.get? core = some x) (hop : x.req.opcode = op)
    (hs : s.serves = true) (hlate : x.late = false) (hbegun : x.begun = false) (hg : s.gate x.req false (g s x.req) = some a) :
    s.cmd core op g f = answers s core x a := by
  have hgated : s.gated x.req (x.late || x.begun) (g s x.req) (f s x.req (x.late || x.begun)) = (s, .done a) := by
    rw [hlate, hbegun, Bool.or_self, State.gated, hg]
  unfold State.cmd State.command
  rw [hrun]
  dsimp only
  rw [if_neg (by simp [hop, hs]), hgated]
  simp only [answers, State.finish, hlate, Bool.false_eq_true, if_false]

section
variable {s : State} {r : Request} {g : Gate}

theorem gate_eq : s.gate r false g =
    if g.store = true ∧ s.coel.state = .ready ∧ s.storeUp = false then some (Answer.busy 10000)
    else if (r.mb ≠ 0 ∨ g.enabled = true) ∧ s.coel.dpen = false then some (Answer.of stNOTENABLED)
    else if r.mb ≠ 0 ∧ (g.scope = .g ∨ (g.scope = .o ∧ g.home ≠ r.mb - 1)) then some (Answer.of stSCOPE)
    else if g.entropy = true ∧ s.boot.entropy = false then some (Answer.of stNOENTROPY)
    else if ∃ k ∈ g.targets, s.pipe.fenced k = true then some (Answer.of stFENCED)
    else none := by
  unfold State.gate
  simp only [Bool.and_eq_true, Bool.or_eq_true, Bool.not_eq_true', decide_eq_true_eq, List.any_eq_true, Bool.not_false,
    and_true, and_assoc]

end

/-- Settles O43: the tests of R563 in their order. -/
theorem commandGates : Obligations.CommandGates := by
  intro s core op x g f hrun hop hs hlate g0 ends lacksStore offScope noEntropy off hbegun
  have hends : ∀ {a}, s.gate x.req false (g s x.req) = some a → ends a := fun hg => cmd_gated hrun hop hs hlate hbegun hg
  refine ⟨fun h1 => hends ?_, fun h1 h2 => hends ?_, fun h1 h2 h3 => hends ?_, fun h1 h2 h3 h4 => hends ?_,
    fun h1 h2 h3 h4 h5 => hends ?_⟩
  · rw [gate_eq, if_pos h1]
  · rw [gate_eq, if_neg h1, if_pos h2]
  · rw [gate_eq, if_neg h1, if_neg h2, if_pos h3]
  · rw [gate_eq, if_neg h1, if_neg h2, if_neg h3, if_pos h4]
  · rw [gate_eq, if_neg h1, if_neg h2, if_neg h3, if_neg h4, if_pos h5]

/-! ## Commands of the package and of the scheduler -/

section
variable {s : State} {core op : Nat} {x : Running} {g : State → Request → Gate} {k : State → Request → Bool → State × CmdEnd}

/-- The row of a command that is served, by the end that it comes to. -/
theorem served_answers (h : Served s core op x (g s x.req)) {t : State} {a : Answer} (hk : k s x.req false = (t, .done a)) :
    (Host.Outcome.next (s.cmd core op g k) : Host.Outcome State Fault Refusal) = .next (answers t core x a) :=
  congrArg Host.Outcome.next (cmd_answers h hk)

end

theorem any_writeList_none {s : State} {ps : List Nat} {l : TList} :
    ps.any (fun k => ((s.pipe.part k).sched.writeList l).isNone) = true ↔ ∃ k ∈ ps, (s.pipe.part k).sched.writeList l = none := by
  simp only [List.any_eq_true, Option.isNone_iff_eq_none]

/-- Settles O44: each command's answer, by the tests of its own. -/
theorem packageCommands : Obligations.PackageCommands := by
  refine ⟨fun s c h x => ?_, fun s c h x => ?_⟩
  · intro r upd
    refine ⟨fun hs => served_answers hs rfl, fun hs => served_answers hs rfl, fun hs => ⟨_, ?_, served_answers hs rfl⟩,
      fun hs => ⟨fun hno => served_answers hs ?_, fun e he => served_answers hs ?_⟩, fun hs => served_answers hs rfl,
      fun hs => served_answers hs rfl, fun hs => served_answers hs rfl,
      fun hs => ⟨fun hn => served_answers hs (if_pos hn), fun hn ho => served_answers hs ?_⟩,
      fun hs => ⟨fun hn => served_answers hs (if_pos hn), fun hn => served_answers hs (if_neg (Nat.not_lt.mpr hn))⟩⟩
    · simp [leBytes]
    · have hnone : (s.mailbox r.mb).results.find? (fun e => e.token == r.w 32) = none :=
        List.find?_eq_none.mpr fun e he => by simpa using hno e he
      rw [hnone]
      rfl
    · rw [he]
      rfl
    · exact (if_neg (Nat.not_lt.mpr hn)).trans (if_neg (Nat.not_le.mpr ho))
  · intro r q
    refine ⟨fun hs hn => served_answers hs (if_neg hn), fun hs hn => served_answers hs (if_pos hn),
      fun hs hn => served_answers hs (if_neg hn), fun b hs hb => ⟨fun hfull => served_answers hs ?_, fun hroom ho => served_answers hs ?_⟩,
      fun hs hb => served_answers hs ?_, fun hs hz => served_answers hs ?_,
      fun hs ho => served_answers hs (if_neg (Nat.not_le.mpr ho)), fun hs => served_answers hs rfl⟩
    · dsimp only
      rw [hb]
      exact if_pos (any_writeList_none.mpr hfull)
    · dsimp only
      rw [hb]
      refine (if_neg fun hfull => ?_).trans (if_neg (Nat.not_le.mpr ho))
      obtain ⟨k, hk, hnone⟩ := any_writeList_none.mp hfull
      have := hroom k hk
      rw [hnone] at this
      cases this
    · dsimp only
      rw [hb]
      rfl
    · dsimp only
      rw [hz]
      rfl

end Sys2Proof.Machine
end

section
/-!
PROOF. The commands on indexes, filters, embedding tables, kernels, NBU programs and networks (chapters 04, 07, 09 and 11).
-/
namespace Sys2Proof.Machine
open Sys2Proof.Claims

/-! ## Commands that need MANAGEMENT not short, and commands that go on -/

section
variable {s : State} {core op : Nat} {x : Running} {g : State → Request → Gate} {k : State → Request → Bool → State × CmdEnd}

theorem unshort_ample {ps : List Nat} (h : Ample s ps) (late : Bool) (r : State × CmdEnd) : s.unshort late ps r = r := by
  refine if_neg ?_
  rw [Bool.and_eq_true, not_and]
  intro _ hany
  obtain ⟨p, hp, hshort⟩ := List.any_eq_true.mp hany
  obtain ⟨hmem, hopen⟩ := List.mem_filter.mp hp
  have hok := h p (List.mem_eraseDups.mp hmem) (by simpa using hopen)
  rw [hok] at hshort
  cases hshort

/-- The row of a command that waits for its position to be reached. -/
theorem served_more (h : Served s core op x (g s x.req)) {t : State} {pos tally : Nat} (hk : k s x.req false = (t, .more pos tally)) :
    (Host.Outcome.next (s.cmd core op g k) : Host.Outcome State Fault Refusal) =
      .next (t.goesOn core { x with begun := true, pos := pos, tally := tally }) :=
  congrArg Host.Outcome.next (cmd_more h hk)

/-- A command that has begun, and now ends. -/
theorem begun_answers (hrun : s.coel.running.get? core = some x) (hop : x.req.opcode = op) (hs : s.serves = true)
    (hlate : x.late = false) (hbegun : x.begun = true) (hg : s.gate x.req true (g s x.req) = none) {t : State} {a : Answer}
    (hk : k s x.req true = (t, .done a)) :
    (Host.Outcome.next (s.cmd core op g k) : Host.Outcome State Fault Refusal) = .next (answers t core x a) := by
  have hgated : s.gated x.req (x.late || x.begun) (g s x.req) (k s x.req (x.late || x.begun)) = (t, .done a) := by
    rw [hbegun, Bool.or_true, State.gated, hg, hk]
  refine congrArg Host.Outcome.next ?_
  unfold State.cmd State.command
  rw [hrun]
  dsimp only
  rw [if_neg (by simp [hop, hs]), hgated]
  simp only [answers, State.finish, hlate, Bool.false_eq_true, if_false]

end

/-! ## What an index load leaves (R283) -/

/-- The tables that name the loads. -/
def Pipe.loads (p : Pipe) : Tbl Nat × Nat × Tbl IdxCopy := (p.handles, p.nextLoad, p.idx)

theorem loads_foldl {α : Type} {f : Pipe → α → Pipe} (h : ∀ p x, (f p x).loads = p.loads) (l : List α) (p : Pipe) :
    (l.foldl f p).loads = p.loads := by
  induction l generalizing p with
  | nil => rfl
  | cons x l ih => exact (ih _).trans (h p x)

section
variable (p : Pipe)

theorem loads_countIas (a n : Nat) : (p.countIas a n).loads = p.loads :=
  loads_foldl (fun p x => by split <;> rfl) _ p

theorem loads_setTier (pg : PageId) (e : TierEnt) : (p.setTier pg e).loads = p.loads := by
  cases pg with
  | gen n =>
    simp only [Pipe.setTier, Pipe.showTier]
    split <;> rfl
  | bank k pc f => rfl

theorem loads_pinPages (rs : List (Nat × Nat)) : (p.pinPages rs).loads = p.loads := by
  refine loads_foldl (fun p pg => ?_) _ p
  cases pg with
  | gen n =>
    dsimp only
    split
    · rfl
    · exact loads_setTier _ _ _
  | bank k pc f => rfl

theorem loads_unmapPiece (r : PieceRef) : (p.unmapPiece r).loads = p.loads := rfl
theorem loads_mapPiece (l : Nat) (r : PieceRef) : (p.mapPiece l r).loads = p.loads := rfl

theorem loads_count (k act res n : Nat) : (p.count k act res n).loads = p.loads := rfl

theorem loads_dropLoad (l : Nat) : (p.dropLoad l).loads = (p.handles, p.nextLoad, p.idx.erase l) := by
  refine loads_foldl (fun p' k => ?_) (List.range 16) { p with idx := p.idx.erase l }
  exact loads_foldl (fun p' _ => loads_unmapPiece p' _) _ p'

end

theorem Tbl.get?_erase_ne {α : Type} {t : Tbl α} {n l : Nat} {x : α} (h : t.get? n = some x) (hne : n ≠ l) :
    (t.erase l).get? n = some x := by
  induction t with
  | nil => exact h
  | cons y t ih =>
    unfold Tbl.get? at h
    unfold Tbl.erase
    split at h
    · rename_i heq
      rw [if_neg (fun hl => hne (heq.trans hl.symm))]
      exact (if_pos heq).trans h
    · rename_i heq
      split at h
      · cases h
      · rename_i hlt
        by_cases hl : l = y.1
        · rw [if_pos hl]
          exact h
        · rw [if_neg hl]
          exact (if_neg heq).trans ((if_neg hlt).trans (ih h))

theorem Tbl.mem_vals_set {α : Type} (t : Tbl α) (n : Nat) (x : α) : x ∈ (t.set n x).vals :=
  List.mem_map.mpr ⟨(n, x), Tbl.mem_of_get? (get?_set_same t n x), rfl⟩

/-- Loads that nothing uses are dropped; one that a handle names stays. -/
theorem dropLoads_idx (ls : List Nat) (p : Pipe) {n : Nat} {x : IdxCopy} (hx : p.idx.get? n = some x) (hn : n ∉ ls) :
    (ls.foldl Pipe.dropLoad p).handles = p.handles ∧ (ls.foldl Pipe.dropLoad p).nextLoad = p.nextLoad ∧
      (ls.foldl Pipe.dropLoad p).idx.get? n = some x := by
  induction ls generalizing p with
  | nil => exact ⟨rfl, rfl, hx⟩
  | cons l ls ih =>
    rw [List.mem_cons, not_or] at hn
    have hdrop := loads_dropLoad p l
    rw [List.foldl_cons]
    generalize p.dropLoad l = d at hdrop ⊢
    have hhandles : d.handles = p.handles := congrArg Prod.fst hdrop
    have hnext : d.nextLoad = p.nextLoad := congrArg (fun y => y.2.1) hdrop
    have hidx : d.idx = p.idx.erase l := congrArg (fun y => y.2.2) hdrop
    obtain ⟨h1, h2, h3⟩ := ih d (by rw [hidx]; exact Tbl.get?_erase_ne hx hn.1) hn.2
    exact ⟨h1.trans hhandles, h2.trans hnext, h3⟩

theorem sweep_idx {p : Pipe} {n : Nat} {x : IdxCopy} (hx : p.idx.get? n = some x) (hn : n ∈ p.handles.vals) :
    p.sweep.handles = p.handles ∧ p.sweep.nextLoad = p.nextLoad ∧ p.sweep.idx.get? n = some x := by
  have hkeep : ∀ used : List Nat, n ∈ used → n ∉ p.idx.keys.filter (fun l => !used.contains l) := fun used hused hmem => by
    have hunused := (List.mem_filter.mp hmem).2
    rw [List.contains_iff_mem.mpr hused] at hunused
    cases hunused
  have hnot := hkeep (p.handles.vals ++ p.jobs.vals.filterMap (·.idx) ++ p.parts.flatMap (fun q => q.comps.map (·.idx)))
    (List.mem_append_left _ (List.mem_append_left _ hn))
  unfold Pipe.sweep
  dsimp only
  generalize p.idx.keys.filter _ = ls at hnot ⊢
  exact dropLoads_idx ls _ hx hnot

/-- A new copy in its place, with its handle (R283). -/
def Pipe.placed (p : Pipe) (x : IdxCopy) : Pipe :=
  { p with
    nextLoad := p.nextLoad + 1, handles := p.handles.set x.handle p.nextLoad, idx := p.idx.set p.nextLoad x,
    parts := p.parts.map (fun (q : Part) => { q with sched := { q.sched with ests := q.sched.ests.erase x.handle } }) }

theorem learnNodes_placed (p : Pipe) (x : IdxCopy) : ∃ ns, ((p.placed x).learnNodes p.nextLoad).loads =
    (p.handles.set x.handle p.nextLoad, p.nextLoad + 1, (p.idx.set p.nextLoad x).set p.nextLoad { x with nodes := ns }) := by
  have hget : (p.placed x).idx.get? p.nextLoad = some x := get?_set_same _ _ _
  unfold Pipe.learnNodes
  rw [hget]
  exact ⟨_, rfl⟩

theorem installIdx_loads (p : Pipe) (x : IdxCopy) : (p.installIdx x).handles = p.handles.set x.handle p.nextLoad ∧
    (p.installIdx x).nextLoad = p.nextLoad + 1 ∧
    ∃ ns, (p.installIdx x).idx.get? p.nextLoad = some { x with nodes := ns } := by
  have hmap : ∀ (l : List PieceRef) (q : Pipe), (l.foldl (fun (p' : Pipe) r => p'.mapPiece p.nextLoad r) q).loads = q.loads :=
    fun l q => loads_foldl (fun p' r => loads_mapPiece p' _ r) l q
  obtain ⟨ns, hns⟩ := learnNodes_placed p x
  have hdef : p.installIdx x = (((((p.placed x).learnNodes p.nextLoad).allPieces x).filter (fun r =>
    !((p.placed x).learnNodes p.nextLoad).fenced r.1)).foldl (fun (p' : Pipe) r => p'.mapPiece p.nextLoad r)
      ((p.placed x).learnNodes p.nextLoad)).sweep := rfl
  have hloads := (hmap ((((p.placed x).learnNodes p.nextLoad).allPieces x).filter (fun r =>
    !((p.placed x).learnNodes p.nextLoad).fenced r.1)) ((p.placed x).learnNodes p.nextLoad)).trans hns
  rw [hdef]
  generalize ((((p.placed x).learnNodes p.nextLoad).allPieces x).filter (fun r =>
    !((p.placed x).learnNodes p.nextLoad).fenced r.1)).foldl (fun (p' : Pipe) r => p'.mapPiece p.nextLoad r)
      ((p.placed x).learnNodes p.nextLoad) = q at hloads
  have hhandles : q.handles = p.handles.set x.handle p.nextLoad := congrArg Prod.fst hloads
  have hnext : q.nextLoad = p.nextLoad + 1 := congrArg (fun y => y.2.1) hloads
  have hidx : q.idx.get? p.nextLoad = some { x with nodes := ns } :=
    (congrArg (fun y => y.2.2.get? p.nextLoad) hloads).trans (get?_set_same _ _ _)
  obtain ⟨h1, h2, h3⟩ := sweep_idx hidx (by rw [hhandles]; exact Tbl.mem_vals_set _ _ _)
  exact ⟨h1.trans hhandles, h2.trans hnext, ns, h3⟩

/-- What an index load counts and pins before the copy is in its place. -/
def Pipe.loadCounted (p : Pipe) (addr : Nat) (rs : List (Nat × Nat)) : Pipe :=
  (((List.range 16).filter (fun k => !p.fenced k)).foldl (fun (p' : Pipe) k =>
    p'.count k 8 2 ((p.idxSource addr).rows.2 + (p.idxSource addr).norms.2))
    (rs.foldl (fun (p : Pipe) r => p.countIas r.1 r.2) p)).pinPages rs

theorem loadCounted_loads (p : Pipe) (addr : Nat) (rs : List (Nat × Nat)) : (p.loadCounted addr rs).loads = p.loads :=
  (loads_pinPages _ rs).trans ((loads_foldl (fun p' k => loads_count p' k 8 2 _) _ _).trans
    (loads_foldl (fun p' r => loads_countIas p' r.1 r.2) rs p))

theorem loadIdx_eq (p : Pipe) (handle addr : Nat) (rs : List (Nat × Nat)) :
    p.loadIdx handle addr rs = (p.loadCounted addr rs).installIdx (p.idxCopy handle addr) := rfl

/-- The handle names the new copy of the index (R283). -/
theorem loadIdx_loads (p : Pipe) (handle addr : Nat) (rs : List (Nat × Nat)) :
    let t := p.loadIdx handle addr rs
    let y := p.idxCopy handle addr
    t.handles = p.handles.set handle p.nextLoad ∧ t.nextLoad = p.nextLoad + 1 ∧
      ∃ i, t.index handle = some i ∧ i.desc = y.desc ∧ i.drp = y.drp ∧ i.book = y.book ∧ i.rows = y.rows ∧ i.norms = y.norms := by
  intro t y
  have ht : t = (p.loadCounted addr rs).installIdx y := loadIdx_eq p handle addr rs
  have hbefore := loadCounted_loads p addr rs
  generalize p.loadCounted addr rs = q at ht hbefore
  have hhandles : q.handles = p.handles := congrArg Prod.fst hbefore
  have hnext : q.nextLoad = p.nextLoad := congrArg (fun z => z.2.1) hbefore
  obtain ⟨h1, h2, ns, h3⟩ := installIdx_loads q y
  rw [hhandles, hnext] at h1
  rw [hnext] at h2 h3
  rw [ht]
  refine ⟨h1, h2, { y with nodes := ns }, ?_, rfl, rfl, rfl, rfl, rfl⟩
  unfold Pipe.index
  rw [h1, show y.handle = handle from rfl, get?_set_same]
  dsimp only
  rw [h3]
  rfl

end Sys2Proof.Machine
end

section
/-!
PROOF. The rows of the commands on indexes, filters, embedding tables, kernels, NBU programs and networks.
-/
namespace Sys2Proof.Machine
open Sys2Proof.Claims

/-! ## Tests of these commands -/

theorem not_bnot_of_true {b : Bool} (h : b = true) : ¬ (!b) = true := by rw [h]; exact Bool.false_ne_true

theorem not_true_of_false {b : Bool} (h : b = false) : ¬ b = true := by rw [h]; exact Bool.false_ne_true

section
variable {s : State} {c : Nat} {x : Running}

theorem progress_running (h : s.coel.running.get? c = some x) : s.progress c = (x.pos, x.tally) := by
  unfold State.progress
  rw [h]

theorem exec_idxLoad (h : HostData) (hs : Served s c 0x0401 x (gateObj s x.req)) (hn : x.req.h 32 ≤ 0xFF)
    (ha : Ample s s.unfencedList) (h1 : s.pipe.rangesOpen (s.pipe.coarseRanges (x.req.d 40)) = true)
    (h2 : s.pipe.rangesOpen [(s.pipe.idxCopy (x.req.h 32) (x.req.d 40)).listRange] = true)
    (h3 : s.pipe.rangesOpen (s.pipe.tabRanges (s.pipe.idxCopy (x.req.h 32) (x.req.d 40))) = true) : exec (.idxLoad c h) s =
    .next (answers (withPipe s (s.pipe.loadIdx (x.req.h 32) (x.req.d 40) (s.pipe.coarseRanges (x.req.d 40)))) c x (Answer.ok [])) :=
  served_answers hs ((if_neg (Nat.not_lt.mpr hn)).trans ((unshort_ample ha _ _).trans ((if_neg (not_bnot_of_true h1)).trans
    ((if_neg (not_bnot_of_true h2)).trans (if_neg (not_bnot_of_true h3))))))

theorem exec_idxCompact (h : HostData) (hs : Served s c 0x0404 x (gateP true s x.req)) {i : IdxCopy}
    (hi : s.pipe.index (x.req.h 32) = some i) (h1 : s.pipe.rangesOpen [i.listRange] = true)
    (h2 : s.pipe.rangesOpen (s.pipe.tabRanges i) = true) :
    let mine := fun (k : Nat) => (s.pipe.compactTargets i k (x.req.w 36)).map (fun t => (x.req.h 32, t))
    exec (.idxCompact c h) s = .next (answers (withPipe s (x.req.targets.foldl (fun p k => p.modPart k (fun q =>
      { q with compQueue := q.compQueue ++ (mine k).filter (fun t => !q.compQueue.contains t) })) s.pipe)) c x
      (Answer.ok (leBytes 4 ((x.req.targets.map (fun k => (mine k).length)).foldl (· + ·) 0)))) := by
  intro mine
  refine served_answers hs ?_
  rw [hi]
  exact (if_neg (not_bnot_of_true h1)).trans (if_neg (not_bnot_of_true h2))

theorem exec_etabLoad (h : HostData) (hs : Served s c 0x040A x (gateObj s x.req)) (hn : x.req.h 32 ≤ 63)
    (ha : Ample s s.unfencedList) (h1 : s.pipe.rangesOpen [(x.req.d 40, 64)] = true) :
    let p := s.pipe
    let b := p.iasRead (x.req.d 40) 64
    let rt := (le64 b 32, 16 * min (field b 192 7) 64)
    p.rangesOpen [rt] = true →
    let p1 := (p.countIas (x.req.d 40) 64).countIas rt.1 rt.2
    let p2 := { p1 with
      nextLoad := p1.nextLoad + 1, etabHandles := p1.etabHandles.set (x.req.h 32) p1.nextLoad,
      etabs := p1.etabs.set p1.nextLoad (decodeETab (x.req.h 32) b (p1.iasRead rt.1 rt.2)) }
    exec (.etabLoad c h) s = .next (answers
      (withPipe s (s.unfencedList.foldl (fun p k => p.count k 8 2 (64 + rt.2)) p2).sweep) c x (Answer.ok [])) := by
  intro p b rt h2
  exact served_answers hs ((if_neg (Nat.not_lt.mpr hn)).trans ((unshort_ample ha _ _).trans ((if_neg (not_bnot_of_true h1)).trans
    (if_neg (not_bnot_of_true h2)))))

/-! ## FLT_EDIT -/

theorem exec_fltEdit_notFound (h : HostData) (hs : Served s c 0x0409 x (gateObj s x.req)) (hpos : x.pos = 0)
    (hn : s.pipe.index (x.req.h 32) = none ∨ 4095 < x.req.h 34) :
    exec (.fltEdit c h) s = .next (answers s c x (Answer.of stNOTFOUND)) := by
  refine served_answers hs ((if_neg (by rw [progress_running hs.1, hpos]; exact Nat.zero_ne_one)).trans ?_)
  cases hi : s.pipe.index (x.req.h 32) with
  | none => rfl
  | some i => exact if_pos (hn.resolve_left (by rw [hi]; exact Option.some_ne_none i))

theorem exec_fltEdit_issues (h : HostData) (hs : Served s c 0x0409 x (gateObj s x.req)) (hpos : x.pos = 0) {i : IdxCopy}
    (hi : s.pipe.index (x.req.h 32) = some i) (hf : x.req.h 34 ≤ 4095) (ha : Ample s s.unfencedList) {b : List Byte}
    (hb : x.req.buffer h (8 * min (x.req.w 40) 65536) = some b) :
    let p := s.pipe
    let ids := (List.range (min (x.req.w 40) 65536)).map (fun n => le64 b (8 * n))
    let dirs := (ids.filter (fun n => !p.sliceFenced i n)).flatMap i.dirRanges
    let plan := p.editPlan i ids
    p.rangesOpen dirs = true →
    p.pagesHere (plan.2.flatMap (fun g => p.pieceSpan g.1.1 g.1.2.1 g.1.2.2)).eraseDups = true →
    (∀ g ∈ plan.2, p.compacting g.1 = false) →
    exec (.fltEdit c h) s = .next ((withPipe s ((dirs.foldl (fun p a => p.countIas a.1 a.2) p).issueEdits (2 ^ 32 + x.req.seq)
      (x.req.h 34) (fbit x.req.slot 288) plan.2)).goesOn c { x with begun := true, pos := 1, tally := plan.1 }) := by
  intro p ids dirs plan h1 h2 h3
  refine served_more hs ((if_neg (by rw [progress_running hs.1, hpos]; exact Nat.zero_ne_one)).trans ?_)
  rw [hi]
  dsimp only
  rw [if_neg (Nat.not_lt.mpr hf), unshort_ample ha, hb]
  refine (if_neg (not_bnot_of_true h1)).trans ((if_neg (not_bnot_of_true h2)).trans (if_neg fun hany => ?_))
  obtain ⟨g, hg, hc⟩ := List.any_eq_true.mp hany
  rw [h3 g hg] at hc
  cases hc

theorem exec_fltEdit_ends (h : HostData) (hrun : s.coel.running.get? c = some x) (hop : x.req.opcode = 0x0409)
    (hs : s.serves = true) (hlate : x.late = false) (hbegun : x.begun = true) (hg : s.gate x.req true (gateObj s x.req) = none)
    (hpos : x.pos = 1) (hfly : s.pipe.inFlight (2 ^ 32 + x.req.seq) = false) :
    let n := min (x.req.w 40) 65536
    let mine := fun (e : Nat × Nat × Bool) => e.1 == x.req.seq
    let made := ((s.pipe.edits.filter (fun e => mine e && e.2.2)).map (fun e => e.2.1)).foldl (· + ·) 0
    exec (.fltEdit c h) s = .next (answers (withPipe s { s.pipe with edits := s.pipe.edits.filter (fun e => !mine e) }) c x
      (Answer.ok (leBytes 4 made ++ leBytes 4 x.tally ++ leBytes 4 (n - made - x.tally)))) := by
  intro n mine made
  refine begun_answers hrun hop hs hlate hbegun hg ?_
  dsimp only
  rw [progress_running hrun, if_pos hpos, if_neg (not_true_of_false hfly)]
  rfl

end

/-- Settles O46: each command by the tests before its effect. -/
theorem indexAndProgramCommands : Obligations.IndexAndProgramCommands := by
  refine ⟨fun s c h x => ?_, fun s c h x ha => ?_⟩
  · intro r p ok no rs y
    refine ⟨fun hs hn => served_answers hs (if_pos hn),
      fun hs hn ha h1 h2 h3 => ⟨exec_idxLoad h hs hn ha h1 h2 h3, loadIdx_loads p (r.h 32) (r.d 40) rs⟩,
      fun hs hn => served_answers hs (if_pos (by rw [hn]; rfl)),
      fun hs hn => served_answers hs (if_neg (not_bnot_of_true hn)), fun hs hn => served_answers hs (if_neg (not_bnot_of_true hn)),
      fun hs hi => served_answers hs ?_, fun i hs hi h1 h2 => exec_idxCompact h hs hi h1 h2, fun hs => served_answers hs rfl,
      fun hs => served_answers hs rfl, fun f on hf hle => ?_, fun hn => ⟨fun hs => served_answers hs (if_pos hn),
        fun hs => served_answers hs (if_pos hn)⟩, fun hs hpos hn => exec_fltEdit_notFound h hs hpos hn,
      fun i b hs hpos hi hf ha hb => ?_, fun hrun hop hs hlate hbegun hg hpos hfly =>
        exec_fltEdit_ends h hrun hop hs hlate hbegun hg hpos hfly,
      fun hs hn => served_answers hs (if_pos hn), fun hs hn ha h1 => exec_etabLoad h hs hn ha h1, fun hs => served_answers hs rfl,
      fun hs hn => served_answers hs (if_pos (by rw [hn]; rfl))⟩
    · rw [hi]
      rfl
    · intro set t
      refine ⟨fun hs hon => served_answers hs ?_, fun hs hon => served_answers hs ?_⟩
      · subst hf hon
        exact if_neg (Nat.not_lt.mpr hle)
      · subst hf hon
        exact if_neg (Nat.not_lt.mpr hle)
    · intro ids dirs plan h1 h2 h3
      exact exec_fltEdit_issues h hs hpos hi hf ha hb h1 h2 h3
  · intro r p ok
    have hslot : ∀ {n : Nat}, 1 ≤ n → n ≤ 15 → ¬ (decide (n = 0) || decide (n > 15)) = true := fun h1 h15 => by
      simp only [Bool.or_eq_true, decide_eq_true_eq]
      omega
    refine ⟨fun b hs h1 h15 hb => ?_, fun hs h1 h15 hb => served_answers hs ((if_neg (hslot h1 h15)).trans
        ((unshort_ample ha _ _).trans ?_)), fun hs hn => served_answers hs (if_pos (by simpa using hn)),
      fun b hs hb => served_answers hs ((unshort_ample ha _ _).trans ?_), fun hs hb => served_answers hs ((unshort_ample ha _ _).trans ?_),
      fun hs hb => served_answers hs ((unshort_ample ha _ _).trans ?_), fun b hs hb =>
      ⟨fun hl => served_answers hs ((unshort_ample ha _ _).trans ?_), fun hl => served_answers hs ((unshort_ample ha _ _).trans ?_)⟩⟩
    · intro held
      refine ⟨fun hl => served_answers hs ((if_neg (hslot h1 h15)).trans ((unshort_ample ha _ _).trans ?_)),
        fun hl => served_answers hs ((if_neg (hslot h1 h15)).trans ((unshort_ample ha _ _).trans ?_))⟩
      · rw [hb]
        dsimp only
        rw [if_neg (show ¬ x.req.hlen = 0 from hl)]
        rfl
      · rw [hb]
        dsimp only
        rw [if_pos (show x.req.hlen = 0 from hl)]
        rfl
    · rw [hb]
      rfl
    · rw [show x.req.buffer h (64 + 4096) = some b from hb]
      rfl
    · rw [show x.req.buffer h (64 + 4096) = none from hb]
      rfl
    · rw [hb]
      rfl
    · rw [hb]
      dsimp only
      rw [if_neg (show ¬ x.req.hlen = 0 from hl)]
      rfl
    · rw [hb]
      dsimp only
      rw [if_pos (show x.req.hlen = 0 from hl)]
      rfl

end Sys2Proof.Machine
end

section
/-!
PROOF. The rows of the commands on the index address space, its tiers and the flash: what each loop over pages does when no page
keeps it waiting.
-/
namespace Sys2Proof.Machine
open Sys2Proof.Claims

/-! ## What the operations on one page leave unchanged -/

/-- Another pipeline names the same pages, holds the same tables and has the same requests at its NBUs. -/
structure Pipe.SameTables (p q : Pipe) : Prop where
  variant : q.variant64 = p.variant64
  tables : q.tables = p.tables
  unissued : q.unissued = p.unissued
  nbu : ∀ k pc, q.nbu k pc = p.nbu k pc

namespace Pipe.SameTables
variable {p q r : Pipe}

theorem refl (p : Pipe) : p.SameTables p := ⟨rfl, rfl, rfl, fun _ _ => rfl⟩

theorem trans (h : p.SameTables q) (h' : q.SameTables r) : p.SameTables r :=
  ⟨h'.variant.trans h.variant, h'.tables.trans h.tables, h'.unissued.trans h.unissued, fun k pc => (h'.nbu k pc).trans (h.nbu k pc)⟩

theorem setTier (p : Pipe) (pg : PageId) (e : TierEnt) : p.SameTables (p.setTier pg e) := by
  cases pg with
  | gen n =>
    simp only [Pipe.setTier, Pipe.showTier]
    split <;> exact ⟨rfl, rfl, rfl, fun _ _ => rfl⟩
  | bank k pc f => exact ⟨rfl, rfl, rfl, fun _ _ => rfl⟩

theorem modFlash (p : Pipe) (k : Nat) (g : FlashPart → FlashPart) : p.SameTables (p.modFlash k g) := by
  refine ⟨rfl, rfl, rfl, fun j pc => ?_⟩
  unfold Pipe.modFlash Pipe.modPart Pipe.nbu Pipe.part
  rw [getElem?_modNth]
  split
  · cases p.parts[j]? <;> rfl
  · rfl

theorem journal (p : Pipe) (k : Nat) (kind : JKind) (recs : List JRec) : p.SameTables (p.journal k kind recs) := by
  have h := modFlash p k (fun f => { f with
    journal := f.journal ++ [{ jseq := f.jseq, kind := kind, pub := (p.part k).pub, oldest := p.oldestNow, recs := recs }],
    jseq := f.jseq + 1 })
  exact ⟨h.variant, h.tables, h.unissued, h.nbu⟩

theorem retireEmpty (p : Pipe) (k e : Nat) : p.SameTables (p.retireEmpty k e) := by
  unfold Pipe.retireEmpty
  dsimp only
  split
  · exact (modFlash p k _).trans (journal _ _ _ _)
  · exact refl p

theorem liveDrop (p : Pipe) (k e n : Nat) : p.SameTables (p.liveDrop k e n) := (modFlash p k _).trans (retireEmpty _ _ _)

theorem plateSlots (p : Pipe) (l : List (Option Nat)) : p.SameTables { p with plateSlots := l } := ⟨rfl, rfl, rfl, fun _ _ => rfl⟩

theorem fillSlot (p : Pipe) (i : Nat) (e : TierEnt) : p.SameTables (p.fillSlot i e) := ⟨rfl, rfl, rfl, fun _ _ => rfl⟩

theorem clearPlate (p : Pipe) (n : Nat) : p.SameTables (p.clearPlate n) := by
  unfold Pipe.clearPlate
  exact (plateSlots p _).trans (setTier _ _ _)

theorem setPlate {n : Nat} (h : p.setPlate n = some q) : p.SameTables q := by
  unfold Pipe.setPlate at h
  dsimp only at h
  split at h
  · cases h
  · cases h
    exact (plateSlots p _).trans ((setTier _ _ _).trans (fillSlot _ _ _))

theorem allocPage (p : Pipe) (pg : PageId) (home attr : Nat) : p.SameTables (p.allocPage pg home attr).1 := by
  cases pg with
  | bank k pc f => exact setTier p (.bank k pc f) _
  | gen n =>
    unfold Pipe.allocPage
    dsimp only
    split
    · split
      · rename_i p2 hp
        exact (setTier p (.gen n) _).trans (setPlate hp)
      · exact setTier p (.gen n) _
    · exact setTier p (.gen n) _

theorem freePage (p : Pipe) (pg : PageId) : p.SameTables (p.freePage pg) := by
  unfold Pipe.freePage
  extract_lets e p1 forget p2 p3
  have h1 : p.SameTables p1 := by
    subst p1
    split
    · split
      · exact clearPlate _ _
      · exact refl p
    · exact refl p
  have h3 : p2.SameTables p3 := by
    subst p3
    split
    · exact liveDrop _ _ _ _
    · exact refl _
  exact h1.trans ((modFlash _ _ _).trans (h3.trans (setTier _ _ _)))

theorem untouched (h : p.SameTables q) {pg : PageId} (hp : untouched p pg) : untouched q pg := by
  cases pg with
  | gen n => trivial
  | bank k pc f =>
    obtain ⟨hq, hr, hu⟩ := hp
    exact ⟨(h.nbu k pc).symm ▸ hq, (h.nbu k pc).symm ▸ hr, h.unissued.symm ▸ hu⟩

theorem pageIn (h : p.SameTables q) (a : Nat) : q.pageIn a = p.pageIn a := by
  unfold Pipe.pageIn
  rw [h.variant]

end Pipe.SameTables

/-! ## The pages of a range -/

/-- The pages of a range that have a tier entry, from page pos on. -/
def pagesFrom (p : Pipe) (base pos n : Nat) : List PageId := (List.range' pos n).filterMap (fun i => p.pageIn (pageStep base i))

theorem pagesNamed_eq (p : Pipe) (x : Nat × Nat) : pagesNamed p x = pagesFrom p x.1 0 x.2 := by
  rw [pagesNamed, pagesFrom, List.range_eq_range']

theorem pagesFrom_none {p : Pipe} {base pos n : Nat} (h : p.pageIn (pageStep base pos) = none) :
    pagesFrom p base pos (n + 1) = pagesFrom p base (pos + 1) n := by
  rw [pagesFrom, List.range'_succ, List.filterMap_cons_none (f := fun i => p.pageIn (pageStep base i)) h, pagesFrom]

theorem pagesFrom_some {p : Pipe} {base pos n : Nat} {pg : PageId} (h : p.pageIn (pageStep base pos) = some pg) :
    pagesFrom p base pos (n + 1) = pg :: pagesFrom p base (pos + 1) n := by
  rw [pagesFrom, List.range'_succ, List.filterMap_cons_some (f := fun i => p.pageIn (pageStep base i)) h, pagesFrom]

theorem Pipe.SameTables.pagesFrom {p q : Pipe} (h : p.SameTables q) (base pos n : Nat) :
    pagesFrom q base pos n = pagesFrom p base pos n := by
  unfold Machine.pagesFrom
  exact congrArg (fun f => List.filterMap f _) (funext fun i => h.pageIn _)

theorem Pipe.SameTables.pagesIn {p q : Pipe} (h : p.SameTables q) (x : Nat × Nat) : q.pagesIn x.1 x.2 = (pagesNamed p x).length := by
  rw [Pipe.pagesIn, pagesNamed, List.length_filterMap_eq_countP, List.countP_eq_length_filter]
  exact congrArg (fun f => (List.filter f _).length) (funext fun i => by rw [h.pageIn])

/-! ## IAS_ALLOC -/

/-- What IAS_ALLOC makes sure of before it maps a page. -/
def Pipe.makeRoom (p : Pipe) (home : Nat) : PageId → Pipe × PageEnd
  | .gen g => p.needTable (g / 65536) home 16
  | .bank k pc f => (match p.vacate k pc f with
    | (p1, .got _ _) => (p1, .done)
    | (p1, .wait) => (p1, .wait)
    | (p1, .fail) => (p1.exhausted k, .noSpace))

theorem allocLoop_none {p : Pipe} {base home attr n : Nat} {x : AllocAt} (h : p.pageIn (pageStep base x.pos) = none) :
    p.allocLoop base home attr (n + 1) x = p.allocLoop base home attr n { x with pos := x.pos + 1 } := by
  rw [Pipe.allocLoop, h]

theorem allocLoop_mapped {p : Pipe} {base home attr n : Nat} {x : AllocAt} {pg : PageId} (h : p.pageIn (pageStep base x.pos) = some pg)
    (hm : (p.tier pg).st ≠ .unmapped) :
    p.allocLoop base home attr (n + 1) x = p.allocLoop base home attr n { x with pos := x.pos + 1 } := by
  rw [Pipe.allocLoop, h]
  exact if_pos hm

theorem allocLoop_maps {p : Pipe} {base home attr n : Nat} {x : AllocAt} {pg : PageId} (h : p.pageIn (pageStep base x.pos) = some pg)
    (hm : (p.tier pg).st = .unmapped) (hr : p.makeRoom home pg = (p, .done)) :
    p.allocLoop base home attr (n + 1) x = (p.allocPage pg home attr).1.allocLoop base home attr n
      { pos := x.pos + 1, new := x.new + 1, full := x.full || (p.allocPage pg home attr).2 } := by
  rw [Pipe.allocLoop, h]
  refine (if_neg (not_not_intro hm)).trans ?_
  cases pg with
  | gen g =>
    dsimp only
    rw [show p.needTable (g / 65536) home 16 = _ from hr]
  | bank k pc f =>
    dsimp only
    generalize hv : p.vacate k pc f = v at hr ⊢
    unfold Pipe.makeRoom at hr
    dsimp only at hr
    rw [hv] at hr
    obtain ⟨p1, _ | _ | _⟩ := v
    · cases hr; rfl
    · cases hr
    · cases hr

theorem makeRoom_of_mayMap {p : Pipe} {home : Nat} {pg : PageId} (h : mayMap p home pg) : p.makeRoom home pg = (p, .done) := by
  cases pg with
  | gen g => exact if_pos h
  | bank k pc f =>
    obtain ⟨hf, ht, hh⟩ := h
    have hv : p.vacate k pc f = (p, .got pc f) := by
      refine (if_neg ?_).trans ?_
      · simp only [Bool.or_eq_true, decide_eq_true_eq, List.contains_iff_mem, not_or]
        exact ⟨Nat.not_le.mpr hf, ht⟩
      · rw [hh]
    unfold Pipe.makeRoom
    dsimp only
    rw [hv]

/-- Room for the pages of a list, which mapping one of them keeps: they are all GENERAL pages, or all bank pages. -/
theorem mayMap_allocPage {p : Pipe} {home attr : Nat} {pg pg' : PageId} (hk : (∃ g, pg = .gen g) ∧ (∃ g, pg' = .gen g) ∨
    (∃ k pc f, pg = .bank k pc f) ∧ ∃ k pc f, pg' = .bank k pc f) (h : mayMap p home pg') :
    mayMap (p.allocPage pg home attr).1 home pg' := by
  rcases hk with ⟨-, g, rfl⟩ | ⟨⟨k, pc, f, rfl⟩, k', pc', f', rfl⟩
  · unfold mayMap
    rw [(Pipe.SameTables.allocPage p pg home attr).tables]
    exact h
  · exact h

theorem allocLoop_eq_foldl {base home attr : Nat} : ∀ (n : Nat) (p : Pipe) (x : AllocAt),
    (∀ pg ∈ pagesFrom p base x.pos n, ∃ g, pg = .gen g) ∨ (∀ pg ∈ pagesFrom p base x.pos n, ∃ k pc f, pg = .bank k pc f) →
    (∀ pg ∈ pagesFrom p base x.pos n, mayMap p home pg) →
    let y := (pagesFrom p base x.pos n).foldl (allocEach home attr) (p, x.new, x.full)
    p.allocLoop base home attr n x = (y.1, .done, { pos := x.pos + n, new := y.2.1, full := y.2.2 }) ∧ p.SameTables y.1
  | 0, p, x, _, _ => ⟨rfl, .refl p⟩
  | n + 1, p, x, hk, hm => by
    rw [show x.pos + (n + 1) = x.pos + 1 + n by omega]
    cases hp : p.pageIn (pageStep base x.pos) with
    | none =>
      rw [pagesFrom_none hp] at hk hm ⊢
      rw [allocLoop_none hp]
      exact allocLoop_eq_foldl n p { x with pos := x.pos + 1 } hk hm
    | some pg =>
      rw [pagesFrom_some hp] at hk hm ⊢
      simp only [List.forall_mem_cons] at hk hm
      have hk' := hk.imp And.right And.right
      rw [List.foldl_cons]
      by_cases hu : (p.tier pg).st = .unmapped
      · have he : allocEach home attr (p, x.new, x.full) pg = ((p.allocPage pg home attr).1, x.new + 1, x.full || (p.allocPage pg home attr).2) :=
          if_pos hu
        have hs := Pipe.SameTables.allocPage p pg home attr
        rw [allocLoop_maps hp hu (makeRoom_of_mayMap hm.1), he]
        have ih := allocLoop_eq_foldl (base := base) (home := home) (attr := attr) n (p.allocPage pg home attr).1
          { pos := x.pos + 1, new := x.new + 1, full := x.full || (p.allocPage pg home attr).2 }
        rw [hs.pagesFrom] at ih
        obtain ⟨h1, h2⟩ := ih hk' fun pg' hg => mayMap_allocPage
          (hk.imp (fun h => ⟨h.1, h.2 pg' hg⟩) (fun h => ⟨h.1, h.2 pg' hg⟩)) (hm.2 pg' hg)
        exact ⟨h1, hs.trans h2⟩
      · have he : allocEach home attr (p, x.new, x.full) pg = (p, x.new, x.full) := if_neg hu
        rw [allocLoop_mapped hp hu, he]
        exact allocLoop_eq_foldl n p { x with pos := x.pos + 1 } hk' hm.2

/-! ## IAS_FREE -/

theorem heldPage_untouched {p : Pipe} {pg : PageId} (h : untouched p pg) : p.heldPage pg = false := by
  cases pg with
  | gen n => rfl
  | bank k pc f =>
    obtain ⟨hq, hr, hu⟩ := h
    unfold Pipe.heldPage
    dsimp only
    rw [hq, hr, List.filter_eq_nil_iff.mpr fun u hm => by simpa using hu u hm]
    rfl

theorem freeLoop_eq_foldl {base : Nat} : ∀ (n : Nat) (p : Pipe) (pos k : Nat), (∀ pg ∈ pagesFrom p base pos n, untouched p pg) →
    let y := (pagesFrom p base pos n).foldl freeEach (p, k)
    p.freeLoop base n pos k = (y.1, .done, pos + n, y.2)
  | 0, p, pos, k, _ => rfl
  | n + 1, p, pos, k, hm => by
    rw [show pos + (n + 1) = pos + 1 + n by omega]
    cases hp : p.pageIn (pageStep base pos) with
    | none =>
      rw [pagesFrom_none hp] at hm ⊢
      rw [Pipe.freeLoop, hp]
      exact freeLoop_eq_foldl n p (pos + 1) k hm
    | some pg =>
      rw [pagesFrom_some hp] at hm ⊢
      rw [List.forall_mem_cons] at hm
      rw [List.foldl_cons, Pipe.freeLoop, hp]
      by_cases hu : (p.tier pg).st = .unmapped
      · rw [show freeEach (p, k) pg = (p, k) from if_pos hu]
        exact (if_pos hu).trans (freeLoop_eq_foldl n p (pos + 1) k hm.2)
      · have hs := Pipe.SameTables.freePage p pg
        have ih := freeLoop_eq_foldl (base := base) n (p.freePage pg) (pos + 1) (k + 1)
        rw [hs.pagesFrom] at ih
        rw [show freeEach (p, k) pg = (p.freePage pg, k + 1) from if_neg hu]
        exact (if_neg hu).trans ((if_neg (not_true_of_false (heldPage_untouched hm.1))).trans (ih fun pg' hg => hs.untouched (hm.2 pg' hg)))

/-! ## IAS_ATTR -/

theorem attrPage_bank (p : Pipe) (k pc f clr set : Nat) : p.attrPage (.bank k pc f) clr set =
    (some (p.setTier (.bank k pc f) (marked (p.tier (.bank k pc f)) clr set)), p, false) := rfl

theorem attrPage_gen {p : Pipe} {g clr set : Nat} (h : attrPlate set = false) :
    let q := p.setTier (.gen g) (marked (p.tier (.gen g)) clr set)
    let q1 := if (p.tier (.gen g)).plate = true ∧ attrPlate clr = true then q.clearPlate g else q
    p.attrPage (.gen g) clr set = (some q1, q1, false) := by
  intro q q1
  have hq : q1 = if ((p.tier (.gen g)).plate && attrPlate clr) = true then q.clearPlate g else q := by
    simp only [q1, Bool.and_eq_true]
  rw [hq]
  exact if_pos (by rw [h]; rfl)

theorem attrPage_plain {p : Pipe} {pg : PageId} {clr set : Nat} (h : attrPlate set = false) :
    ∃ q r, p.attrPage pg clr set = (some q, r, false) ∧ p.SameTables q := by
  cases pg with
  | bank k pc f => exact ⟨_, _, attrPage_bank .., .setTier _ _ _⟩
  | gen g =>
    refine ⟨_, _, attrPage_gen h, ?_⟩
    split
    · exact (Pipe.SameTables.setTier _ _ _).trans (.clearPlate _ _)
    · exact .setTier _ _ _

theorem attrLoop_eq_foldl {base clr set : Nat} (h : attrPlate set = false) : ∀ (n : Nat) (p : Pipe) (pos : Nat),
    p.attrLoop base clr set n pos false = ((pagesFrom p base pos n).foldl (attrEach clr set) p, .done, pos + n, false)
  | 0, p, pos => rfl
  | n + 1, p, pos => by
    rw [show pos + (n + 1) = pos + 1 + n by omega]
    cases hp : p.pageIn (pageStep base pos) with
    | none =>
      rw [pagesFrom_none hp, Pipe.attrLoop, hp]
      exact attrLoop_eq_foldl h n p (pos + 1)
    | some pg =>
      rw [pagesFrom_some hp, List.foldl_cons, Pipe.attrLoop, hp]
      by_cases hu : (p.tier pg).st = .unmapped
      · rw [show attrEach clr set p pg = p from if_pos hu]
        exact (if_pos hu).trans (attrLoop_eq_foldl h n p (pos + 1))
      · obtain ⟨q, r, hq, hs⟩ := attrPage_plain (p := p) (pg := pg) (clr := clr) h
        rw [show attrEach clr set p pg = q from (if_neg hu).trans (by rw [hq]; rfl), ← hs.pagesFrom]
        refine (if_neg hu).trans ?_
        rw [hq]
        exact attrLoop_eq_foldl h n q (pos + 1)

end Sys2Proof.Machine
end

section
/-!
PROOF. The rows of the commands on the index address space, its tiers and the flash.
-/
namespace Sys2Proof.Machine
open Sys2Proof.Claims

/-! ## A range that lies in one page -/

theorem cutPages_one {k a : Nat} {b : List Byte} (hb : b ≠ []) (h : a % 65536 + b.length ≤ 65536) :
    cutPages (k + 2) a b = [(a, b)] := by
  obtain ⟨x, l, rfl⟩ := List.exists_cons_of_ne_nil hb
  have hle : (x :: l).length ≤ 65536 - a % 65536 := by omega
  rw [cutPages]
  · rw [List.take_of_length_le hle, List.drop_eq_nil_of_le hle]
    rfl
  · exact hb

theorem cutRange_one {k a n : Nat} (hn : 0 < n) (h : a % 65536 + n ≤ 65536) : cutRange (k + 2) a n = [(a, n)] := by
  rw [cutRange, if_neg (Nat.ne_of_gt hn)]
  dsimp only
  rw [Nat.min_eq_left (by omega), Nat.sub_self]
  rfl

theorem iaddr_general {v : Bool} {a g : Nat} (h : iaddr v a = .general g) : g % 65536 = a % 65536 := by
  unfold iaddr at h
  split at h
  · cases h
  · cases h
    simp only [bitsOf, Nat.shiftRight_zero]
    omega

/-! ## IAS_WRITE and IAS_READ in one page -/

section
variable {p q : Pipe} {a g who : Nat} {b : List Byte}

theorem iasWrite_page (hb : b ≠ []) (hg : iaddr p.variant64 a = .general g) (hlen : g % 65536 + b.length ≤ 65536)
    (hw : p.pageWrite who (.gen (g / 65536)) (g % 65536) b = (q, .done)) : p.iasWrite who a b = (q, .done, b.length) := by
  unfold Pipe.iasWrite
  rw [cutPages_one hb (iaddr_general hg ▸ hlen), Pipe.writeParts, hg]
  dsimp only
  rw [show pageAt p.variant64 a = (.gen (g / 65536), g % 65536) by rw [pageAt, hg]]
  dsimp only
  rw [hw]
  dsimp only
  rw [Pipe.writeParts, Nat.zero_add]

theorem writeDropped_general (hg : iaddr p.variant64 a = .general g) :
    p.writeDropped a = decide ((p.tier (.gen (g / 65536))).st = .unmapped) := by
  rw [Pipe.writeDropped, hg]

theorem cmdWrite_page (hb : b ≠ []) (hg : iaddr p.variant64 a = .general g) (hlen : g % 65536 + b.length ≤ 65536)
    (hw : p.pageWrite 0 (.gen (g / 65536)) (g % 65536) b = (q, .done)) :
    p.cmdWrite 0 (cutPages (b.length / 65536 + 2) a b) 0 0 =
      if (p.tier (.gen (g / 65536))).st = .unmapped then (q, .done, b.length, b.length)
      else (q.countIas a b.length, .done, b.length, 0) := by
  have hpos : b.length ≠ 0 := fun h => hb (List.length_eq_zero_iff.mp h)
  rw [cutPages_one hb (iaddr_general hg ▸ hlen), Pipe.cmdWrite, iasWrite_page hb hg hlen hw, writeDropped_general hg]
  dsimp only
  by_cases hu : (p.tier (.gen (g / 65536))).st = .unmapped
  · rw [if_pos hu, if_pos (decide_eq_true hu), if_neg hpos, Pipe.cmdWrite, Nat.zero_add]
  · rw [if_neg hu, if_neg (not_true_of_false (decide_eq_false hu)), if_pos rfl, Pipe.cmdWrite, Nat.zero_add]

theorem pageWrite_unmapped {pg : PageId} {off : Nat} (h : (p.tier pg).st = .unmapped) :
    p.pageWrite who pg off b = (p.modPart who (fun q => { q with dropped := q.dropped + 1 }), .done) := by
  unfold Pipe.pageWrite
  dsimp only
  rw [h]

theorem pageWrite_frame {n off : Nat} (h : (p.tier (.gen n)).st = .hbm ∨ (p.tier (.gen n)).st = .out) (hp : (p.tier (.gen n)).plate = false) :
    let e := p.tier (.gen n)
    p.pageWrite who (.gen n) off b = ((p.setTier (.gen n) { e with st := .hbm, dirty := true, ref := true }).hbmWrite
      (hbmKey e.home e.pc (e.frame * 65536 + off)) b, .done) := by
  unfold Pipe.pageWrite
  dsimp only
  rcases h with h | h <;> rw [h] <;> dsimp only <;> rw [hp] <;> rfl

end

theorem filter_nothing {α : Type} (l : List α) : l.filter (fun _ => false) = [] := List.filter_eq_nil_iff.mpr fun _ _ => Bool.false_ne_true

theorem cmdFetch_clean {p : Pipe} {a n : Nat} (hp : p.poison = []) : p.cmdFetch a n = ((p.countIas a n).ref a n, p.iasRead a n) := by
  unfold Pipe.cmdFetch Pipe.iasRead
  simp only [hp, List.contains_nil, filter_nothing, List.map_nil, List.map_map, Bool.false_eq_true, if_false]
  refine congrArg (Prod.mk _) (List.map_congr_left fun i _ => ?_)
  dsimp only [Function.comp_apply]
  cases p.iasKey (a + i) <;> rfl

theorem cmdRead_page {s : State} {mb haddr a n : Nat} (hn : 0 < n) (hlen : a % 65536 + n ≤ 65536) (hr : s.pipe.iasReady a n = true)
    (hp : s.pipe.poison = []) : s.cmdRead mb haddr (cutRange (n / 65536 + 2) a n) 0 =
      ((withPipe s ((s.pipe.countIas a n).ref a n)).hostWrite mb haddr (s.pipe.iasRead a n), .done, n) := by
  rw [cutRange_one hn hlen, State.cmdRead, if_pos hr, cmdFetch_clean hp]
  dsimp only
  rw [State.cmdRead, Nat.zero_add]
  rfl

/-! ## The commands -/

section
variable {s : State} {c : Nat} {x : Running} (h : HostData)

theorem exec_iasAlloc (hpos : x.pos = 0) (htally : x.tally = 0)
    (hs : Served s c 0x0601 x (gateIas true Request.pages (fun r => [field r.slot 352 4]) s x.req))
    (ha : Ample s (s.pipe.homesOf x.req.pages ++ [field x.req.slot 352 4])) {q : Pipe} {e : PageEnd} {a : AllocAt}
    (hl : s.pipe.allocLoop x.req.pages.1 (field x.req.slot 352 4) (x.req.b 45) x.req.pages.2 { pos := 0, new := 0, full := false } =
      (q, e, a)) :
    let pay := leBytes 4 a.new ++ leBytes 4 (q.pagesIn x.req.pages.1 a.pos - a.new)
    (e = .done → exec (.iasAlloc c h) s =
      .next (answers (withPipe s q) c x { status := if a.full then stTIERFULL else stOK, payload := pay })) ∧
    (e = .noSpace → exec (.iasAlloc c h) s = .next (answers (withPipe s q) c x { status := stNOSPACE, payload := pay })) := by
  intro pay
  have hl0 : s.pipe.allocLoop x.req.pages.1 (field x.req.slot 352 4) (x.req.b 45) (x.req.pages.2 - 0)
    { pos := 0, new := 0 / 2, full := decide (0 % 2 = 1) } = (q, e, a) := hl
  refine ⟨fun he => served_answers hs ((unshort_ample ha _ _).trans ?_), fun he => served_answers hs ((unshort_ample ha _ _).trans ?_)⟩
  · rw [progress_running hs.1, hpos, htally]
    dsimp only
    rw [hl0, he]
    rfl
  · rw [progress_running hs.1, hpos, htally]
    dsimp only
    rw [hl0, he]
    rfl

theorem exec_iasFree (hpos : x.pos = 0) (htally : x.tally = 0) (hs : Served s c 0x0602 x (gateIas true Request.pages (fun _ => []) s x.req))
    (ha : Ample s (s.pipe.homesOf x.req.pages)) {q : Pipe} {pos k : Nat}
    (hl : s.pipe.freeLoop x.req.pages.1 x.req.pages.2 0 0 = (q, .done, pos, k)) :
    exec (.iasFree c h) s = .next (answers (withPipe s q.resume) c x (Answer.ok (leBytes 4 k))) := by
  refine served_answers hs ((unshort_ample ha _ _).trans ?_)
  rw [progress_running hs.1, hpos, htally]
  dsimp only
  rw [Nat.sub_zero, hl]
  rfl

theorem exec_iasWrite (hpos : x.pos = 0) (htally : x.tally = 0) (hs : Served s c 0x0603 x (gateIas true Request.span (fun _ => []) s x.req))
    (ha : Ample s (s.pipe.homesOf x.req.span)) {b : List Byte} (hb : x.req.buffer h x.req.hlen = some b) {q : Pipe} {pos dr : Nat}
    (hl : s.pipe.cmdWrite 0 (cutPages (b.length / 65536 + 2) (x.req.d 32) b) 0 0 = (q, .done, pos, dr)) :
    exec (.iasWrite c h) s = .next (answers (withPipe s q) c x (Answer.ok (leBytes 4 (pos - dr) ++ leBytes 4 dr))) := by
  refine served_answers hs ((unshort_ample ha _ _).trans ?_)
  rw [hb, progress_running hs.1, hpos, htally]
  dsimp only
  rw [List.drop_zero, Nat.add_zero (x.req.d 32), hl]
  rfl

theorem exec_iasWrite_frame (hpos : x.pos = 0) (htally : x.tally = 0)
    (hs : Served s c 0x0603 x (gateIas true Request.span (fun _ => []) s x.req)) (ha : Ample s (s.pipe.homesOf x.req.span))
    {b : List Byte} (hb : x.req.buffer h x.req.hlen = some b) (hne : b ≠ []) {g : Nat}
    (hg : iaddr s.pipe.variant64 (x.req.d 32) = .general g) (hlen : g % 65536 + b.length ≤ 65536) :
    let pg := PageId.gen (g / 65536)
    let e := s.pipe.tier pg
    e.st = .hbm ∨ e.st = .out → e.plate = false →
    let q := (s.pipe.setTier pg { e with st := .hbm, dirty := true, ref := true }).hbmWrite
      (hbmKey e.home e.pc (e.frame * 65536 + g % 65536)) b
    exec (.iasWrite c h) s = .next (answers (withPipe s (q.countIas (x.req.d 32) b.length)) c x
      (Answer.ok (leBytes 4 b.length ++ leBytes 4 0))) := by
  intro pg e he hp q
  have hw := cmdWrite_page hne hg hlen (pageWrite_frame he hp)
  have hmapped : (s.pipe.tier (.gen (g / 65536))).st ≠ .unmapped := by
    rcases he with he | he <;> rw [show (s.pipe.tier (.gen (g / 65536))).st = _ from he] <;> decide
  rw [if_neg hmapped] at hw
  have hx := exec_iasWrite h hpos htally hs ha hb hw
  rw [Nat.sub_zero] at hx
  exact hx

theorem exec_iasWrite_unmapped (hpos : x.pos = 0) (htally : x.tally = 0)
    (hs : Served s c 0x0603 x (gateIas true Request.span (fun _ => []) s x.req)) (ha : Ample s (s.pipe.homesOf x.req.span))
    {b : List Byte} (hb : x.req.buffer h x.req.hlen = some b) (hne : b ≠ []) {g : Nat}
    (hg : iaddr s.pipe.variant64 (x.req.d 32) = .general g) (hlen : g % 65536 + b.length ≤ 65536)
    (he : (s.pipe.tier (.gen (g / 65536))).st = .unmapped) :
    exec (.iasWrite c h) s = .next (answers (withPipe s (s.pipe.modPart 0 (fun q => { q with dropped := q.dropped + 1 }))) c x
      (Answer.ok (leBytes 4 0 ++ leBytes 4 b.length))) := by
  have hw := exec_iasWrite h hpos htally hs ha hb ((cmdWrite_page hne hg hlen (pageWrite_unmapped he)).trans (if_pos he))
  rw [Nat.sub_self] at hw
  exact hw

theorem exec_iasRead (hpos : x.pos = 0) (hs : Served s c 0x0604 x (gateIas false Request.span (fun _ => []) s x.req))
    (ha : Ample s (s.pipe.homesOf x.req.span)) (hh : x.req.hlen = 0 ∨ h.isSome = true) {u : State} {pos : Nat}
    (hl : s.cmdRead x.req.mb x.req.haddr (cutRange (x.req.hlen / 65536 + 2) (x.req.d 32) x.req.hlen) 0 = (u, .done, pos)) :
    exec (.iasRead c h) s = .next (answers u c x { status := stOK, rlen := pos }) := by
  refine served_answers hs ((unshort_ample ha _ _).trans ?_)
  rw [progress_running hs.1, hpos]
  dsimp only
  rw [if_neg, Nat.sub_zero, Nat.add_zero (x.req.d 32), hl]
  rcases hh with h0 | hsome
  · simp [h0]
  · simp [Option.isNone_eq_false_iff.mpr hsome]

theorem exec_iasAttr (hpos : x.pos = 0) (htally : x.tally = 0) (hs : Served s c 0x0605 x (gateIas true Request.pages (fun _ => []) s x.req))
    (ha : Ample s (s.pipe.homesOf x.req.pages)) {q : Pipe} {pos : Nat} {full : Bool}
    (hl : s.pipe.attrLoop x.req.pages.1 (x.req.b 44) (x.req.b 45) x.req.pages.2 0 false = (q, .done, pos, full)) :
    exec (.iasAttr c h) s = .next (answers (withPipe s q) c x (Answer.of (if full then stTIERFULL else stOK))) := by
  refine served_answers hs ((unshort_ample ha _ _).trans ?_)
  rw [progress_running hs.1, hpos, htally]
  dsimp only
  rw [show decide ((0 : Nat) = 1) = false from rfl, Nat.sub_zero, hl]
  rfl

end

/-- Settles O47: a loop that no page keeps waiting is a fold over the pages named. -/
theorem tierCommands : Obligations.TierCommands := by
  intro s c h x hpos htally r p t base n
  refine ⟨fun q e a hs ha hl => exec_iasAlloc h hpos htally hs ha hl, fun hs ha => ?_, fun home attr hp => ?_, fun hs ha hu => ?_,
    fun k pc f => rfl, fun q pos k hs ha hl => exec_iasFree h hpos htally hs ha hl,
    fun b q pos dr hs ha hb hl => exec_iasWrite h hpos htally hs ha hb hl, fun g b hs ha hb hne hg hlen => ?_,
    fun hs ha hh h0 hlen hr hp => exec_iasRead h hpos hs ha (.inr hh) (cmdRead_page h0 hlen hr hp),
    fun u pos hs ha hh hl => exec_iasRead h hpos hs ha hh hl,
    fun q pos full hs ha hl => exec_iasAttr h hpos htally hs ha hl, fun hs ha hp => ?_,
    fun clr set => ⟨fun k pc f => attrPage_bank p k pc f clr set, fun g => attrPage_gen⟩, fun hs => served_answers hs rfl,
    fun hs => served_answers hs rfl, fun hs => ⟨fun hb => served_answers hs (if_neg (not_true_of_false hb)),
      fun hb => served_answers hs (if_pos hb)⟩, fun hs => ?_⟩
  · intro home pgs hk hm y
    have hn : pgs = pagesFrom p base 0 n := pagesNamed_eq p r.pages
    obtain ⟨hl, hsame⟩ := allocLoop_eq_foldl (base := base) (attr := r.b 45) n p { pos := 0, new := 0, full := false } (hn ▸ hk) (hn ▸ hm)
    rw [← hn] at hl hsame
    have he := (exec_iasAlloc h hpos htally hs ha hl).1 rfl
    dsimp only at he
    rw [Nat.zero_add, hsame.pagesIn] at he
    exact he
  · refine ⟨fun g => if_neg (not_true_of_false hp), fun k pc f => rfl⟩
  · intro y
    rw [pagesNamed_eq] at hu
    have hl := freeLoop_eq_foldl n p 0 0 hu
    rw [← pagesNamed_eq] at hl
    exact exec_iasFree h hpos htally hs ha hl
  · exact ⟨exec_iasWrite_frame h hpos htally hs ha hb hne hg hlen, exec_iasWrite_unmapped h hpos htally hs ha hb hne hg hlen⟩
  · have hl := attrLoop_eq_foldl (base := base) (clr := r.b 44) hp n p 0
    rw [← pagesNamed_eq] at hl
    have hx := exec_iasAttr h hpos htally hs ha hl
    exact hx
  · intro f sat tag
    have ht : tag = if (f.loss > 0 && decide (r.q 32 ≠ 0xFFFFFF)) = true then f.durable.get? (r.q 32) else none := by
      simp only [tag, Bool.and_eq_true, decide_eq_true_eq, gt_iff_lt]
    rw [ht]
    exact served_answers hs rfl

end Sys2Proof.Machine
end

section
/-!
PROOF. The rows of the commands on fabric ports, protection domains, regions, rings, connections and keys.
-/
namespace Sys2Proof.Machine
open Sys2Proof.Claims

section
variable {s : State} {c : Nat} {x : Running} (h : HostData)

/-! ## Tests of these commands -/

theorem pdScope_mine {r : Request} {pd : Nat} (hm : r.mb = 0 ∨ pd / 4096 = r.mb - 1) (k : State × CmdEnd) : s.pdScope r pd k = k := by
  refine if_neg ?_
  simp only [Bool.and_eq_true, decide_eq_true_eq, not_and, Decidable.not_not]
  exact fun h0 => hm.resolve_left h0

theorem keyless_of {r : Request} {y : Conn} (hn : r.q 32 < 262144) (hy : s.fab.conns.get? (r.q 32) = some y) (he : y.cfg.enc = true)
    (ht : y.txKey = none) (hr : y.rxKey = none) (k : Conn → State × CmdEnd) : s.keyless r k = k y := by
  refine (if_neg (Nat.not_le.mpr hn)).trans ?_
  rw [hy]
  dsimp only
  rw [he, ht, hr]
  rfl

theorem agreeStep_running (hx : s.coel.running.get? c = some x) (g : Bool) : s.agreeStep c g = ((x.req.b 35 == 0) == g) := by
  rw [State.agreeStep, hx]

/-! ## Ports, domains, regions and rings -/

theorem exec_fabPortConfig (hs : Served s c 0x0801 x (gateG s x.req))
    (hd : ∀ i, i < 4 → (s.fab.link (4 * field x.req.slot 256 3 + i)).up = false) : exec (.fabPortConfig c h) s = .next (answers
      { s with fab := (s.fab.setPort (field x.req.slot 256 3) (field x.req.slot 264 2) (fbit x.req.slot 272)
        ((List.range 4).map (fun i => x.req.b (36 + i))) (fun i => slice x.req.slot (48 + 48 * i) 48)) } c x (Answer.ok [])) := by
  refine served_answers hs ?_
  have hups : ((List.range 4).map (fun i => 4 * field x.req.slot 256 3 + i)).filter (fun n => (s.fab.link n).up) = [] := by
    refine List.filter_eq_nil_iff.mpr fun n hn => ?_
    obtain ⟨i, hi, rfl⟩ := List.mem_map.mp hn
    exact not_true_of_false (hd i (List.mem_range.mp hi))
  dsimp only
  rw [hups, List.map_nil, List.foldl_nil, raise_nil]
  rfl

theorem exec_bftRegCreate_used (hs : Served s c 0x0805 x (gateReg s x.req)) (hm : x.req.mb = 0 ∨ x.req.h 36 / 4096 = x.req.mb - 1)
    (hn : x.req.q 32 < 1048576) (hp : s.fab.pds.has (x.req.h 36) = true) {y : Region} (hy : s.fab.regions.get? (x.req.q 32) = some y)
    (hu : y.used = true) : exec (.bftRegCreate c h) s = .next (answers s c x (Answer.of stBADSTATE)) := by
  refine served_answers hs ((pdScope_mine hm _).trans ((if_neg ?_).trans ?_))
  · rw [hp, decide_eq_false (show ¬ x.req.q 32 ≥ 2 ^ 20 from Nat.not_le.mpr hn)]
    exact Bool.false_ne_true
  · rw [hy]
    exact if_pos hu

/-- The region that BFT_REG_CREATE makes, with the tag that follows the one before it. -/
def madeRegion (r : Request) (old : Option Region) : Region :=
  { used := true, tag := match old with | some y => (y.tag + 1) % 4096 | none => 0, pd := r.h 36,
    space := if r.b 38 = 1 then 1 else if r.b 38 = 0 then (if r.mb = 0 then 0 else 1) else 2,
    remoteWrite := fbit r.slot 312, base := r.d 40, len := field r.slot 384 40 }

theorem exec_bftRegCreate (hs : Served s c 0x0805 x (gateReg s x.req)) (hm : x.req.mb = 0 ∨ x.req.h 36 / 4096 = x.req.mb - 1)
    (hn : x.req.q 32 < 1048576) (hp : s.fab.pds.has (x.req.h 36) = true)
    (hu : ∀ y, s.fab.regions.get? (x.req.q 32) = some y → y.used = false) :
    let z := madeRegion x.req (s.fab.regions.get? (x.req.q 32))
    exec (.bftRegCreate c h) s = .next (answers { s with fab := { s.fab with regions := s.fab.regions.set (x.req.q 32) z } } c x
      (Answer.ok (leBytes 4 (z.tag * 1048576 + x.req.q 32)))) := by
  refine served_answers hs ((pdScope_mine hm _).trans ((if_neg ?_).trans ?_))
  · rw [hp, decide_eq_false (show ¬ x.req.q 32 ≥ 2 ^ 20 from Nat.not_le.mpr hn)]
    exact Bool.false_ne_true
  · cases hy : s.fab.regions.get? (x.req.q 32) with
    | none => rfl
    | some y => exact if_neg (not_true_of_false (hu y hy))

theorem exec_bftRrCreate (hs : Served s c 0x0807 x (gateRr s x.req)) (hm : x.req.mb = 0 ∨ x.req.h 34 / 4096 = x.req.mb - 1)
    (hp : s.fab.pds.has (x.req.h 34) = true) (hr : s.fab.rings.has (x.req.h 32) = false) :
    let y : RxRing := {
      pd := x.req.h 34, loc := fbit x.req.slot 288, func := x.req.func (fbit x.req.slot 289) (ringHome (x.req.h 32)),
      size := 32 * 2 ^ min (x.req.b 37) 11, base := x.req.d 40, pidx := 0, cidx := 0, phase := true }
    exec (.bftRrCreate c h) s =
      .next (answers { s with fab := { s.fab with rings := s.fab.rings.set (x.req.h 32) y } } c x (Answer.ok [])) :=
  served_answers hs ((pdScope_mine hm _).trans ((if_neg (not_bnot_of_true hp)).trans (if_neg (not_true_of_false hr))))

/-! ## Connections and keys -/

theorem exec_bftConnCreate (hs : Served s c 0x0809 x (gateConnRec h s x.req)) {b : List Byte} (hb : x.req.connRec h = some b) :
    let n := field b 0 18
    let cfg := decodeConn b (connHome n) (x.req.mb ≠ 0)
    x.req.mb = 0 ∨ cfg.pd / 4096 = x.req.mb - 1 → s.fab.pds.has cfg.pd = true →
    (s.fab.conns.has n = true → exec (.bftConnCreate c h) s = .next (answers s c x (Answer.of stBADSTATE))) ∧
    (s.fab.conns.has n = false → exec (.bftConnCreate c h) s = .next (answers { s with
      coel := { s.coel with keyPairs := s.coel.keyPairs.erase n },
      fab := ({ s.fab with conns := s.fab.conns.set n (Conn.fresh cfg) } : Fabric).grow n } c x (Answer.ok []))) := by
  intro n cfg hm hp
  refine ⟨fun hc => served_answers hs ?_, fun hc => served_answers hs ?_⟩
  · rw [hb]
    exact (pdScope_mine hm _).trans ((if_neg (not_bnot_of_true hp)).trans (if_pos hc))
  · rw [hb]
    exact (pdScope_mine hm _).trans ((if_neg (not_bnot_of_true hp)).trans (if_neg (not_true_of_false hc)))

/-- What BFT_KEY_AGREE does to complete an agreement on the connection y (R528). -/
def State.agreed (s : State) (r : Request) (y : Conn) : State × CmdEnd :=
  let n := r.q 32
  let peer := slice r.slot 64 97
  match s.coel.keyPairs.get? n with
  | none => s.ends stSEQUENCE
  | some d =>
    if !Config.p384Valid peer then ({ s with coel := { s.coel with keyPairs := s.coel.keyPairs.erase n } } : State).ends stBADKEY
    else
      let z := Config.p384Shared (Config.freeBytes d) peer
      let a := agreedKey z 1
      let b := agreedKey z 2
      let s1 := if y.cfg.role then s.setKeys n b a else s.setKeys n a b
      ({ s1 with coel := { s1.coel with keyPairs := s1.coel.keyPairs.erase n } } : State).endsOk []

section
variable {y : Conn} (hn : x.req.q 32 < 262144) (hy : s.fab.conns.get? (x.req.q 32) = some y) (he : y.cfg.enc = true)
  (ht : y.txKey = none) (hr : y.rxKey = none)
include hn hy he ht hr

theorem exec_bftKeyLoad (hs : Served s c 0x080B x (gateConn true s x.req)) : exec (.bftKeyLoad c h) s =
    .next (answers (s.setKeys (x.req.q 32) (slice x.req.slot 64 32) (slice x.req.slot 96 32)) c x (Answer.ok [])) :=
  served_answers hs (keyless_of hn hy he ht hr _)

theorem exec_bftKeyAgreeGenerate (hs : Served s c 0x080C x (gateConn true s x.req)) (h0 : x.req.b 35 = 0) :
    exec (.bftKeyAgreeGenerate c h) s = .next (answers
      { s with free := s.free + 1, coel := { s.coel with keyPairs := s.coel.keyPairs.set (x.req.q 32) s.free } } c x
      (Answer.ok (List.replicate 32 0#8 ++ padTo 97 (Config.p384Public (Config.freeBytes s.free))))) :=
  (congrArg Host.Outcome.next (if_neg (not_bnot_of_true (by rw [agreeStep_running hs.1, h0]; rfl)))).trans
    (served_answers hs (keyless_of hn hy he ht hr _))

theorem exec_bftKeyAgreeComplete (hs : Served s c 0x080C x (gateConn true s x.req)) (h0 : x.req.b 35 ≠ 0) {t : State} {a : Answer}
    (hk : s.agreed x.req y = (t, .done a)) : exec (.bftKeyAgreeComplete c h) s = .next (answers t c x a) := by
  refine (congrArg Host.Outcome.next (if_neg (not_bnot_of_true ?_))).trans (served_answers hs ((keyless_of hn hy he ht hr _).trans hk))
  rw [agreeStep_running hs.1, beq_eq_false_iff_ne.mpr h0]
  rfl

end

end

/-- Settles O48: each command by the tests before its effect. -/
theorem fabricCommands : Obligations.FabricCommands := by
  intro s c h x r f ok no mine
  refine ⟨fun hs hd => exec_fabPortConfig h hs hd, fun hs h7 => served_answers hs (if_neg (Nat.not_lt.mpr h7)),
    fun hs h7 => served_answers hs (if_pos h7), fun hs => ⟨fun hp => served_answers hs (if_pos hp),
      fun hp => served_answers hs (if_neg (not_true_of_false hp))⟩, fun hs => ⟨fun hp => served_answers hs (if_pos hp),
      fun hp => served_answers hs (if_neg (not_true_of_false hp))⟩, fun hs hm hn hp =>
      ⟨fun y hy hu => exec_bftRegCreate_used h hs hm hn hp hy hu, fun hu => ?_⟩, fun y hs hy hu => served_answers hs ?_,
    fun hs hm hp hr => exec_bftRrCreate h hs hm hp hr, fun hs hr => served_answers hs (if_neg (not_bnot_of_true hr)),
    fun b hs hb => exec_bftConnCreate h hs hb, fun hs hn => served_answers hs (if_neg (Nat.not_le.mpr hn)),
    fun y hn hy he ht hr => ⟨fun hs => exec_bftKeyLoad h hn hy he ht hr hs, fun hs h0 => exec_bftKeyAgreeGenerate h hn hy he ht hr hs h0,
      fun hs h0 hd => exec_bftKeyAgreeComplete h hn hy he ht hr hs h0 ?_, fun d hs h0 hd => ?_⟩⟩
  · refine ⟨madeRegion r (f.regions.get? (r.q 32)), rfl, rfl, rfl, rfl, rfl, fun y hy => ?_, exec_bftRegCreate h hs hm hn hp hu⟩
    rw [hy]
    rfl
  · rw [show s.fab.regions.get? (x.req.q 32) = some y from hy]
    exact if_pos hu
  · rw [State.agreed, show s.coel.keyPairs.get? (x.req.q 32) = none from hd]
    rfl
  · intro peer z s1
    refine ⟨fun hv => exec_bftKeyAgreeComplete h hn hy he ht hr hs h0 ?_, fun hv => exec_bftKeyAgreeComplete h hn hy he ht hr hs h0 ?_⟩
    · rw [State.agreed, show s.coel.keyPairs.get? (x.req.q 32) = some d from hd]
      exact if_pos (by rw [show Config.p384Valid (slice x.req.slot 64 97) = false from hv]; rfl)
    · rw [State.agreed, show s.coel.keyPairs.get? (x.req.q 32) = some d from hd]
      exact if_neg (not_bnot_of_true hv)

end Sys2Proof.Machine
end

section
/-!
PROOF. The rows of the commands on partitions, faults and firmware images.
-/
namespace Sys2Proof.Machine
open Sys2Proof.Claims

section
variable {s : State} {c : Nat} {x : Running} (h : HostData)

/-- The row of a command that waits for a partition. -/
theorem served_holds {op : Nat} {g : State → Request → Gate} {k : State → Request → Bool → State × CmdEnd}
    (hs : Served s c op x (g s x.req)) {t : State} {n : Nat} {u : Bool} (hk : k s x.req false = (t, .hold n u)) :
    (Host.Outcome.next (s.cmd c op g k) : Host.Outcome State Fault Refusal) = .next
      { (t.freeCore c).settle with coel := { (t.freeCore c).settle.coel with
        waiters := (t.freeCore c).settle.coel.waiters ++ [{ req := x.req, part := n, unfence := u }] } } :=
  congrArg Host.Outcome.next (cmd_holds hs hk)

/-! ## FW_CHUNK and FW_VERIFY -/

/-- What FW_CHUNK does with the bytes b of a chunk that it may take (R633). -/
def State.takesChunk (s : State) (r : Request) (l : Nat) (b : List Byte) : Nor :=
  let n := match s.download with | some _ => s.nor | none => s.nor.beginDl s.dlSlot l
  let had := match s.download with | some (_, y) => y | none => []
  if had.contains (r.w 36) then n else n.putChunk s.dlSlot l (r.w 36) had b

theorem takesChunk_had {s : State} {r : Request} {l : Nat} {b : List Byte} {y : Nat × List Nat} (hy : s.download = some y)
    (hc : y.2.contains (r.w 36) = true) : s.takesChunk r l b = s.nor := by
  unfold State.takesChunk
  rw [hy]
  exact if_pos hc

theorem fwChunk_takes {l : Nat} (hl : l = min (x.req.w 32) 33554432) (hs : Served s c 0x0A01 x (gateG s x.req)) (hp : s.nor.present = true)
    (hd : ∀ y, s.download = some y → y.1 = l) (hc : x.req.w 36 < chunkCount l)
    (ht : s.boot.trial = false ∨ s.coel.state = .rom) (hv : s.dlState ≠ .verified) {b : List Byte}
    (hb : x.req.buffer h (chunkLen l (x.req.w 36)) = some b) :
    ((crc32c b).toNat ≠ x.req.w 40 → exec (.fwChunk c h) s = .next (answers s c x (Answer.of stVERIFY))) ∧
    ((crc32c b).toNat = x.req.w 40 → exec (.fwChunk c h) s = .next (answers { s with nor := s.takesChunk x.req l b } c x
      (Answer.ok (chunkReport l (match (s.takesChunk x.req l b).dl with | some (_, y) => y | none => []))))) := by
  subst hl
  have hother : (match s.download with | some (n, _) => n != min (x.req.w 32) 33554432 | none => false) = false := by
    cases hy : s.download with
    | none => rfl
    | some y => exact bne_eq_false_iff_eq.mpr (hd y hy)
  have htrial : (s.boot.trial && s.coel.state != .rom) = false := by
    rcases ht with ht | ht <;> rw [ht]
    · rfl
    · exact Bool.and_false _
  have hmay : ∀ other : Bool, other = false → ¬ (other || decide (x.req.w 36 ≥ chunkCount (min (x.req.w 32) 33554432)) ||
      (s.boot.trial && s.coel.state != .rom) || decide (s.dlState = .verified)) = true := fun other ho => by
    rw [ho, htrial, decide_eq_false (Nat.not_le.mpr hc), decide_eq_false hv]
    exact Bool.false_ne_true
  refine ⟨fun hcrc => served_answers hs ((if_neg (not_bnot_of_true hp)).trans ((if_neg (hmay _ hother)).trans ?_)),
    fun hcrc => served_answers hs ((if_neg (not_bnot_of_true hp)).trans ((if_neg (hmay _ hother)).trans ?_))⟩
  · rw [hb]
    exact if_pos hcrc
  · rw [hb]
    exact if_neg (not_not_intro hcrc)

theorem verifySlot_ok {n : Nor} {slot : Bool} (hok : n.slotOk slot = true) :
    n.verifySlot slot = (n.writeCb (n.cb.setState slot .verified), true) := if_pos hok

theorem verifySlot_bad {n : Nor} {slot : Bool} (hok : n.slotOk slot = false) : n.verifySlot slot = ((n.verifySlot slot).1, false) := by
  unfold Nor.verifySlot
  rw [if_neg (not_true_of_false hok)]

theorem exec_fwVerify_complete (hs : Served s c 0x0A02 x (gateG s x.req)) (hd : s.dlState = .complete) {n : Nor} {ok : Bool}
    (hv : s.nor.verifySlot s.dlSlot = (n, ok)) : exec (.fwVerify c h) s = .next (answers { s with nor := n } c x
      (if ok then Answer.ok (leBytes 4 (n.imageVersion s.dlSlot)) else Answer.of stVERIFY)) := by
  refine served_answers hs ((if_neg (by rw [hd]; decide)).trans ((if_neg (not_not_intro hd)).trans ?_))
  rw [hv]
  cases ok <;> rfl

end

/-- Settles O49: each command by the tests before its effect. -/
theorem faultAndFirmwareCommands : Obligations.FaultAndFirmwareCommands := by
  intro s c h x r k no held
  refine ⟨fun hs => ⟨fun hk => served_answers hs ?_, fun hk => served_holds hs ?_, fun hk => served_holds hs ?_,
      fun hk ho => served_holds hs ?_⟩, fun hs => ⟨fun hk => served_answers hs ?_, fun hk => served_answers hs ?_,
      fun hk hf => served_answers hs ?_, fun hk hf => served_holds hs ?_⟩,
    fun hs => ⟨fun hn => served_answers hs (if_pos hn), fun hn => served_answers hs (if_neg (Nat.not_lt.mpr hn))⟩,
    fun sp src v hs hm hv => served_answers hs ?_, fun b hs hp => ?_, fun hs => ⟨fun hc hv => served_answers hs ?_, fun hd hok => ?_,
      fun hd hok => ?_⟩, fun hs => ⟨fun hv => served_answers hs (if_pos hv), fun hv hr => served_answers hs ?_⟩,
    fun hs => ⟨fun hn => served_answers hs ?_, fun ht hh => served_answers hs ?_⟩, fun hs => served_answers hs rfl,
    fun hs => served_answers hs rfl⟩
  · dsimp only
    rw [show (s.pipe.part x.req.part).st = .fenced from hk]
    rfl
  · dsimp only
    rw [show (s.pipe.part x.req.part).st = .fencing from hk]
  · dsimp only
    rw [show (s.pipe.part x.req.part).st = .unfencing from hk]
  · dsimp only
    rw [show (s.pipe.part x.req.part).st = .serving from hk]
    exact if_pos ho
  · dsimp only
    rw [show (s.pipe.part x.req.part).st = .serving from hk]
    rfl
  · dsimp only
    rw [show (s.pipe.part x.req.part).st = .fencing from hk]
    rfl
  · dsimp only
    rw [show (s.pipe.part x.req.part).st = .fenced from hk]
    exact if_pos hf
  · dsimp only
    rw [show (s.pipe.part x.req.part).st = .fenced from hk]
    exact if_neg (not_true_of_false hf)
  · dsimp only
    rw [show marginInfo (marginKind (x.req.b 32)) (x.req.h 33) = some (some sp, src) from hm,
      show s.pwr.margins.get? (marginKind (x.req.b 32) * 65536 + x.req.h 33) = some v from hv]
    rfl
  · intro l hd hc ht hv hb
    obtain ⟨hbad, hgood⟩ := fwChunk_takes h rfl hs hp hd hc ht hv hb
    exact ⟨hbad, fun hcrc => ⟨s.takesChunk r l b, hgood hcrc, fun y hy hhad => takesChunk_had hy hhad⟩⟩
  · exact (if_neg hv).trans (if_pos hc)
  · have hx := exec_fwVerify_complete h hs hd (verifySlot_bad hok)
    exact hx
  · have hx := exec_fwVerify_complete h hs hd (verifySlot_ok hok)
    exact hx
  · exact (if_neg (not_not_intro hv)).trans (if_neg (by rw [hr]; decide))
  · refine if_pos ?_
    rcases hn with hn | hn <;> rw [hn]
    · rfl
    · exact Bool.or_true _
  · refine if_neg ?_
    rw [ht, hh]
    exact Bool.false_ne_true

end Sys2Proof.Machine
end

section
/-!
PROOF. The rows of a fence and of an unfence after their cause.
-/
namespace Sys2Proof.Machine
open Sys2Proof.Claims

section
variable {s : State} {k : Nat} (hw : s.works = true) (hk : k < 16)
include hw hk

theorem exec_fencePowerOff (hq : (s.pipe.part k).st = .fencing) :
    let p := s.pipe.modPart k (fun q => { q with st := .fenced, power := false, flashIdle := true, tailHeld := q.flash.holdsTail })
    exec (.fencePowerOff k) s = .next ((withPipe s p).answerWaiters k false stOK) :=
  congrArg Host.Outcome.next (if_pos (by rw [hw, decide_eq_true hk, hq]; rfl))

section
variable (hq : (s.pipe.part k).st = .fenced) (hc : (s.pipe.part k).completionsOwed = true)
include hq hc

theorem exec_fenceCompletions : exec (.fenceCompletions k) s =
    let s1 := (s.pipe.homed k).foldl (fun s j => s.completeJob j false) s
    .next (if (!(s1.pipe.homed k).isEmpty) = true then s1 else
      let q := s.pipe.part k
      let s2 := withPipe s1 (s1.pipe.modPart k (fun q => { q with completionsOwed := false }))
      (s2.event (k + 1) 1 k q.cause.isNone (q.cause.getD 0)).event 0 1 k q.cause.isNone (q.cause.getD 0)) :=
  congrArg Host.Outcome.next (if_pos (by rw [hw, decide_eq_true hk, hq, hc]; rfl))

end

theorem exec_unfence (hr : s.coel.state = .ready) (hq : (s.pipe.part k).st = .unfencing)
    (hc : (s.pipe.part k).completionsOwed = false) (h0 : k ≠ 0) (h8 : k ≠ 8) : exec (.unfence k) s =
    .next (((((withPipe s (s.pipe.unfence k s.mer)).event (k + 1) 2 k false 0).event 0 2 k false 0).answerWaiters k true stOK).settle) := by
  refine congrArg Host.Outcome.next ((if_pos (by rw [hw, decide_eq_true hk, hr, hq, hc]; rfl)).trans ?_)
  dsimp only
  rw [if_neg (by simp [h0, h8])]
  rfl

end

/-! ## An entry of the Almanac -/

theorem unfenced_state_ne_draining (e : AlmEntry) : e.unfenced.state ≠ .draining := by
  unfold AlmEntry.unfenced
  dsimp only
  split
  · decide
  · assumption

theorem unfenced_of_open {e : AlmEntry} (h : e.state = .enabled ∨ e.state = .paused) :
    e.unfenced.gen = (e.gen + 1) % 65536 ∧ e.unfenced.state = e.state := by
  unfold AlmEntry.unfenced
  rcases h with h | h <;> rw [h] <;> exact ⟨rfl, rfl⟩

/-- Settles O50: each row by the state of the partition. -/
theorem fenceRows : Obligations.FenceRows := by
  intro s k hw hk q
  refine ⟨fun hq => exec_fencePowerOff hw hk hq, fun hq hc => ?_, fun hr hq hc h0 h8 => exec_unfence hw hk hr hq hc h0 h8,
    fun e => ⟨rfl, rfl, unfenced_state_ne_draining e, unfenced_of_open⟩⟩
  intro s1
  refine ⟨fun hne => ?_, fun he => ?_⟩
  · rw [exec_fenceCompletions hw hk hq hc]
    exact congrArg Host.Outcome.next (if_pos (by simpa using hne))
  · intro s2
    rw [exec_fenceCompletions hw hk hq hc]
    exact congrArg Host.Outcome.next (if_neg (by simpa using he))

end Sys2Proof.Machine
end

section
/-!
PROOF. The rows of the doorbells, of visits and fetches of queues, and of completions.
-/
namespace Sys2Proof.Machine
open Sys2Proof.Claims

/-! ## Doorbells of the Almanac -/

theorem consume_at_pidx {e : AlmEntry} {i : Nat} (h : i % e.size = e.pidx % e.size) :
    e.consume i [] = { e with cidx := i % e.size, rbheld := e.resv } := by
  unfold AlmEntry.consume
  dsimp only
  rw [if_pos h, Nat.zero_add]

theorem consume_entry {e : AlmEntry} {i : Nat} (h : i % e.size ≠ e.pidx % e.size) (b : List Byte) : e.consume i b =
    { e with cidx := i % e.size, rbheld := rbHeldOf e.rbnext e.rbCount (le16 b 20) (le16 b 22) + e.resv } := by
  unfold AlmEntry.consume
  dsimp only
  rw [if_neg h]
  rfl

section
variable {p : Pipe} {k q i : Nat} {ring : Option (List Byte)}

theorem bell_drops (h : ((p.touchQueue q).queue q).kind = .frecv ∨ (((p.touchQueue q).queue q).state ≠ .enabled ∧
    ((p.touchQueue q).queue q).state ≠ .paused)) : p.bell k q i ring = ((p.touchQueue q).dropBell k, true) := by
  refine if_pos ?_
  rcases h with h | ⟨he, hp⟩
  · rw [decide_eq_true h]
    rfl
  · rw [decide_eq_false he, decide_eq_false hp]
    exact Bool.or_true _

section
variable (hs : ((p.touchQueue q).queue q).state = .enabled ∨ ((p.touchQueue q).queue q).state = .paused)
include hs

theorem bell_serves (hk : ((p.touchQueue q).queue q).kind ≠ .frecv) : ¬ (((p.touchQueue q).queue q).kind = .frecv ||
    !(((p.touchQueue q).queue q).state = .enabled || ((p.touchQueue q).queue q).state = .paused)) = true := by
  rw [decide_eq_false hk]
  rcases hs with hs | hs <;> rw [hs] <;> decide

theorem bell_submission (hk : ((p.touchQueue q).queue q).kind = .qsub ∨ ((p.touchQueue q).queue q).kind = .isub) :
    p.bell k q i ring = (((p.touchQueue q).setQueue q { (p.touchQueue q).queue q with
      pidx := i % ((p.touchQueue q).queue q).size }).enlist q, true) := by
  refine (if_neg (bell_serves hs ?_)).trans (if_pos ?_)
  · rcases hk with hk | hk <;> rw [hk] <;> decide
  · rcases hk with hk | hk <;> rw [hk] <;> decide

section
variable (hk : ((p.touchQueue q).queue q).kind = .comp)
include hk

theorem bell_comp_pidx (hi : i % ((p.touchQueue q).queue q).size = ((p.touchQueue q).queue q).pidx % ((p.touchQueue q).queue q).size) :
    p.bell k q i ring = ((p.touchQueue q).setQueue q (((p.touchQueue q).queue q).consume i []), true) :=
  (if_neg (bell_serves hs (by rw [hk]; decide))).trans ((if_neg (not_not_intro hk)).trans (if_pos hi))

theorem bell_comp_ring (ha : ((p.touchQueue q).queue q).ias = false)
    (hi : i % ((p.touchQueue q).queue q).size ≠ ((p.touchQueue q).queue q).pidx % ((p.touchQueue q).queue q).size) :
    (∀ b, p.bell k q i (some b) = ((p.touchQueue q).setQueue q (((p.touchQueue q).queue q).consume i b), true)) ∧
    p.bell k q i none = ((p.touchQueue q).queueError q, true) :=
  ⟨fun b => (if_neg (bell_serves hs (by rw [hk]; decide))).trans ((if_neg (not_not_intro hk)).trans
      ((if_neg hi).trans (if_neg (not_true_of_false ha)))),
    (if_neg (bell_serves hs (by rw [hk]; decide))).trans ((if_neg (not_not_intro hk)).trans
      ((if_neg hi).trans (if_neg (not_true_of_false ha))))⟩

theorem bell_comp_ias (ha : ((p.touchQueue q).queue q).ias = true)
    (hi : i % ((p.touchQueue q).queue q).size ≠ ((p.touchQueue q).queue q).pidx % ((p.touchQueue q).queue q).size) :
    let e := (p.touchQueue q).queue q
    let a := e.slotAddr (i % e.size)
    ((p.touchQueue q).iasReady a 64 = true →
      p.bell k q i ring = ((p.touchQueue q).setQueue q (e.consume i ((p.touchQueue q).iasRead a 64)), true)) ∧
    ((p.touchQueue q).iasReady a 64 = false → p.bell k q i ring = (((p.touchQueue q).want a 64).1, false)) :=
  ⟨fun hr => (if_neg (bell_serves hs (by rw [hk]; decide))).trans ((if_neg (not_not_intro hk)).trans
      ((if_neg hi).trans ((if_pos ha).trans (if_pos hr)))),
    fun hr => (if_neg (bell_serves hs (by rw [hk]; decide))).trans ((if_neg (not_not_intro hk)).trans
      ((if_neg hi).trans ((if_pos ha).trans (if_neg (not_true_of_false hr)))))⟩

end

end

end

section
variable {p : Pipe} {k n v : Nat} {ring : Option (List Byte)}

theorem almDoorbell_drops (h : n < 8 ∨ bitsOf v 0 24 / 1048576 ≠ k) : almDoorbell k n v ring p = p.dropBell k := by
  refine if_pos ?_
  rcases h with h | h
  · rw [decide_eq_true h]
    rfl
  · rw [decide_eq_true (show bitsOf v 0 24 / 2 ^ 20 ≠ k from h), Bool.or_true]
    rfl

section
variable (hq : bitsOf v 0 24 / 1048576 = k) (hp : queuePart (bitsOf v 0 24) = k) (hf : p.fenced k = false)
include hq hp hf

theorem almDoorbell_taken : ¬ (decide (8 < 8) || decide (queuePart (bitsOf v 0 24) ≠ k) || decide (bitsOf v 0 24 / 2 ^ 20 ≠ k) ||
    p.fenced k) = true := by
  rw [decide_eq_false (show ¬ bitsOf v 0 24 / 2 ^ 20 ≠ k from not_not_intro hq), decide_eq_false (not_not_intro hp), hf]
  decide

theorem almDoorbell_alone {p1 : Pipe} {b : Bool} (hb : (p.part k).alm.bells = [])
    (hr : p.bell k (bitsOf v 0 24) (bitsOf v 24 16) ring = (p1, b)) :
    almDoorbell k 8 v ring p = if b = true then p1 else p1.setBells k [(bitsOf v 0 24, bitsOf v 24 16, ring)] := by
  refine (if_neg (almDoorbell_taken hq hp hf)).trans ((if_pos (by rw [hb]; rfl)).trans ?_)
  rw [hr]
  cases b <;> rfl

theorem almDoorbell_behind (hb : (p.part k).alm.bells ≠ []) : almDoorbell k 8 v ring p =
    let bells := (p.part k).alm.bells
    let q := bitsOf v 0 24
    if (bells.any (fun b => b.1 == q)) = true then
      p.setBells k (bells.map (fun b => if b.1 = q then (q, bitsOf v 24 16, ring) else b))
    else if bells.length ≥ 4096 then p else p.setBells k (bells ++ [(q, bitsOf v 24 16, ring)]) :=
  (if_neg (almDoorbell_taken hq hp hf)).trans (if_neg (by simpa using hb))

end

end

theorem exec_almDoorbell {s : State} {k : Nat} (hr : s.reach = true) (hc : Calm s) (hk : k < 16) {n : Nat} {v : W64} {h : HostData}
    {p : Pipe} (hp : almDoorbell k n v.toNat h s.pipe = p) : exec (.almDoorbell k false n v h) s = .next (perform s p) := by
  refine congrArg Host.Outcome.next ((if_pos ?_).trans ((onPipe_perform hc _).trans (congrArg (perform s) hp)))
  rw [State.bell, hr, decide_eq_true hk]
  rfl

/-! ## Doorbells of the fabric's rings -/

section
variable {s : State} (hr : s.reach = true)
include hr

theorem bell_pf : s.bell false = true := by rw [State.bell, hr]; rfl

theorem bell_enabled (hv : s.pcie.vfEnable = true) (vf : Bool) : s.bell vf = true := by
  rw [State.bell, hr, hv, Bool.or_true]
  rfl

theorem exec_sendRingDoorbell {v : W64} {c : Conn} (hc : s.fab.conns.get? (bellNum v.toNat) = some c) (he : c.error = none) :
    exec (.sendRingDoorbell none 8 v) s = .next (s.onFab ({ s.fab with
      conns := s.fab.conns.set (bellNum v.toNat) { c with spidx := bellIndex v.toNat % c.cfg.ssize } }, [])) := by
  refine congrArg Host.Outcome.next ((if_pos (bell_pf hr)).trans (congrArg s.onFab ?_))
  unfold Fabric.sendBell
  dsimp only
  rw [hc]
  refine (if_neg Bool.false_ne_true).trans ?_
  unfold Fabric.discardSends
  rw [get?_set_same]
  dsimp only
  rw [he]
  rfl

theorem exec_receiveRingDoorbell {v : W64} {r : RxRing} (hx : s.fab.rings.get? (bellNum v.toNat % 65536) = some r) :
    exec (.receiveRingDoorbell none 8 v) s = .next { s with fab := { s.fab with
      rings := s.fab.rings.set (bellNum v.toNat % 65536) { r with pidx := bellIndex v.toNat % r.size } } } := by
  refine congrArg Host.Outcome.next ((if_pos (bell_pf hr)).trans (congrArg (fun f => { s with fab := f }) ?_))
  unfold Fabric.recvBell
  dsimp only
  rw [hx]
  exact if_neg Bool.false_ne_true

theorem exec_receiveRingDoorbell_none {v : W64} (hx : s.fab.rings.get? (bellNum v.toNat % 65536) = none) :
    exec (.receiveRingDoorbell none 8 v) s = .next { s with fab := s.fab.dropBell } := by
  refine congrArg Host.Outcome.next ((if_pos (bell_pf hr)).trans (congrArg (fun f => { s with fab := f }) ?_))
  unfold Fabric.recvBell
  dsimp only
  rw [hx]

theorem exec_errorRingDoorbell {v : W64} {c : Conn} (hx : s.fab.conns.get? (bellNum v.toNat) = some c) :
    exec (.errorRingDoorbell none 8 v) s = .next { s with fab := { s.fab with
      conns := s.fab.conns.set (bellNum v.toNat) { c with ec := bellIndex v.toNat % c.cfg.esize } } } := by
  refine congrArg Host.Outcome.next ((if_pos (bell_pf hr)).trans (congrArg (fun f => { s with fab := f }) ?_))
  unfold Fabric.errBell
  dsimp only
  rw [hx]
  exact if_neg Bool.false_ne_true

theorem exec_errorRingDoorbell_short {v : W64} {n : Nat} {vf : Option Nat} (hn : n < 8) (hv : s.pcie.vfEnable = true) :
    exec (.errorRingDoorbell vf n v) s = .next { s with fab := s.fab.dropBell } := by
  refine congrArg Host.Outcome.next ((if_pos (bell_enabled hr hv _)).trans (congrArg (fun f => { s with fab := f }) ?_))
  unfold Fabric.errBell
  dsimp only
  cases s.fab.conns.get? (bellNum v.toNat) with
  | none => rfl
  | some c => exact if_pos (by rw [decide_eq_true hn]; rfl)

theorem exec_eventRingDoorbell {v : W64} {d : Pd} (hx : s.fab.pds.get? (bellNum v.toNat % 65536) = some d) :
    exec (.eventRingDoorbell none 8 v) s = .next { s with fab := { s.fab with
      pds := s.fab.pds.set (bellNum v.toNat % 65536) { d with c := bellIndex v.toNat % d.size } } } := by
  refine congrArg Host.Outcome.next ((if_pos (bell_pf hr)).trans (congrArg (fun f => { s with fab := f }) ?_))
  unfold Fabric.evBell
  dsimp only
  rw [hx]
  exact if_neg Bool.false_ne_true

theorem exec_eventRingDoorbell_vf {v : W64} {k : Nat} (hv : s.pcie.vfEnable = true) :
    exec (.eventRingDoorbell (some k) 8 v) s = .next { s with fab := s.fab.dropBell } := by
  refine congrArg Host.Outcome.next ((if_pos (bell_enabled hr hv _)).trans (congrArg (fun f => { s with fab := f }) ?_))
  unfold Fabric.evBell
  dsimp only
  cases s.fab.pds.get? (bellNum v.toNat % 65536) with
  | none => rfl
  | some d => exact if_pos rfl

end

/-! ## Visits, fetches and completions -/

theorem fetchable {e : AlmEntry} (he : e.state = .enabled) (hc : e.kind ≠ .comp) (ho : e.fetchedSlots < e.occupied) :
    ¬ (decide (e.state ≠ .enabled) || !e.isSub || decide (e.occupied ≤ e.fetchedSlots)) = true := by
  rw [decide_eq_false (not_not_intro he), AlmEntry.isSub, bne_iff_ne.mpr hc, decide_eq_false (Nat.not_le.mpr ho)]
  exact Bool.false_ne_true

theorem hasTokens_unshaped {p : Pipe} {k : Nat} {e : AlmEntry} (h : e.shaper = 0) : p.hasTokens k e = true := by
  rw [Pipe.hasTokens, h]
  rfl

section
variable {p : Pipe} {k now q : Nat} (hk : k < 16) (hf : p.fenced k = false)
include hk hf

theorem open_part : ¬ (decide (k ≥ 16) || p.fenced k) = true := by
  rw [decide_eq_false (Nat.not_le.mpr hk), hf]
  exact Bool.false_ne_true

section
variable {rest : List Nat} (ha : (p.part k).sched.active = q :: rest) (hs : (p.queue q).shaper = 0)
include ha hs

theorem schedVisit_held (hh : p.heldQ k now (p.queue q) = true) : schedVisit k now p = p.toTail k q := by
  refine (if_neg (open_part hk hf)).trans ?_
  rw [ha]
  dsimp only
  rw [if_pos hs, if_pos hh]

theorem schedVisit_visits (hh : p.heldQ k now (p.queue q) = false) :
    let p2 := (p.modQueue q (fun e => { e with deficit := clampI 32 (e.deficit + e.quant) })).dispatchLoop k now q
      ((p.queue q).fetched.length + 1)
    (p2.queue q).shaper = 0 → schedVisit k now p = if (!(p2.queue q).ready) = true then
      (p2.delist q).modQueue q (fun e => if e.deficit > 0 && e.occupied = 0 then { e with deficit := 0 } else e)
    else p2.toTail k q := by
  intro p2 h2
  refine (if_neg (open_part hk hf)).trans ?_
  rw [ha]
  dsimp only
  rw [if_pos hs, if_neg (not_true_of_false hh), if_neg (not_bnot_of_true (hasTokens_unshaped hs))]
  exact if_neg (not_bnot_of_true (hasTokens_unshaped h2))

end

section
variable (hq : q / 1048576 = k)
include hq

theorem open_queue : ¬ (decide (q / 2 ^ 20 ≠ k) || decide (k ≥ 16) || p.fenced k) = true := by
  rw [decide_eq_false (not_not_intro (show q / 2 ^ 20 = k from hq)), decide_eq_false (Nat.not_le.mpr hk), hf]
  exact Bool.false_ne_true

section
variable (he : ((p.touchQueue q).queue q).state = .enabled) (hc : ((p.touchQueue q).queue q).kind ≠ .comp)
  (ho : ((p.touchQueue q).queue q).fetchedSlots < ((p.touchQueue q).queue q).occupied)
include he hc ho

theorem descriptorFetch_ring (hr : ((p.touchQueue q).queue q).kind ≠ .frecv) (hi : ((p.touchQueue q).queue q).ias = false) :
    (∀ d t, descriptorFetch k q now (some d) (some t) p = (p.touchQueue q).entry now q d t) ∧
    descriptorFetch k q now none none p = (p.touchQueue q).queueError q := by
  have hring : ¬ (((p.touchQueue q).queue q).ias || decide (((p.touchQueue q).queue q).kind = .frecv)) = true := by
    rw [hi, decide_eq_false hr]
    exact Bool.false_ne_true
  exact ⟨fun d t => (if_neg (open_queue hk hf hq)).trans ((if_neg (fetchable he hc ho)).trans (if_neg hring)),
    (if_neg (open_queue hk hf hq)).trans ((if_neg (fetchable he hc ho)).trans (if_neg hring))⟩

theorem descriptorFetch_ias {d t : Option (List Byte)}
    (hi : ((p.touchQueue q).queue q).kind = .frecv ∨ ((p.touchQueue q).queue q).ias = true) :
    let p1 := p.touchQueue q
    let e := p1.queue q
    let left := e.occupied - e.fetchedSlots
    let b := p1.ringSlots e e.nextSlot left
    (p1.ringHere e e.nextSlot left = false → descriptorFetch k q now d t p = p1.ringWant e e.nextSlot left) ∧
    (p1.ringHere e e.nextSlot left = true → p1.poison = [] → p1.weak = [] →
      descriptorFetch k q now d t p = p1.entry now q (b.take 128) (b.drop 128)) := by
  intro p1 e left b
  have hring : (((p.touchQueue q).queue q).ias || decide (((p.touchQueue q).queue q).kind = .frecv)) = true := by
    rcases hi with hi | hi <;> rw [hi]
    · exact Bool.or_true _
    · rfl
  refine ⟨fun hh => (if_neg (open_queue hk hf hq)).trans ((if_neg (fetchable he hc ho)).trans ((if_pos hring).trans
      (if_pos (congrArg not hh)))), fun hh hp hw => (if_neg (open_queue hk hf hq)).trans ((if_neg (fetchable he hc ho)).trans
      ((if_pos hring).trans ((if_neg (not_bnot_of_true hh)).trans ?_)))⟩
  have hu : ∀ us, (p.touchQueue q).readUnits us = (p.touchQueue q, none) := fun us => by
    refine if_pos ?_
    rw [show (p.touchQueue q).poison = [] from hp, show (p.touchQueue q).weak = [] from hw]
    rfl
  rw [hu]

end

theorem ringAccessError_plain (hi : (p.queue q).ias = false) (hr : (p.queue q).kind ≠ .frecv)
    (hj : ((p.touchQueue q).queueError q).jobAt 0 .records = none) : ringAccessError k q 0 p = (p.touchQueue q).queueError q := by
  refine (if_neg ?_).trans ?_
  · rw [Bool.or_assoc, Bool.or_eq_true, hi, decide_eq_false hr]
    exact fun h => h.elim (open_queue hk hf hq) Bool.false_ne_true
  · dsimp only
    rw [hj]

end

end

section
variable {s : State} {j : Nat} {jb : Job} (hw : s.works = true) (hj : s.pipe.jobs.get? j = some jb) (h1 : s.pipe.firstAt j = true)
  (hf : s.pipe.fenced jb.home = false)
include hw hj h1 hf

theorem exec_completion (hb : jb.batch = false) : exec (.completion j) s = .next (s.completeJob j true) := by
  refine congrArg Host.Outcome.next ((if_pos hw).trans ?_)
  rw [hj]
  dsimp only
  rw [h1, hf, hb]
  rfl

theorem exec_completion_forces (hb : jb.batch = true) (hd : s.pipe.dirtyMax = 0)
    (hl : ∃ e ∈ (s.pipe.flash jb.home).log, e.queue = jb.queue ∧ e.tag = jb.tag ∧ e.programmed = false) :
    exec (.completion j) s = .next (withPipe s (s.pipe.forceLog j jb.home)) := by
  refine congrArg Host.Outcome.next ((if_pos hw).trans ?_)
  have hany : ((s.pipe.flash jb.home).log.any fun e => e.queue == jb.queue && e.tag == jb.tag && !e.programmed) = true := by
    obtain ⟨e, he, hq, ht, hp⟩ := hl
    exact List.any_eq_true.mpr ⟨e, he, by rw [hq, ht, hp]; simp⟩
  rw [hj]
  dsimp only
  rw [h1, hf, hb, hd, hany]
  rfl

end

/-- Settles O51: a doorbell by the doorbells before it, its queue and what its entry needs. -/
theorem doorbellAndDispatchRows : Obligations.DoorbellAndDispatchRows := by
  refine ⟨fun s hr => ⟨fun k v h hc hk hf => ?_, fun v => ?_⟩, fun s k hc hk hf => ?_⟩
  · intro q i p e
    refine ⟨fun n hn => exec_almDoorbell hr hc hk (almDoorbell_drops (.inl hn)),
      fun hq => exec_almDoorbell hr hc hk (almDoorbell_drops (.inr hq)), fun hq hp => ?_⟩
    intro bells setBells
    refine ⟨fun hb => ⟨fun hany => exec_almDoorbell hr hc hk ((almDoorbell_behind hq hp hf hb).trans (if_pos hany)), fun hany =>
        ⟨fun hl => exec_almDoorbell hr hc hk ((almDoorbell_behind hq hp hf hb).trans ((if_neg (not_true_of_false hany)).trans
          (if_neg (Nat.not_le.mpr hl)))), fun hl => exec_almDoorbell hr hc hk ((almDoorbell_behind hq hp hf hb).trans
          ((if_neg (not_true_of_false hany)).trans (if_pos hl)))⟩⟩,
      fun hb hd => exec_almDoorbell hr hc hk (almDoorbell_alone hq hp hf hb (bell_drops hd)), fun hb hs => ⟨fun hkind =>
        exec_almDoorbell hr hc hk (almDoorbell_alone hq hp hf hb (bell_submission hs hkind)), fun hkind hi => ?_, fun b hkind ha hi => ?_,
        fun hkind ha hi => exec_almDoorbell hr hc hk (almDoorbell_alone hq hp hf hb (bell_comp_ring hs hkind ha hi).2),
        fun hkind ha hi => ⟨fun hready => ?_, fun hready =>
          exec_almDoorbell hr hc hk (almDoorbell_alone hq hp hf hb ((bell_comp_ias hs hkind ha hi).2 hready))⟩⟩⟩
    · rw [← consume_at_pidx hi]
      exact exec_almDoorbell hr hc hk (almDoorbell_alone hq hp hf hb (bell_comp_pidx hs hkind hi))
    · rw [← consume_entry hi]
      exact exec_almDoorbell hr hc hk (almDoorbell_alone hq hp hf hb ((bell_comp_ring hs hkind ha hi).1 b))
    · rw [← consume_entry hi]
      exact exec_almDoorbell hr hc hk (almDoorbell_alone hq hp hf hb ((bell_comp_ias hs hkind ha hi).1 hready))
  · intro f i dropped
    exact ⟨fun c hc he => exec_sendRingDoorbell hr hc he, fun r hx => exec_receiveRingDoorbell hr hx,
      fun c hx => exec_errorRingDoorbell hr hx, fun d hx => exec_eventRingDoorbell hr hx,
      fun hx => exec_receiveRingDoorbell_none hr hx, fun n vf hn hv => exec_errorRingDoorbell_short hr hn hv,
      fun k hv => exec_eventRingDoorbell_vf hr hv⟩
  · intro p now
    refine ⟨fun q rest hd ho ha hs => ?_, fun q raw hd hq => ?_, fun q hq hi hr hj => congrArg Host.Outcome.next
      ((onPipe_perform hc _).trans (congrArg (perform s) (ringAccessError_plain hk hf hq hi hr hj))),
      fun j jb hj h1 hh hb => exec_completion hc.1 hj h1 (hh ▸ hf) hb, fun j jb hj h1 hh hb hdm hl => ?_⟩
    · have hvisit : ∀ {x : Pipe}, schedVisit k now p = x → exec (.schedVisit k) s = .next (perform s x) := fun hx =>
        congrArg Host.Outcome.next ((if_pos (by rw [hd, ho]; rfl)).trans ((onPipe_perform hc _).trans (congrArg (perform s) hx)))
      refine ⟨fun hh => hvisit (schedVisit_held hk hf ha hs hh), fun hh => ?_⟩
      intro p2
      exact ⟨fun h2 hready => hvisit ((schedVisit_visits hk hf ha hs hh h2).trans (if_neg (not_bnot_of_true hready))),
        fun h2 hready => hvisit ((schedVisit_visits hk hf ha hs hh h2).trans (if_pos (congrArg not hready)))⟩
    · intro p1 e he hkind ho
      have hf' : (p.rawErrors raw).fenced k = false := (p.rawErrors_fenced raw k).trans hf
      have hfetch : ∀ {d t : HostData} {x : Pipe}, descriptorFetch k q now d t (p.rawErrors raw) = x →
          exec (.descriptorFetch k ⟨q, raw⟩ d t) s = .next (perform s x) := fun hx =>
        congrArg Host.Outcome.next ((if_pos hd).trans ((onPipe_perform hc _).trans (congrArg (perform s) hx)))
      refine ⟨fun hr hi => ?_, fun d t hi => ?_⟩
      · obtain ⟨h1, h2⟩ := descriptorFetch_ring (now := now) hk hf' hq he hkind ho hr hi
        exact ⟨fun d t => hfetch (h1 d t), hfetch h2⟩
      · intro left b
        obtain ⟨h1, h2⟩ := descriptorFetch_ias (now := now) (d := d) (t := t) hk hf' hq he hkind ho hi
        exact ⟨fun hh => hfetch (h1 hh), fun hh hp hw => hfetch (h2 hh hp hw)⟩
    · subst hh
      exact exec_completion_forces hc.1 hj h1 hf hb hdm hl

end Sys2Proof.Machine
end

section
/-!
PROOF. The rows of bags, of end messages, of ingest, of piece compaction and of checkpoints.
-/
namespace Sys2Proof.Machine
open Sys2Proof.Claims

/-! ## Lists and parts -/

theorem length_insertBy {α : Type} (lt : α → α → Bool) (x : α) (l : List α) : (insertBy lt x l).length = l.length + 1 := by
  induction l with
  | nil => rfl
  | cons y l ih =>
    unfold insertBy
    split
    · rfl
    · exact congrArg (· + 1) ih

theorem length_sortBy {α : Type} (lt : α → α → Bool) (l : List α) : (sortBy lt l).length = l.length := by
  have h : ∀ (l acc : List α), (l.foldl (fun acc x => insertBy lt x acc) acc).length = acc.length + l.length := fun l => by
    induction l with
    | nil => exact fun acc => rfl
    | cons x l ih =>
      intro acc
      rw [List.foldl_cons, ih, length_insertBy, List.length_cons]
      omega
  exact (h l []).trans (Nat.zero_add _)

theorem sortBy_ne_nil {α : Type} {lt : α → α → Bool} {l : List α} (h : l ≠ []) : sortBy lt l ≠ [] := fun he =>
  h (List.length_eq_zero_iff.mp ((length_sortBy lt l).symm.trans (congrArg List.length he)))

theorem modNth_congr {α : Type} {l : List α} {i : Nat} {f g : α → α} (h : ∀ x, l[i]? = some x → f x = g x) :
    modNth l i f = modNth l i g := by
  refine List.ext_getElem? fun j => ?_
  rw [getElem?_modNth, getElem?_modNth]
  split
  · rename_i hij
    subst hij
    cases hx : l[i]? with
    | none => rfl
    | some x => exact congrArg some (h x hx)
  · rfl

theorem Pipe.modPart_congr {p : Pipe} {k : Nat} {f g : Part → Part} (h : f (p.part k) = g (p.part k)) : p.modPart k f = p.modPart k g :=
  congrArg (fun l => { p with parts := l }) (modNth_congr fun x hx => by
    have hp : p.part k = x := by rw [Pipe.part, hx]; rfl
    rw [← hp]
    exact h)

/-! ## Rows of the firmware and of index objects -/

section
variable {s : State}

theorem onFirmware_perform (hc : Calm s) (hr : s.coel.state = .ready) (f : Pipe → Pipe) : s.onFirmware f = perform s (f s.pipe) :=
  (if_pos hr).trans (onPipe_perform hc f)

theorem onObjects_perform (hc : Calm s) (hr : s.coel.state = .ready) (hd : s.coel.dpen = true) (f : Pipe → Pipe) :
    s.onObjects f = perform s (f s.pipe) := (if_pos hd).trans (onFirmware_perform hc hr f)

theorem onObjects_idle (hc : Calm s) (hr : s.coel.state = .ready) {f : Pipe → Pipe} (hf : f s.pipe = s.pipe) :
    s.onObjects f = perform s s.pipe := by
  cases hd : s.coel.dpen with
  | true => rw [onObjects_perform hc hr hd, hf]
  | false =>
    rw [perform_quiet hc.2]
    exact if_neg (not_true_of_false hd)

end

/-! ## Checkpoints -/

/-- Another pipeline has the same jobs and the same checkpoint under way. -/
def Pipe.SameWork (p q : Pipe) : Prop := q.jobs = p.jobs ∧ q.ckptCut = p.ckptCut

theorem Pipe.SameWork.foldl {α : Type} {f : Pipe → α → Pipe} (h : ∀ (p : Pipe) (x : α), p.SameWork (f p x)) (l : List α) (p : Pipe) :
    p.SameWork (l.foldl f p) := by
  induction l generalizing p with
  | nil => exact ⟨rfl, rfl⟩
  | cons x l ih => exact ⟨(ih _).1.trans (h p x).1, (ih _).2.trans (h p x).2⟩

theorem sameWork_ckpt (p : Pipe) (k cut : Nat) : p.SameWork ((p.journalCkpt k cut).retireLogs k cut) := by
  have h : (p.journalCkpt k cut).SameWork ((p.journalCkpt k cut).retireLogs k cut) := by
    unfold Pipe.retireLogs
    refine Pipe.SameWork.foldl ?_ _ _
    exact fun _ _ => ⟨rfl, rfl⟩
  exact h

theorem ckptDone_spec {p : Pipe} {c : Ckpt} (hc : p.ckptCut = some c) (hp : ∀ k, k < 16 → p.fenced k = true ∨ (p.flash k).progs = []) :
    (ckptDone p).ckptCut = none ∧
    (∃ c1, (ckptDone p).nand.ckpt = some c1 ∧ c1.pub = c.pub ∧ c1.oldest = c.oldest ∧ c1.handles = c.handles) ∧
    (ckptDone p).jobs = p.jobs := by
  unfold ckptDone
  rw [hc]
  dsimp only
  rw [if_neg]
  · have hw := Pipe.SameWork.foldl (fun p (k : Nat) => sameWork_ckpt p k (c.cuts.getD k 0)) ((List.range 16).filter (fun k => !p.fenced k))
    exact ⟨(hw _).2, ⟨_, rfl, rfl, rfl, rfl⟩, (hw _).1⟩
  · refine not_true_of_false (List.any_eq_false.mpr fun k hk => ?_)
    rcases hp k (List.mem_range.mp hk) with hp | hp <;> rw [hp]
    · exact Bool.false_ne_true
    · simp

theorem checkpoint_starts {p : Pipe} {pub now : Nat} (hcut : p.ckptCut = none) (hdue : p.ckptMs ≠ 0 ∨ p.ckptNow = true)
    (hpair : p.pair.isSome = true) (hmay : ∀ k, k < 16 → p.fenced k = false → p.maintMay k 3 now = true)
    (hrec : ∀ q ∈ p.parts, ∀ r ∈ q.recs, r.step ≠ .issued) : checkpoint pub now p = p.dirtyPages.foldl (fun p x =>
      (p.setTier x.1 { x.2 with dirty := false }).modFlash x.2.home (fun f => { f with progs := f.progs ++ [.page x.1] }))
      { p with ckptCut := some (p.cut pub), ckptNow := false } := by
  have hshort : ((List.range 16).any fun k => !p.fenced k && !p.maintMay k 3 now) = false := by
    refine List.any_eq_false.mpr fun k hk => ?_
    cases hf : p.fenced k with
    | true => exact Bool.false_ne_true
    | false =>
      rw [hmay k (List.mem_range.mp hk) hf]
      exact Bool.false_ne_true
  have hissued : (p.parts.any fun q => q.recs.any fun r => r.step == .issued) = false :=
    List.any_eq_false.mpr fun q hq => not_true_of_false (List.any_eq_false.mpr fun r hr => by simpa using hrec q hq r hr)
  have hwait : (decide (p.ckptMs = 0) && !p.ckptNow) = false := by
    rcases hdue with h | h
    · rw [decide_eq_false h, Bool.false_and]
    · rw [h]
      exact Bool.and_false _
  refine if_neg ?_
  rw [hwait, hcut, hshort, hissued, Option.isNone_eq_false_iff.mpr hpair]
  exact Bool.false_ne_true

/-! ## Bags and end messages -/

/-- What the handler of kernel n does with an end message, which goes behind the others when it must wait (R356). -/
def Pipe.handleEnd (p : Pipe) (k : Nat) (m : EndMsg) (n : Nat) : Pipe :=
  let later := fun (r : Pipe × Bool) => if r.2 then r.1 else r.1.modCore k (fun c => { c with ends := c.ends ++ [m] })
  match n with
  | 1 => p.blockEnd k m
  | 2 => later (p.appendEnd k m)
  | 3 => p.stampEnd k m
  | 4 => p.poolEnd m
  | 5 => later (p.compactEnd k m)
  | 6 => p.bitmapEnd m
  | 7 => p
  | _ => p.scanEnd k m

theorem endMessage_eq {p : Pipe} {k : Nat} {m : EndMsg} {rest : List EndMsg} (hm : (p.core k).ends = m :: rest) (hf : p.fenced k = false) :
    endMessage k p = if m.req.handOff then p.modCore k (fun c => { c with ends := rest })
      else (p.modCore k (fun c => { c with ends := rest })).handleEnd k m m.req.kernel := by
  unfold endMessage
  rw [hm]
  exact if_neg (not_true_of_false hf)

theorem handleEnd_scan {p : Pipe} {k n : Nat} {m : EndMsg} (h : n = 0 ∨ 8 ≤ n) : p.handleEnd k m n = p.scanEnd k m := by
  rcases h with h | h
  · rw [h]
    rfl
  · obtain ⟨i, hi⟩ := Nat.exists_eq_add_of_le' h
    rw [hi]
    rfl

theorem stampRetry_one {p : Pipe} {k : Nat} {t : StampRetry} (hf : p.fenced k = false) (ht : (p.part k).stampRetry = [t])
    (ho : p.fenced t.part = false) (hp : p.poison = []) (hh : p.pagesHere (p.pieceSpan t.part t.pc t.piece) = true) :
    stampRetry k p = (p.modPart k (fun q => { q with stampRetry := [] })).inject t.part t.pc
      { NbuReq.zero with kernel := 3, cls := 2, piece := t.piece, repoch := t.u, home := k, arg0 := t.entry } := by
  have hone : p.modPart k (fun q => { q with stampRetry := q.stampRetry.erase t }) = p.modPart k (fun q => { q with stampRetry := [] }) :=
    Pipe.modPart_congr (by rw [ht, List.erase_cons_head])
  refine (if_neg (not_true_of_false hf)).trans ?_
  rw [ht, List.find?_cons_of_pos]
  · dsimp only
    rw [hone]
  · rw [ho, hp, hh]
    rfl

theorem pieceGrow_grows {p p1 : Pipe} {j l pc a : Nat} {jb : Job} {r : IngRec} {x : IdxCopy} (hj : p.jobAt j .records = some jb)
    (hr : p.recOf jb.home j = some r) (hx : p.idxOf jb = some x) (hl : jb.idx = some l) (hfull : r.full = true)
    (hf : p.fenced r.owner = false) (hn : p.need j jb.stage (pagesOf p.variant64 (x.entryAddr r.cluster r.owner) 32 ++
      pagesOf p.variant64 (p.appendTo x r.cluster r.owner).ptab (8 * (p.appendTo x r.cluster r.owner).npiece)) = none)
    (hg : p.growPiece l x r.cluster r.owner = (p1, .piece pc a)) : pieceGrow j p =
      if r.step ≠ .issued then p1.modRec jb.home j (fun r => { r with full := false }) else p1.injectAppend jb.home j x r (pc, a) := by
  unfold pieceGrow
  rw [hj]
  dsimp only
  rw [hr, hx, hl]
  dsimp only
  rw [if_neg (not_bnot_of_true hfull), if_neg (not_true_of_false hf), hn, hg]

theorem withOut_nil (p : Pipe) : ({ p with out := p.out ++ [] } : Pipe) = p := by rw [List.append_nil]

theorem eraseDups_ne_nil {α : Type} [BEq α] [LawfulBEq α] {l : List α} (h : l ≠ []) : l.eraseDups ≠ [] := by
  obtain ⟨x, hx⟩ := List.exists_mem_of_ne_nil l h
  exact List.ne_nil_of_mem (List.mem_eraseDups.mpr hx)

/-! ## INGEST_RECORD -/

section
variable {s : State} {j : Nat} {jb : Job} (hc : Calm s) (hj : s.pipe.jobAt j .records = some jb)
include hc hj

theorem exec_ingestRecord_goesOn {r : IngRec} (hrec : s.pipe.recOf jb.home j = some r) (hw : r.replWait = false) :
    exec (.ingestRecord j) s = .next (perform s ((s.pipe.afterLog j).chooseFringe j)) := by
  refine congrArg Host.Outcome.next ((if_pos hc.1).trans ?_)
  rw [hj]
  dsimp only
  rw [hrec]
  dsimp only
  rw [hw]
  exact (if_neg Bool.false_ne_true).trans (onPipe_perform hc _)

section
variable (hrec : s.pipe.recOf jb.home j = none) (hmay : s.pipe.mayRecord j jb = true)
include hrec hmay

theorem exec_ingestRecord_logs (hb : jb.b.repl = false) :
    exec (.ingestRecord j) s = .next (perform s ((s.pipe.logRecord j jb false).1.afterLog j)) := by
  refine congrArg Host.Outcome.next ((if_pos hc.1).trans ?_)
  rw [hj]
  dsimp only
  rw [hrec]
  dsimp only
  rw [if_neg (not_bnot_of_true hmay), if_pos (show (!jb.b.repl) = true by rw [hb]; rfl)]
  exact onPipe_perform hc _

theorem exec_ingestRecord_replicates (hb : jb.b.repl = true) (hs : (s.pipe.part jb.home).sched.short s.mer.now 7 = false)
    (hd : s.connDead jb.b.rconn = false) :
    let r := s.pipe.logRecord j jb true
    exec (.ingestRecord j) s = .next ((withPipe s r.1).replicate jb.home jb.b.rconn r.2).settle := by
  intro r
  refine congrArg Host.Outcome.next ((if_pos hc.1).trans ?_)
  rw [hj]
  dsimp only
  rw [hrec]
  dsimp only
  rw [if_neg (not_bnot_of_true hmay), if_neg (not_bnot_of_true hb), if_neg (not_true_of_false hs), if_neg (not_true_of_false hd)]
  rfl

end

end

/-- Settles O52: each row by what it finds. -/
theorem bagAndIngestRows : Obligations.BagAndIngestRows := by
  refine ⟨fun s j jb hc => ?_, fun s hc => ?_⟩
  · intro p
    refine ⟨fun t hj hf ht => ?_, fun t l hj hf ht hl => ?_, fun x hj hx => ?_, fun k m rest hm hf hr => ?_⟩
    · intro es locs pages keys hrem hopen hhere hne
      refine congrArg Host.Outcome.next ((onPipe_perform hc _).trans (congrArg (perform s) ?_))
      unfold poolIssue
      rw [show s.pipe.jobAt j .bag = some jb from hj]
      dsimp only
      rw [if_neg (not_true_of_false (show s.pipe.fenced jb.home = false from hf)), show jb.etab.bind s.pipe.etabs.get? = some t from ht]
      dsimp only
      split
      · rename_i l hl
        exact absurd (hopen l (List.mem_of_find?_eq_some hl)) (by simpa using List.find?_some hl)
      · split
        · rename_i q hq
          cases hq.symm.trans (if_pos hhere)
        · generalize hR : List.filterMap _ (poolEntries jb.ordered jb.bag) = R
          have hR' : R = [] := by
            rw [← hR]
            refine List.filterMap_eq_nil_iff.mpr fun e he => ?_
            split
            · rename_i r c hplace
              exact absurd hplace (hrem e he r c)
            · rfl
          subst hR'
          rw [if_neg (by exact Bool.false_ne_true), if_neg]
          · exact congrArg (fun q : Pipe => q.modJob j _) (withOut_nil _)
          · have hkeys : keys ≠ [] := sortBy_ne_nil (eraseDups_ne_nil (by simpa using hne))
            rw [Bool.and_eq_true, not_and]
            exact fun h => absurd (List.isEmpty_iff.mp h) hkeys
    · refine congrArg Host.Outcome.next ((onPipe_perform hc _).trans (congrArg (perform s) ?_))
      unfold poolIssue
      rw [show s.pipe.jobAt j .bag = some jb from hj]
      dsimp only
      rw [if_neg (not_true_of_false (show s.pipe.fenced jb.home = false from hf)), show jb.etab.bind s.pipe.etabs.get? = some t from ht]
      dsimp only
      split
      · rename_i l' hl'
        cases hl'.symm.trans hl
        rfl
      · rename_i hl'
        cases hl'.symm.trans hl
    · intro p1
      have hpart : ∀ {q : Pipe}, (if jb.poolWait = 1 then p1.poolFinish j else p1) = q → exec (.poolPartial j) s = .next (perform s q) :=
        fun hq => by
          refine congrArg Host.Outcome.next ((onPipe_perform hc _).trans (congrArg (perform s) ?_))
          unfold poolPartial
          rw [show s.pipe.jobAt j .pooling = some jb from hj]
          dsimp only
          rw [hx]
          exact hq
      exact ⟨fun h1 => hpart (if_neg h1), fun h1 => hpart (if_pos h1)⟩
    · intro p0 later took
      have hend : ∀ {q : Pipe}, (if m.req.handOff then p0 else p0.handleEnd k m m.req.kernel) = q →
          exec (.endMessage k) s = .next (perform s q) := fun hq =>
        congrArg Host.Outcome.next ((if_pos hr).trans ((onPipe_perform hc _).trans (congrArg (perform s) ((endMessage_eq hm hf).trans hq))))
      refine ⟨fun ho => hend (if_pos ho), fun ho => ?_⟩
      have hkern : ∀ {n : Nat}, m.req.kernel = n → exec (.endMessage k) s = .next (perform s (p0.handleEnd k m n)) :=
        fun hk => hend ((if_neg (not_true_of_false ho)).trans (congrArg (p0.handleEnd k m) hk))
      exact ⟨fun hk => (hkern rfl).trans (congrArg (fun q => Host.Outcome.next (perform s q)) (handleEnd_scan hk)), fun hk => hkern hk,
        fun hk => hkern hk, fun hk => hkern hk, fun hk => hkern hk, fun hk => hkern hk, fun hk => hkern hk, fun hk => hkern hk⟩
  · intro p
    refine ⟨fun j jb hj => ?_, fun k raw p1 => ?_, fun hr => ?_⟩
    · refine ⟨fun r hrec hw => exec_ingestRecord_goesOn hc hj hrec hw, fun hrec hmay hb => exec_ingestRecord_logs hc hj hrec hmay hb,
        fun hrec hmay hb hs hd => exec_ingestRecord_replicates hc hj hrec hmay hb hs hd⟩
    · intro p0 hf hl
      refine congrArg Host.Outcome.next ((onPipe_perform hc _).trans (congrArg (perform s) ((if_neg (not_true_of_false hf)).trans ?_)))
      rw [hl]
    · refine ⟨fun j jb r x l p1 pc a hd hj hrec hx hl hfull hf hn hg => ?_, fun k t hd hf ht ho hp hh =>
        congrArg Host.Outcome.next ((onObjects_perform hc hr hd _).trans (congrArg (perform s) (stampRetry_one hf ht ho hp hh))),
        fun k h c i hd => congrArg Host.Outcome.next (onObjects_perform hc hr hd _),
        fun k h c i hh => congrArg Host.Outcome.next (onObjects_idle hc hr ?_), fun k c hd hf hcomp =>
        congrArg Host.Outcome.next ((onObjects_perform hc hr hd _).trans (congrArg (perform s) ((if_neg (not_true_of_false hf)).trans ?_))),
        fun hcut hdue hpair hmay hrec => congrArg Host.Outcome.next ((onFirmware_perform hc hr _).trans
          (congrArg (perform s) (checkpoint_starts hcut hdue hpair hmay hrec))),
        fun c hcut hp => ⟨ckptDone p, congrArg Host.Outcome.next (onFirmware_perform hc hr _), ckptDone_spec hcut hp⟩⟩
      · have hgrow : ∀ {q : Pipe}, pieceGrow j p = q → exec (.pieceGrow j) s = .next (perform s q) := fun hq =>
          congrArg Host.Outcome.next ((onObjects_perform hc hr hd _).trans (congrArg (perform s) hq))
        have hrow := pieceGrow_grows hj hrec hx hl hfull hf hn hg
        exact ⟨fun hstep => hgrow (hrow.trans (if_pos hstep)), fun hstep => hgrow (hrow.trans (if_neg (not_not_intro hstep)))⟩
      · unfold pieceCompact
        rw [hh]
      · rw [hcomp]

end Sys2Proof.Machine
end

section
/-!
PROOF. The rows of pages that move between the tiers.
-/
namespace Sys2Proof.Machine
open Sys2Proof.Claims

theorem spill_only {p : Pipe} {k : Nat} {pc piece now : Nat} (hm : p.maintMay k 5 now = true) (hl : p.free k < (p.part k).lowMark + (p.part k).migresOf)
    (hs : p.spillable k (pc, piece) = true) (ho : ((p.part k).ordMap.vals.map (fun m => (m.1, m.2.1))).eraseDups = [(pc, piece)]) :
    spill k pc piece now p = (p.pieceSpan k pc piece).foldl (fun (p : Pipe) pg =>
      let e := p.tier pg
      if e.dirty || e.loc.isNone then
        (p.setTier pg { e with st := .out, dirty := false }).modFlash k (fun f => { f with progs := f.progs ++ [.page pg] })
      else p.setTier pg { e with st := .flash }) p := by
  refine if_neg ?_
  rw [ho, hm, decide_eq_false (Nat.not_le.mpr hl), hs]
  simp

section
variable {p : Pipe} {k : Nat} (hf : p.fenced k = false)
include hf

theorem pageMoveIn_reads {i n m ex po : Nat} {pg : PageId} {pre lost : Bool} (hr : (p.flash k).reads[i]? = some (.page pg pre))
    (hin : (p.tier pg).st = .in_) (hl : (p.tier pg).loc = some (ex, po)) (hpair : p.pair.isSome = true)
    (hok : (p.flash k).okLoc ex (16 * po) = true) :
    let e := p.tier pg
    let p2 := ((p.modFlash k (fun f => { f with reads := f.reads.eraseIdx i })).modFlash k (fun f =>
      f.readCounts ex n m)).chargeMove k (if pre then [] else p.demands pg) 5
    let p3 := p2.modPart k (fun q => { q with movesIn := q.movesIn + 1 })
    pageMoveIn k i n m lost p = if lost then (p.demands pg).foldl (fun p j => p.endJob j stABORTED (some k))
        ((p2.setTier pg { e with st := .flash }).unitLost k)
      else ((p3.flashFill k ex (16 * po) 16 (hbmKey e.home e.pc (e.frame * 65536))).setTier pg
        { e with st := .hbm, dirty := false }).resume := by
  intro e p2 p3
  refine (if_neg (not_true_of_false hf)).trans ?_
  rw [hr]
  dsimp only
  rw [if_neg (not_not_intro hin), hl]
  dsimp only
  rw [if_pos (show (p.pair.isSome && (p.flash k).okLoc ex (16 * po)) = true by rw [hpair, hok]; rfl)]

theorem flashReadDone_vector {i n m j c e u w : Nat} {lost : Bool} (hr : (p.flash k).reads[i]? = some (.vector j c e u w))
    {jb : Job} {x : IdxCopy} :
    let p1 := (p.modFlash k (fun f => { f.readCounts e n m with reads := f.reads.eraseIdx i })).charge j k 3 w
    p1.jobs.get? j = some jb → p1.idxOf jb = some x → jb.phase = .reranking → flashReadDone k i n m lost p =
      if lost then (p1.unitLost k).endJob j stABORTED (some k) else ((p1.modJob j (fun y =>
        { y with readsOut := y.readsOut - 1 })).modJob j (fun y => { y with
          cands := modNth y.cands c (fun d => { d with vec := p1.flashGet k e u x.fullBytes, src := 3 }) })).rerank j := by
  intro p1 hj hx hph
  refine (if_neg (not_true_of_false hf)).trans ?_
  rw [hr]
  dsimp only
  rw [show ((p.modFlash k (fun f => { f.readCounts e n m with reads := f.reads.eraseIdx i })).charge j k 3 w).jobs.get? j = some jb from hj]
  dsimp only
  rw [show ((p.modFlash k (fun f => { f.readCounts e n m with reads := f.reads.eraseIdx i })).charge j k 3 w).idxOf jb = some x from hx,
    hph]

end

/-- Settles O53: each row by the read, the program or the piece that it takes. -/
theorem pageRows : Obligations.PageRows := by
  intro s k hc hf p
  have hrow : ∀ {f : Pipe → Pipe} {q : Pipe}, f p = q → s.onPipe f = perform s q := fun hq =>
    (onPipe_perform hc _).trans (congrArg (perform s) hq)
  refine ⟨fun i n m pg pre ex po hr hin hl hpair hok => ?_, fun pg p1 ex u hp hout hl => ?_, fun hr hd pc piece hm hl hs ho =>
    congrArg Host.Outcome.next ((onObjects_perform hc hr hd _).trans (congrArg (perform s) (spill_only hm hl hs ho))),
    fun i n m j c e u w jb x hr => ?_⟩
  · intro e p2 p3
    exact ⟨congrArg Host.Outcome.next (hrow ((pageMoveIn_reads hf hr hin hl hpair hok).trans (if_neg Bool.false_ne_true))),
      congrArg Host.Outcome.next (hrow ((pageMoveIn_reads hf hr hin hl hpair hok).trans (if_pos rfl)))⟩
  · intro e hput a
    refine congrArg Host.Outcome.next (hrow ((if_neg (not_true_of_false hf)).trans ?_))
    generalize hfirst : List.find? _ (p.flash k).progs = o
    obtain rfl : o = some (.page pg) := hfirst.symm.trans hp
    dsimp only
    rw [if_neg (by rw [hout]; decide), hput]
    dsimp only
    rw [hl, if_pos hout]
  · intro p1 hj hx hph
    exact ⟨congrArg Host.Outcome.next (hrow ((flashReadDone_vector hf hr hj hx hph).trans (if_neg Bool.false_ne_true))),
      congrArg Host.Outcome.next (hrow ((flashReadDone_vector hf hr hj hx hph).trans (if_pos rfl)))⟩

end Sys2Proof.Machine
end

section
/-!
PROOF. The rows of the flash media.
-/
namespace Sys2Proof.Machine
open Sys2Proof.Claims

theorem flash_count (p : Pipe) (k act res n j : Nat) : (p.count k act res n).flash j = p.flash j := by
  unfold Pipe.count Pipe.modPart Pipe.flash Pipe.part
  rw [getElem?_modNth]
  split
  · cases p.parts[j]? <;> rfl
  · rfl

theorem onMedia_perform {s : State} (hc : Calm s) (alarm : BitVec 8) (f : Pipe → Pipe) : s.onMedia alarm f = perform s (f s.pipe) := by
  refine (if_neg fun hflush => ?_).trans (onPipe_perform hc f)
  have hw := hc.1
  rw [State.works, hflush, Bool.and_assoc] at hw
  simp at hw

section
variable {p : Pipe} {k : Nat}

theorem remapBlock_none {e pos : Nat} {copy : Bool} (h : (p.flash k).remap e pos = none) :
    p.remapBlock k e pos copy = ({ p with out := p.out ++ (p.flash k).spareFault k pos }, false) := by
  unfold Pipe.remapBlock
  dsimp only
  rw [h]

theorem remapBlock_some {e pos slot spare : Nat} {copy : Bool} {f1 : FlashPart} (h : (p.flash k).remap e pos = some (f1, slot, spare)) :
    let p1 := (p.modFlash k (fun _ => f1)).journal k .records [.remap e slot pos spare]
    let p2 := { p1 with out := p1.out ++ f1.spareFault k pos }
    p.remapBlock k e pos copy = if copy then
      (({ p2 with media := p2.media.copyBlock ((p.flash k).posKey k e pos) (f1.posKey k e pos) } : Pipe).count k 4 3
        (2 * (4 * ceilDiv ((p.flash k).ext e).fill rowUnits)), true) else (p2, true) := by
  unfold Pipe.remapBlock
  dsimp only
  rw [h]

/-! ## Programs and erases -/

theorem programDone_logPage {seqs : List Nat}
    (h : (p.flash k).progs.find? (fun g => match g with | .page _ => false | _ => true) = some (.logPage seqs)) :
    programDone k p = (p.modFlash k (fun f => { f with progs := f.progs.erase (.logPage seqs) })).modFlash k (fun f => f.logDone seqs) := by
  unfold programDone
  dsimp only
  split
  · rename_i hn
    cases hn.symm.trans h
  · rename_i g hg
    cases hg.symm.trans h
    rfl

theorem programFail_moves {e pos slot spare : Nat} {f1 : FlashPart} (hp : (p.flash k).firstProg = some (e, pos))
    (h : (p.flash k).remap e pos = some (f1, slot, spare)) : programFail k p = (p.remapBlock k e pos true).1 := by
  unfold programFail
  rw [hp]
  dsimp only
  rw [remapBlock_some h]
  rfl

theorem programFail_retires {e pos : Nat} (hp : (p.flash k).firstProg = some (e, pos)) (h : (p.flash k).remap e pos = none)
    (hfree : (p.flash k).pickFree = none) : programFail k p = ((({ p with out := p.out ++ (p.flash k).spareFault k pos } : Pipe).seal
      k e).modFlash k (fun f => f.modExt e (fun x => { x with st := .retired }))).journalExt k e .retire := by
  unfold programFail
  rw [hp]
  dsimp only
  rw [remapBlock_none h]
  dsimp only
  rw [show ({ p with out := p.out ++ (p.flash k).spareFault k pos } : Pipe).flash k = p.flash k from rfl, hfree]

section
variable {e : Nat} {rest : List Nat} (he : (p.flash k).erases = e :: rest)
include he

theorem eraseDone_suspended (h : p.suspended k ≠ []) : eraseDone k p = p := by
  unfold eraseDone
  rw [he]
  exact if_pos (by simpa using h)

theorem eraseDone_even (h : p.suspended k = []) (hw : ((p.erased k e rest).flash k).wearPair (p.erased k e rest).wllim = none) :
    eraseDone k p = p.erased k e rest := by
  unfold eraseDone
  rw [he]
  dsimp only
  rw [h]
  refine (if_neg Bool.false_ne_true).trans ?_
  rw [hw]

theorem eraseFail_moves {pos slot spare : Nat} {f1 : FlashPart} (h : (p.flash k).remap e (pos % 64) = some (f1, slot, spare)) :
    eraseFail k pos p = (p.remapBlock k e (pos % 64) false).1 := by
  unfold eraseFail
  rw [he]
  dsimp only
  rw [remapBlock_some h]
  rfl

theorem eraseFail_retires {pos : Nat} (h : (p.flash k).remap e (pos % 64) = none) : eraseFail k pos p =
    ((({ p with out := p.out ++ (p.flash k).spareFault k (pos % 64) } : Pipe).modFlash k (fun f =>
      { f.modExt e (fun x => { x with st := .retired }) with erases := rest })).journalExt k e .retire) := by
  unfold eraseFail
  rw [he]
  dsimp only
  rw [remapBlock_none h]

end

/-! ## Retirement, compaction and scrubbing -/

theorem not_held {e : Nat} (h : ∀ m ∈ (p.flash k).maint, m.holds e = false) : (p.flash k).maint.any (fun m => m.holds e) = false :=
  List.any_eq_false.mpr fun m hm => not_true_of_false (h m hm)

theorem extentRetire_erases {e : Nat} (hs : ((p.flash k).ext e).st = .retiring) (hr : ((p.flash k).ext e).readers = [])
    (hw : ∀ r ∈ ((p.flash k).ext e).waits, r ∉ (p.flash k).reads) (he : (p.flash k).erases.contains e = false)
    (hm : ∀ m ∈ (p.flash k).maint, m.holds e = false) :
    extentRetire k e p = p.modFlash k (fun f => { f with erases := f.erases ++ [e] }) := by
  have hwaits : (((p.flash k).ext e).waits.all fun r => !(p.flash k).reads.contains r) = true :=
    List.all_eq_true.mpr fun r hr => by simpa using hw r hr
  refine if_pos ?_
  rw [hs, hr, hwaits, he, not_held hm]
  rfl

theorem takeLock_free {e rank : Nat} (hm : ∀ m ∈ (p.flash k).maint, m.holds e = false) : p.takeLock k e rank = (p, true) := by
  unfold Pipe.takeLock
  rw [List.find?_eq_none.mpr fun m h => not_true_of_false (hm m h)]

theorem extentCompact_copies {e now : Nat} {p2 : Pipe} {copies : List (Nat × Nat × Nat)} {extra : Nat} (hmay : p.maintMay k 2 now = true)
    (hs : ((p.flash k).ext e).st = .sealed) (hr : ((p.flash k).ext e).role ≠ .log) (he : e < (p.flash k).next) (h0 : p.ecpct ≠ 0)
    (hl : ((p.flash k).ext e).live * 100 ≤ min p.ecpct 90 * ((p.flash k).ext e).fill)
    (hm : ∀ m ∈ (p.flash k).maint, m.holds e = false) :
    let p1 := p.modFlash k (fun f => f.modExt e (fun x => { x with st := .moving }))
    let live := p1.liveUnits k e
    live.foldl (Pipe.copyUnit k e) (p1, [], 0) = (p2, copies, extra) → copies.length = live.length →
    extentCompact k e now p = (p2.modFlash k (fun f => { f with
      maint := f.maint ++ [.compact e copies false], progs := f.progs ++ [.commitComp e] })).count k 2 3
        (((p.flash k).ext e).fill + (live.map (fun m => m.2.2)).foldl (· + ·) 0 + extra) := by
  intro p1 live hcopy hlen
  refine (if_neg ?_).trans ?_
  · rw [hmay, decide_eq_false (Nat.not_le.mpr he), hs, decide_eq_false hr,
      decide_eq_false (show ¬ min p.ecpct 90 = 0 by omega), decide_eq_false (Nat.not_lt.mpr hl)]
    exact Bool.false_ne_true
  · rw [takeLock_free hm]
    dsimp only
    rw [show ((p.modFlash k (fun f => f.modExt e (fun x => { x with st := .moving }))).liveUnits k e).foldl (Pipe.copyUnit k e)
      (p.modFlash k (fun f => f.modExt e (fun x => { x with st := .moving })), [], 0) = (p2, copies, extra) from hcopy]
    exact if_neg (show ¬ copies.length < live.length by omega)

theorem scrubFound_unlisted {r : Nat × Nat × Nat × Nat} (h : (p.flash k).exts = []) : p.scrubFound k r = p := by
  refine if_pos ?_
  rw [FlashPart.ext, h]
  exact ExtSt.noConfusion

theorem scrubPeriod_empty {now : Nat} {found : List (Nat × Nat × Nat × Nat)} (hm : p.maintMay k 6 now = true)
    (he : (p.flash k).exts = []) (hg : p.general = []) (hb : p.bank = []) : scrubPeriod k now found p = p.count k 6 3 0 := by
  have hexts : ((p.count k 6 3 0).flash k).exts = [] := by rw [flash_count, he]
  have hfound : found.foldl (fun p r => p.scrubFound k r) (p.count k 6 3 0) = p.count k 6 3 0 := by
    induction found with
    | nil => rfl
    | cons r found ih => rw [List.foldl_cons, scrubFound_unlisted hexts, ih]
  refine (if_neg (not_bnot_of_true hm)).trans ?_
  dsimp only
  rw [he]
  simp only [List.filter_nil, List.map_nil, List.foldl_nil, hfound, hexts]
  rw [show (p.count k 6 3 0).general = [] from hg, show (p.count k 6 3 0).bank = [] from hb]
  rfl

end

/-- Settles O54: each row by the extent and what holds it. -/
theorem mediaRows : Obligations.MediaRows := by
  intro s k hc p f
  have hrow : ∀ {f : Pipe → Pipe} {q : Pipe}, f p = q → s.onPipe f = perform s q := fun hq =>
    (onPipe_perform hc _).trans (congrArg (perform s) hq)
  have hmedia : ∀ {f : Pipe → Pipe} {q : Pipe} {a : BitVec 8}, f p = q → s.onMedia a f = perform s q := fun hq =>
    (onMedia_perform hc _ _).trans (congrArg (perform s) hq)
  refine ⟨fun hidle => ?_, fun hr => ?_⟩
  · have hat : ∀ {f : Pipe → Pipe}, atFlash k f p = f p := if_neg (not_true_of_false hidle)
    refine ⟨fun seqs hp => congrArg Host.Outcome.next (hrow (hat.trans (programDone_logPage hp))), fun e pos f1 slot spare hp hm => ?_,
      fun e pos hp hm hfree => congrArg Host.Outcome.next (hmedia (hat.trans (programFail_retires hp hm hfree))), fun e rest he => ?_⟩
    · intro p1 p2
      exact congrArg Host.Outcome.next (hmedia (hat.trans ((programFail_moves hp hm).trans (by rw [remapBlock_some hm]; rfl))))
    · intro pec gone p1 p2
      exact ⟨fun h => congrArg Host.Outcome.next (hrow (hat.trans (eraseDone_suspended he h))),
        fun h hw => congrArg Host.Outcome.next (hrow (hat.trans (eraseDone_even he h hw))),
        fun pos f1 slot spare hm => congrArg Host.Outcome.next (hmedia (hat.trans ((eraseFail_moves he hm).trans (by
          rw [remapBlock_some hm]; rfl)))),
        fun pos hm => congrArg Host.Outcome.next (hmedia (hat.trans (eraseFail_retires he hm)))⟩
  · have hfirm : ∀ {f : Pipe → Pipe} {q : Pipe}, f p = q → s.onFirmware f = perform s q := fun hq =>
      (onFirmware_perform hc hr _).trans (congrArg (perform s) hq)
    refine ⟨fun e hs hr hw he hm => congrArg Host.Outcome.next (hfirm (extentRetire_erases hs hr hw he hm)),
      fun e p2 copies extra hmay hs hrole he h0 hl hm => ?_,
      fun c t hmay => congrArg Host.Outcome.next (hfirm (if_pos hmay)),
      fun found hmay he hg hb => congrArg Host.Outcome.next (hfirm (scrubPeriod_empty hmay he hg hb))⟩
    intro p1 live hcopy hlen
    exact congrArg Host.Outcome.next (hfirm (extentCompact_copies hmay hs hrole he h0 hl hm hcopy hlen))

end Sys2Proof.Machine
end

section
/-!
PROOF. The rows of what a connection sends.
-/
namespace Sys2Proof.Machine
open Sys2Proof.Claims

theorem padTo_of_length {n : Nat} {bs : List Byte} (h : bs.length = n) : padTo n bs = bs := by
  rw [padTo, List.take_of_length_le (Nat.le_of_eq h), h, Nat.sub_self]
  exact List.append_nil bs

theorem noError {c : Conn} (he : c.error = none) : ¬ c.error.isSome = true := by
  rw [he]
  exact Bool.false_ne_true

theorem startEntry_credit {s : State} {n : Nat} {c : Conn} {m : PkgMsg} (h : m.write = true ∨ c.sendCredit = true) (tag : Option Nat) (take : Conn → Conn) :
    s.startEntry n c m tag take =
      s.onFab ({ s.fab with conns := s.fab.conns.set n ((take c).start m tag).1 }, ((take c).start m tag).2) := by
  refine if_neg ?_
  rcases h with h | h <;> rw [h]
  · exact Bool.false_ne_true
  · rw [Bool.not_true, Bool.and_false]
    exact Bool.false_ne_true

section
variable {s : State} {n : Nat} {c : Conn} (hq : s.quiet = false) (hc : s.fab.conns.get? n = some c)
include hq hc

theorem onConn_known (go : Conn → State) : s.onConn n go = (go c).settle := by
  refine (if_neg (not_true_of_false hq)).trans ?_
  rw [hc]

section
variable (he : c.error = none)
include he

/-! ## Entries -/

theorem exec_sendEntry_pkg {m : PkgMsg} {rest : List PkgMsg} {e d : HostData} (hp : c.pkg = m :: rest)
    (hs : s.flush.state ≠ .idle ∨ (s.pipe.part (connHome n)).sched.shortIn s.mer.now c.cfg.act 4 = false)
    (hm : m.write = true ∨ c.sendCredit = true) :
    let r := ({ c with pkg := rest } : Conn).start m none
    exec (.sendEntry n e d) s = .next (s.onFab ({ s.fab with conns := s.fab.conns.set n r.1 }, r.2)) := by
  intro r
  refine congrArg Host.Outcome.next ((if_neg (not_true_of_false hq)).trans ?_)
  rw [hc]
  dsimp only
  rw [if_neg (noError he), if_neg, hp]
  · exact startEntry_credit hm none _
  · rw [Bool.and_eq_true, not_and]
    exact fun hi => not_true_of_false (hs.resolve_left (not_not_intro (of_decide_eq_true hi)))

theorem exec_sendEntry_ring {b : List Byte} {d : HostData} (hp : c.pkg = []) (hi : s.flush.state = .idle)
    (hs : (s.pipe.part (connHome n)).sched.shortIn s.mer.now c.cfg.act 4 = false) (hl : c.sendLeft ≠ 0) (hloc : c.cfg.sloc = false)
    (hb : b.length = 64) (hpay : (workEntry b [] c.cfg.act (connHome n)).1.payload = []) :
    let w := workEntry b [] c.cfg.act (connHome n)
    (w.1.write = true ∨ c.sendCredit = true) →
    let r := ({ c with snext := (c.snext + 1) % c.cfg.ssize } : Conn).start w.1 (some w.2)
    exec (.sendEntry n (some b) d) s = .next (s.onFab ({ s.fab with conns := s.fab.conns.set n r.1 }, r.2)) := by
  intro w hm r
  have hfetch : s.fetchBytes c.cfg.sloc (c.cfg.sbase + 64 * c.snext) 64 (some b) = some b := by
    rw [hloc]
    exact congrArg some (padTo_of_length hb)
  refine congrArg Host.Outcome.next ((if_neg (not_true_of_false hq)).trans ?_)
  rw [hc]
  dsimp only
  rw [if_neg (noError he), if_neg, hp]
  · dsimp only
    rw [if_neg, hfetch]
    · dsimp only
      rw [hpay]
      exact startEntry_credit hm _ _
    · rw [hi, decide_eq_false hl]
      exact Bool.false_ne_true
  · rw [hs, Bool.and_false]
    exact Bool.false_ne_true

/-! ## Timers -/

theorem exec_retransmitTimeout : exec (.retransmitTimeout n) s = .next ({ s with fab := s.fab.modConn n Conn.timeout } : State).settle :=
  congrArg Host.Outcome.next ((onConn_known hq hc _).trans (congrArg State.settle (if_neg (noError he))))

theorem exec_rnrDelay : exec (.rnrDelay n) s = .next ({ s with fab := s.fab.modConn n Conn.rnrDelay } : State).settle :=
  congrArg Host.Outcome.next ((onConn_known hq hc _).trans (congrArg State.settle (if_neg (noError he))))

theorem exec_ackTimer (ha : c.ackOwed = true) : exec (.ackTimer n) s = .next (s.ctl n 2 0 0 0).settle :=
  congrArg Host.Outcome.next ((onConn_known hq hc _).trans (congrArg State.settle (if_neg (by
    rw [he, ha]
    exact Bool.false_ne_true))))

theorem exec_gapTimer {psn : Nat} (hg : c.gap = some psn) : exec (.gapTimer n) s = .next (s.ctl n 3 0 psn 0).settle := by
  refine congrArg Host.Outcome.next ((onConn_known hq hc _).trans (congrArg State.settle ((if_neg (noError he)).trans ?_)))
  rw [hg]

theorem exec_creditTimer (hl : c.mlimNow ≠ c.sentMlim ∨ c.blimNow ≠ c.sentBlim) :
    exec (.creditTimer n) s = .next (s.ctl n 4 0 0 0).settle := by
  refine congrArg Host.Outcome.next ((onConn_known hq hc _).trans (congrArg State.settle (if_neg ?_)))
  rw [he, Option.isSome_none, Bool.false_or, Bool.and_eq_true, decide_eq_true_eq, decide_eq_true_eq]
  exact fun ⟨h1, h2⟩ => hl.elim (absurd h1) (absurd h2)

theorem exec_keepaliveTimer : exec (.keepaliveTimer n) s = .next (s.ctl n 5 0 0 0).settle :=
  congrArg Host.Outcome.next ((onConn_known hq hc _).trans (congrArg State.settle (if_pos (by rw [he]; rfl))))

/-! ## Writes that are placed -/

section
variable {x : RxPkt} (hx : c.staged.find? c.placeable = some x)
include hx

theorem exec_writePlace_fails {cause : ErrCause} (hk : s.fab.check c x s.fencedList = some cause) :
    exec (.writePlace n) s = .next (s.onFab (s.fab.failSend n cause x.msn x.psn x.rkey s.quiet)) := by
  refine congrArg Host.Outcome.next ((if_neg (not_true_of_false hq)).trans ?_)
  rw [hc]
  dsimp only
  rw [if_neg (noError he), hx]
  dsimp only
  rw [hk]

theorem exec_writePlace_places {g : Region} (hk : s.fab.check c x s.fencedList = none)
    (hg : s.fab.regions.get? (x.rkey % 1048576) = some g) :
    let s1 := s.withFab (s.fab.modConn n (fun c => c.placed x.psn), placeWrite (x.rkey % 1048576) g x)
    ∀ y, s1.fab.conns.get? n = some y →
      exec (.writePlace n) s = .next (if y.creditDue = true then s1.ctl n 4 0 0 0 else s1).settle := by
  intro s1 y hy
  refine congrArg Host.Outcome.next ((if_neg (not_true_of_false hq)).trans ?_)
  rw [hc]
  dsimp only
  rw [if_neg (noError he), hx]
  dsimp only
  rw [hk]
  dsimp only
  rw [show s.fab.regions.get? (x.rkey % 2 ^ 20) = some g from hg]
  dsimp only
  generalize hget : Tbl.get? _ n = o
  obtain rfl : o = some y := hget.symm.trans hy
  rfl

end

end

theorem exec_sendEntry_error {e d : HostData} (he : c.error.isSome = true) :
    exec (.sendEntry n e d) s = .next (s.onFab (s.fab.discardSends n)) := by
  refine congrArg Host.Outcome.next ((if_neg (not_true_of_false hq)).trans ?_)
  rw [hc]
  exact if_pos he

end

theorem exec_packetSend {s : State} {n l : Nat} (hq : s.quiet = false) (hu : (s.fab.link l).up = true) (ht : s.fab.turnOf l = some n) :
    let f := (s.fab.modConn n Conn.trim).modLink l (fun y => { y with turn := n })
    exec (.packetSend l) s = .next (s.onFab (f.sendPkt n s.quiet)) := by
  intro f
  refine congrArg Host.Outcome.next ((if_neg ?_).trans ?_)
  · rw [hq, hu]
    exact Bool.false_ne_true
  · rw [ht]

/-- Settles O55: each row by what the connection has to send. -/
theorem fabricSending : Obligations.FabricSending := by
  intro s n c hq hc ctl conn
  refine ⟨fun he => ⟨fun m rest e d hp hs hm => exec_sendEntry_pkg hq hc he hp hs hm,
      fun b d hp hi hs hl hloc hb hpay => exec_sendEntry_ring hq hc he hp hi hs hl hloc hb hpay, exec_retransmitTimeout hq hc he,
      exec_rnrDelay hq hc he, fun ha => exec_ackTimer hq hc he ha, fun psn hg => exec_gapTimer hq hc he hg,
      fun hl => exec_creditTimer hq hc he hl, exec_keepaliveTimer hq hc he⟩, fun he e d => exec_sendEntry_error hq hc he,
    congrArg Host.Outcome.next (onConn_known hq hc _), fun l hu ht => exec_packetSend hq hu ht, fun x he hx =>
      ⟨fun cause hk => exec_writePlace_fails hq hc he hx hk, fun g hk hg => ?_⟩⟩
  intro s1
  exact ⟨fun y hy hd => (exec_writePlace_places hq hc he hx hk hg y hy).trans
      (congrArg (fun t => Host.Outcome.next (State.settle t)) (if_neg (not_true_of_false hd))),
    fun y hy hd => (exec_writePlace_places hq hc he hx hk hg y hy).trans
      (congrArg (fun t => Host.Outcome.next (State.settle t)) (if_pos hd))⟩

end Sys2Proof.Machine
end

section
/-!
PROOF. The rows of what a link takes.
-/
namespace Sys2Proof.Machine
open Sys2Proof.Claims

/-- What a link makes of a frame: a frame of a wrong size is bad. -/
def Fabric.takes (f : Fabric) (l : Nat) (frame : List Byte) : Fabric × RxFrame :=
  if frameSizeOk frame then f.receive l frame else (f, .bad)

/-- The fabric once the link has counted the frame. -/
def Fabric.counted (f : Fabric) (l : Nat) (frame : List Byte) : Fabric :=
  (f.takes l frame).1.modLink l (fun y => { y with rx := y.rx + 1 })

section
variable {s : State} {l : Nat} {frame : List Byte} (hq : s.quiet = false) (hl : l < 32) (hu : (s.fab.link l).up = true)
  (ho : otherFrame (s.fab.link l).cfg frame = false)
include hq hl hu ho

theorem rxFrame_open : ¬ (s.quiet || decide (l ≥ 32) || !(s.fab.link l).up || otherFrame (s.fab.link l).cfg frame) = true := by
  rw [hq, decide_eq_false (Nat.not_le.mpr hl), hu, ho]
  exact Bool.false_ne_true

section
variable {mine : BftHdr → Bool} {go : State → Nat → BftHdr → List Byte → State}

theorem rxFrame_bad (hr : (s.fab.takes l frame).2 = .bad) : s.rxFrame l frame mine go =
    { s with fab := { s.fab.counted l frame with badPkt := satAdd (s.fab.counted l frame).badPkt 1 } } := by
  refine (if_neg (rxFrame_open hq hl hu ho)).trans ?_
  dsimp only
  rw [show (if frameSizeOk frame then s.fab.receive l frame else (s.fab, .bad)) = s.fab.takes l frame from rfl, hr]
  rfl

theorem rxFrame_auth (hr : (s.fab.takes l frame).2 = .auth) : s.rxFrame l frame mine go =
    { s with fab := { s.fab.counted l frame with authFail := satAdd (s.fab.counted l frame).authFail 1 } } := by
  refine (if_neg (rxFrame_open hq hl hu ho)).trans ?_
  dsimp only
  rw [show (if frameSizeOk frame then s.fab.receive l frame else (s.fab, .bad)) = s.fab.takes l frame from rfl, hr]
  rfl

variable {n : Nat} {h : BftHdr} {pl : List Byte} (hr : (s.fab.takes l frame).2 = .bft n h pl)
include hr

theorem rxFrame_mine (hm : mine h = true) :
    s.rxFrame l frame mine go = (go { s with fab := s.fab.counted l frame } n h pl).settle := by
  refine (if_neg (rxFrame_open hq hl hu ho)).trans ?_
  dsimp only
  rw [show (if frameSizeOk frame then s.fab.receive l frame else (s.fab, .bad)) = s.fab.takes l frame from rfl, hr]
  exact if_pos hm

theorem rxSend_takes {d : HostData} {k : Nat} (ht : h.typ = 0) (hk : h.mkind = k) :
    s.rxSend l frame d k = (({ s with fab := s.fab.counted l frame } : State).takeData1 n h pl d).settle :=
  rxFrame_mine hq hl hu ho hr (by rw [ht, hk, beq_self_eq_true, beq_self_eq_true]; rfl)

theorem rxQctl_takes {d : HostData} {k : Nat} (ht : h.typ = 0) (hm : h.mkind = 4) (hk : field pl 48 8 = k) (h3 : k ≤ 3) :
    s.rxQctl l frame d k = (({ s with fab := s.fab.counted l frame } : State).takeData1 n h pl d).settle := by
  refine (rxFrame_mine hq hl hu ho hr (by rw [ht, hm]; rfl)).trans (congrArg State.settle (if_neg ?_))
  rw [hk, if_pos h3, decide_eq_false (not_not_intro rfl), Bool.and_false]
  exact Bool.false_ne_true

theorem rxCtl_takes {c : Conn} {go : State → Nat → BftHdr → State} (hc : (s.fab.counted l frame).conns.get? n = some c)
    (he : c.error = none) (hm : mine h = true) :
    let f := s.fab.counted l frame
    s.rxCtl l frame mine go = (go (({ s with fab := f } : State).withFab
      ({ f with conns := f.conns.set n (c.takeLimits n h).1 }, (c.takeLimits n h).2)) n h).settle := by
  intro f
  refine (rxFrame_mine hq hl hu ho hr hm).trans (congrArg State.settle ?_)
  dsimp only
  rw [hc]
  exact if_neg (noError he)

end

end

/-- What a NAK_RNR of message msn does on connection n (R509). -/
def State.nakRnr (t : State) (n msn : Nat) : State :=
  match t.fab.conns.get? n with
  | none => t
  | some c =>
    match c.nakRnr msn with
    | (true, _) => t.withFab (t.fab.failSend n .rnr msn 0 0 t.quiet)
    | (false, c1) => { t with fab := { t.fab with conns := t.fab.conns.set n c1 } }

section
variable {t : State} {n msn : Nat} {y : Conn} (hy : t.fab.conns.get? n = some y)
include hy

theorem nakRnr_waits (h : (y.nakRnr msn).1 = false) :
    t.nakRnr n msn = { t with fab := { t.fab with conns := t.fab.conns.set n (y.nakRnr msn).2 } } := by
  unfold State.nakRnr
  rw [hy]
  dsimp only
  generalize y.nakRnr msn = r at h
  obtain ⟨b, c⟩ := r
  subst h
  rfl

theorem nakRnr_fails (h : (y.nakRnr msn).1 = true) : t.nakRnr n msn = t.withFab (t.fab.failSend n .rnr msn 0 0 t.quiet) := by
  unfold State.nakRnr
  rw [hy]
  dsimp only
  generalize y.nakRnr msn = r at h
  obtain ⟨b, c⟩ := r
  subst h
  rfl

end

/-- Settles O56: each row by what the link makes of the frame. -/
theorem fabricReceiving : Obligations.FabricReceiving := by
  intro s l frame hq hl hu ho r f s1
  refine ⟨fun hr => ?_, fun hr => ?_, fun n h pl d hr => ?_, fun n h pl c hr hc he => ?_, fun n h pl c hr hc ht ha => ?_⟩
  · intro t
    exact ⟨congrArg Host.Outcome.next (rxFrame_bad hq hl hu ho hr), congrArg Host.Outcome.next (rxFrame_bad hq hl hu ho hr),
      fun d => congrArg Host.Outcome.next (rxFrame_bad hq hl hu ho hr)⟩
  · intro t
    exact ⟨congrArg Host.Outcome.next (rxFrame_auth hq hl hu ho hr), congrArg Host.Outcome.next (rxFrame_auth hq hl hu ho hr),
      fun d => congrArg Host.Outcome.next (rxFrame_auth hq hl hu ho hr)⟩
  · intro go
    have hsend : ∀ {k : Nat}, h.typ = 0 → h.mkind = k → (.next (s.rxSend l frame d k) : Host.Outcome State Fault Refusal) = .next go :=
      fun ht hk => congrArg Host.Outcome.next (rxSend_takes hq hl hu ho hr ht hk)
    have hqctl : ∀ {k : Nat}, k ≤ 3 → h.typ = 0 → h.mkind = 4 → field pl 48 8 = k →
        (.next (s.rxQctl l frame d k) : Host.Outcome State Fault Refusal) = .next go :=
      fun h3 ht hm hk => congrArg Host.Outcome.next (rxQctl_takes hq hl hu ho hr ht hm hk h3)
    exact ⟨fun ht => ⟨hsend ht, hsend ht, hsend ht, hsend ht, hsend ht, hsend ht, hsend ht, hsend ht, fun hm =>
        ⟨hqctl (by decide) ht hm, hqctl (by decide) ht hm, hqctl (by decide) ht hm, hqctl (by decide) ht hm⟩⟩,
      fun ht => congrArg Host.Outcome.next (rxFrame_mine hq hl hu ho hr (by rw [ht]; rfl))⟩
  · intro s2
    refine ⟨fun ht => congrArg Host.Outcome.next (rxCtl_takes hq hl hu ho hr hc he (by rw [ht]; rfl)),
      fun ht => congrArg Host.Outcome.next (rxCtl_takes hq hl hu ho hr hc he (by rw [ht]; rfl)),
      fun ht => congrArg Host.Outcome.next (rxCtl_takes hq hl hu ho hr hc he (by rw [ht]; rfl)),
      fun ht hn => congrArg Host.Outcome.next (rxCtl_takes hq hl hu ho hr hc he (by rw [ht, hn]; rfl)), fun y ht hn hy => ?_⟩
    have hrow := fun go => rxCtl_takes (go := go) hq hl hu ho hr hc he (mine := fun h => h.typ == 3 && h.ncode == 1) (by rw [ht, hn]; rfl)
    refine ⟨fun hy1 => congrArg Host.Outcome.next ((hrow _).trans (congrArg State.settle (nakRnr_waits hy hy1))),
      fun hy1 => congrArg Host.Outcome.next ((hrow _).trans (congrArg State.settle (nakRnr_fails hy hy1)))⟩
  · refine congrArg Host.Outcome.next ((rxFrame_mine hq hl hu ho hr (by rw [ht]; rfl)).trans (congrArg State.settle ?_))
    dsimp only
    rw [show (s.fab.counted l frame).conns.get? n = some c from hc]
    dsimp only
    rw [ha]
    rfl

end Sys2Proof.Machine
end

section
/-!
PROOF. One instruction of a thread of an NBU: what is left of the package after it, by its outcome; the scalar and the vector
instructions.
-/
namespace Sys2Proof.Machine
open Sys2Proof.Claims

/-! ## The port of a thread and the package -/

theorem satAdd_zero (c : W32) : satAdd c 0 = c := by
  unfold satAdd
  split
  · rename_i h
    refine BitVec.eq_of_toNat_eq ?_
    have hc := c.isLt
    unfold sat32Max at h
    simp only [BitVec.toNat_ofNat]
    omega
  · rw [Nat.add_zero, BitVec.ofNat_toNat, BitVec.setWidth_eq]

theorem Pipe.modPart_self {p : Pipe} {k : Nat} {f : Part → Part} (h : f (p.part k) = p.part k) : p.modPart k f = p := by
  have hid : p.modPart k id = p := congrArg (fun l => { p with parts := l }) (modNth_id _ _ _ fun _ _ => rfl)
  exact (Pipe.modPart_congr h).trans hid

section
variable (p : Pipe) (k pc : Nat) {errs : RawErrs} (guard : Option Nat)

theorem putBank_untouched (h : errs.parity = false) : p.putBank k pc (p.bankOf k pc errs guard) = p := by
  unfold Pipe.putBank Pipe.bankOf
  dsimp only
  rw [h]
  refine (if_neg Bool.false_ne_true).trans ?_
  refine Pipe.modPart_self ?_
  rw [satAdd_zero]
  rfl

theorem putBank_parity (hpc : pc < 64) (h : errs.parity = true) :
    p.putBank k pc (p.bankOf k pc errs guard) = p.markUE (64 * k + pc) := by
  unfold Pipe.putBank Pipe.bankOf Pipe.markUE
  dsimp only
  rw [h, show (64 * k + pc) / 64 = k by omega, show (64 * k + pc) % 64 = pc by omega]
  refine (if_pos rfl).trans ?_
  refine congrArg (fun q : Pipe => { q with out := p.out ++ [PipeOut.fault (16 * k)] }) (Pipe.modPart_congr ?_)
  rw [satAdd_zero]
  rfl

end

/-! ## One instruction -/

/-- An instruction that neither begins a piece nor goes on with a search. -/
def NInstr.plain : NInstr → Bool
  | .eu .pset _ _ _ _ => false
  | .eu .enext _ _ _ _ => false
  | _ => true

/-- What the port charged in an instruction is charged to the thread. -/
def NOut.charged (o : NOut) : NOut :=
  { o with th := { o.th with bytes := o.th.bytes + o.bank.bytes, fetched := o.th.fetched + o.bank.fetched } }

theorem nIssue_plain {env : IsaEnv} {i : NInstr} {r : NbuReq} {t : Thread} {b : Bank} (hi : i.plain = true) (ht : t.issued < 4194304)
    (hb : b.bytes = 0) (hf : b.fetched = 0) : nIssue env i r t b = (nExec env i r { t with issued := t.issued + 1 } b).charged := by
  have hlim : ¬ (env.loaded && decide (t.issued ≥ 4194304)) = true := by
    rw [decide_eq_false (Nat.not_le.mpr ht), Bool.and_false]
    exact Bool.false_ne_true
  refine (if_neg hlim).trans ?_
  rw [hb, hf]
  cases i with
  | eu op fn fa fb fc =>
    cases op with
    | pset => cases hi
    | enext => cases hi
    | _ => rfl
  | _ => rfl

section
variable {s : State} {thr : ThrId} {r : NbuReq} (h : Issues s thr r)
include h

theorem onNbu_perform (f : Pipe → Pipe) : s.onNbu f = perform s (f s.pipe) := (if_pos h.2.1).trans (onPipe_perform h.1 f)

theorem nbuInstr_issues (errs : RawErrs) (i : NInstr) : nbuInstr thr.part thr.pc thr.th errs i s.pipe =
    s.pipe.afterInstr thr.part thr.pc thr.th r (nIssue (s.pipe.isaEnv thr.part thr.pc thr.th r) i r
      (s.pipe.thread thr.part thr.pc thr.th) (portOf s thr errs)) := by
  unfold nbuInstr
  rw [h.2.2.1]
  rfl

theorem running_bounds : thr.part < 16 ∧ thr.pc < 64 ∧ thr.th < 4 ∧ (s.pipe.thread thr.part thr.pc thr.th).req = some r := by
  have hr := h.2.2.1
  unfold Pipe.running at hr
  split at hr
  · cases hr
  · rename_i hb
    simp only [Bool.or_eq_true, decide_eq_true_eq, not_or, Nat.not_le] at hb
    obtain ⟨⟨⟨-, hk⟩, hpc⟩, hth⟩ := hb
    refine ⟨hk, hpc, hth, ?_⟩
    split at hr
    · rename_i r' hr'
      rw [hr']
      exact hr
    · cases hr

/-- The package after an instruction by its outcome (R236, R258). -/
theorem onNbu_instr {errs : RawErrs} {i : NInstr} (hi : i.plain = true) {o : NOut}
    (ho : nExec (s.pipe.isaEnv thr.part thr.pc thr.th r) i r (thrOf s thr) (portOf s thr errs) = o) :
    s.onNbu (nbuInstr thr.part thr.pc thr.th errs i) = afterOut s thr r o := by
  rw [onNbu_perform h, nbuInstr_issues h, nIssue_plain hi h.2.2.2.2 rfl rfl]
  subst ho
  rfl

theorem cancelDue_thrOf : (thrOf s thr).cancel = none := h.2.2.2.1

/-- An instruction that leaves the port as it was and ends with thread t changes nothing but the thread. -/
theorem afterOut_quiet {errs : RawErrs} (hp : errs.parity = false) {t : Thread} (ht : t.cancel = none) :
    afterOut s thr r { th := t, bank := portOf s thr errs } = putThr s thr t := by
  have hrow : s.pipe.afterInstr thr.part thr.pc thr.th r { th := t, bank := portOf s thr errs } =
      s.pipe.modThread thr.part thr.pc thr.th (fun _ => t) := by
    unfold Pipe.afterInstr
    dsimp only
    rw [show s.pipe.putBank thr.part thr.pc (portOf s thr errs) = s.pipe from putBank_untouched _ _ _ _ hp]
    refine (if_neg (show ¬ errs.parity = true from not_true_of_false hp)).trans ((if_neg Bool.false_ne_true).trans (if_neg ?_))
    rw [Thread.cancelDue, ht]
    exact Bool.false_ne_true
  refine Eq.trans (congrArg (perform s) hrow) (perform_quiet ?_)
  exact h.1.2

/-- The row of an instruction that only computes. -/
theorem onNbu_quiet {errs : RawErrs} {i : NInstr} (hi : i.plain = true) (hp : errs.parity = false) {t : Thread} (ht : t.cancel = none)
    (ho : nExec (s.pipe.isaEnv thr.part thr.pc thr.th r) i r (thrOf s thr) (portOf s thr errs) = { th := t, bank := portOf s thr errs }) :
    (.next (s.onNbu (nbuInstr thr.part thr.pc thr.th errs i)) : Host.Outcome State Fault Refusal) = .next (putThr s thr t) :=
  congrArg Host.Outcome.next ((onNbu_instr h hi ho).trans (afterOut_quiet h hp ht))

end

end Sys2Proof.Machine
end

section
/-!
PROOF. The scalar and the vector instructions of an NBU, its accesses to memory and its traps.
-/
namespace Sys2Proof.Machine
open Sys2Proof.Claims

/-! ## The integer functions of ALU as numbers (R240) -/

section
variable (a b : W64)

theorem shiftLeft_eq_ofNat (n : Nat) : a <<< n = BitVec.ofNat 64 (a.toNat * 2 ^ n) := by
  refine BitVec.eq_of_toNat_eq ?_
  rw [BitVec.toNat_shiftLeft, BitVec.toNat_ofNat, Nat.shiftLeft_eq]

theorem shiftRight_eq_ofNat (n : Nat) : a >>> n = BitVec.ofNat 64 (a.toNat / 2 ^ n) := by
  refine BitVec.eq_of_toNat_eq ?_
  rw [BitVec.toNat_ushiftRight, BitVec.toNat_ofNat, Nat.shiftRight_eq_div_pow,
    Nat.mod_eq_of_lt (Nat.lt_of_le_of_lt (Nat.div_le_self _ _) a.isLt)]

theorem sshiftRight_eq_ofInt (n : Nat) : a.sshiftRight n = BitVec.ofInt 64 (a.toInt / 2 ^ n) := by
  rw [← BitVec.ofInt_toInt (x := a.sshiftRight n), BitVec.toInt_sshiftRight, Int.shiftRight_eq_div_pow, Int.natCast_pow]
  rfl

theorem mul_eq_ofNat : a * b = BitVec.ofNat 64 (a.toNat * b.toNat) := by
  refine BitVec.eq_of_toNat_eq ?_
  rw [BitVec.toNat_mul, BitVec.toNat_ofNat]

theorem sle_min : (if b.slt a then b else a) = BitVec.ofInt 64 (min a.toInt b.toInt) := by
  rw [BitVec.slt_eq_decide]
  by_cases h : b.toInt < a.toInt
  · rw [if_pos (decide_eq_true h), Int.min_eq_right (Int.le_of_lt h), BitVec.ofInt_toInt]
  · rw [if_neg (not_true_of_false (decide_eq_false h)), Int.min_eq_left (Int.not_lt.mp h), BitVec.ofInt_toInt]

theorem sle_max : (if a.slt b then b else a) = BitVec.ofInt 64 (max a.toInt b.toInt) := by
  rw [BitVec.slt_eq_decide]
  by_cases h : a.toInt < b.toInt
  · rw [if_pos (decide_eq_true h), Int.max_eq_right (Int.le_of_lt h), BitVec.ofInt_toInt]
  · rw [if_neg (not_true_of_false (decide_eq_false h)), Int.max_eq_left (Int.not_lt.mp h), BitVec.ofInt_toInt]

theorem ule_min : (if b.ult a then b else a) = BitVec.ofNat 64 (min a.toNat b.toNat) := by
  rw [BitVec.ult_eq_decide]
  by_cases h : b.toNat < a.toNat
  · rw [if_pos (decide_eq_true h), Nat.min_eq_right (Nat.le_of_lt h), BitVec.ofNat_toNat, BitVec.setWidth_eq]
  · rw [if_neg (not_true_of_false (decide_eq_false h)), Nat.min_eq_left (Nat.not_lt.mp h), BitVec.ofNat_toNat, BitVec.setWidth_eq]

theorem ule_max : (if a.ult b then b else a) = BitVec.ofNat 64 (max a.toNat b.toNat) := by
  rw [BitVec.ult_eq_decide]
  by_cases h : a.toNat < b.toNat
  · rw [if_pos (decide_eq_true h), Nat.max_eq_right (Nat.le_of_lt h), BitVec.ofNat_toNat, BitVec.setWidth_eq]
  · rw [if_neg (not_true_of_false (decide_eq_false h)), Nat.max_eq_left (Nat.not_lt.mp h), BitVec.ofNat_toNat, BitVec.setWidth_eq]

theorem aluFn_reserved {fn : Nat} (h : 0x17 ≤ fn) : aluFn fn a b = none := by
  obtain ⟨n, rfl⟩ := Nat.exists_eq_add_of_le' h
  rfl

theorem aluFn_integer :
    aluFn 0x00 a b = some (a + b) ∧ aluFn 0x01 a b = some (a - b) ∧ aluFn 0x02 a b = some (a &&& b) ∧
    aluFn 0x03 a b = some (a ||| b) ∧ aluFn 0x04 a b = some (a ^^^ b) ∧
    aluFn 0x05 a b = some (BitVec.ofNat 64 (a.toNat * 2 ^ (b.toNat % 64))) ∧
    aluFn 0x06 a b = some (BitVec.ofNat 64 (a.toNat / 2 ^ (b.toNat % 64))) ∧
    aluFn 0x07 a b = some (BitVec.ofInt 64 (a.toInt / 2 ^ (b.toNat % 64))) ∧
    aluFn 0x08 a b = some (BitVec.ofNat 64 (a.toNat * b.toNat)) ∧
    aluFn 0x09 a b = some (if a.toInt < b.toInt then 1 else 0) ∧ aluFn 0x0A a b = some (if a.toNat < b.toNat then 1 else 0) ∧
    aluFn 0x0B a b = some (BitVec.ofInt 64 (min a.toInt b.toInt)) ∧ aluFn 0x0C a b = some (BitVec.ofInt 64 (max a.toInt b.toInt)) ∧
    aluFn 0x0D a b = some (BitVec.ofNat 64 (min a.toNat b.toNat)) ∧ aluFn 0x0E a b = some (BitVec.ofNat 64 (max a.toNat b.toNat)) ∧
    (∀ fn, 0x17 ≤ fn → aluFn fn a b = none) :=
  ⟨rfl, rfl, rfl, rfl, rfl, congrArg some (shiftLeft_eq_ofNat a _), congrArg some (shiftRight_eq_ofNat a _),
    congrArg some (sshiftRight_eq_ofInt a _), congrArg some (mul_eq_ofNat a b),
    congrArg some ((ofNat_b2n _).trans (by rw [BitVec.slt_eq_decide]; simp only [decide_eq_true_eq])),
    congrArg some ((ofNat_b2n _).trans (by rw [BitVec.ult_eq_decide]; simp only [decide_eq_true_eq])),
    congrArg some (sle_min a b), congrArg some (sle_max a b), congrArg some (ule_min a b), congrArg some (ule_max a b),
    fun _ h => aluFn_reserved a b h⟩

end

/-! ## Branches -/

theorem toNat_emod_pow (x : Int) (h : 0 ≤ x) : (x % 2 ^ 32).toNat = x.toNat % 2 ^ 32 := by omega

theorem gw_fields (t : Thread) (n : Nat) (x : W64) : (t.gw n x).cancel = t.cancel ∧ (t.gw n x).pc = t.pc := by
  unfold Thread.gw
  split <;> exact ⟨rfl, rfl⟩

section
variable {s : State} {thr : ThrId} {r : NbuReq} (h : Issues s thr r)
include h

/-- The row of an instruction whose result goes to ga or elsewhere in the thread. -/
theorem exec_result {i : NInstr} {t : Thread} (hi : i.plain = true) (ht : t.cancel = none)
    (ho : nExec (s.pipe.isaEnv thr.part thr.pc thr.th r) i r (thrOf s thr) (portOf s thr RawErrs.none) =
      nOk t (portOf s thr RawErrs.none)) :
    (.next (s.onNbu (nbuInstr thr.part thr.pc thr.th RawErrs.none i)) : Host.Outcome State Fault Refusal) = .next (putThr s thr t.adv) :=
  onNbu_quiet h hi rfl ht ho

theorem gw_thrOf_cancel (fa : Nat) (x : W64) : ((thrOf s thr).gw fa x).cancel = none :=
  (gw_fields _ _ _).1.trans (cancelDue_thrOf h)

theorem exec_branch {op : BrOp} {fa fb : Nat} {i : Int} (hpc : 0 ≤ ((thrOf s thr).pc : Int) + 4 * i) {P : Prop} [Decidable P]
    (hP : brFn op ((thrOf s thr).gr fa) ((thrOf s thr).gr fb) = true ↔ P) :
    (.next (s.onNbu (nbuInstr thr.part thr.pc thr.th RawErrs.none (.br op fa fb i))) : Host.Outcome State Fault Refusal) =
      .next (if P then putThr s thr { thrOf s thr with pc := (((thrOf s thr).pc : Int) + 4 * i).toNat % 2 ^ 32 }
        else putThr s thr (thrOf s thr).adv) := by
  by_cases hp : P
  · rw [if_pos hp, ← toNat_emod_pow _ hpc]
    refine onNbu_quiet h rfl rfl (t := { thrOf s thr with pc := _ }) (cancelDue_thrOf h) ?_
    exact if_pos (hP.mpr hp)
  · rw [if_neg hp]
    exact exec_result h rfl (cancelDue_thrOf h) (if_neg (mt hP.mp hp))

end

/-- Settles O14: each instruction ends with its thread alone. -/
theorem nbuScalarResults : Obligations.NbuScalarResults := by
  refine ⟨fun s thr r h => ?_, aluFn_integer⟩
  intro t imm go jump
  have hc := cancelDue_thrOf h
  have hgw := gw_thrOf_cancel h
  refine ⟨fun fn fa fb fc x hx => exec_result h rfl (hgw fa x) ?_, fun fa fb i => ⟨exec_result h rfl (hgw _ _) rfl,
      exec_result h rfl (hgw _ _) rfl, exec_result h rfl (hgw _ _) rfl, exec_result h rfl (hgw _ _) rfl, exec_result h rfl (hgw _ _) rfl,
      exec_result h rfl (hgw _ _) rfl, exec_result h rfl (hgw _ _) rfl, exec_result h rfl (hgw _ _) rfl, exec_result h rfl hc rfl⟩,
    fun fa fb i hpc => ⟨exec_branch h hpc beq_iff_eq, exec_branch h hpc bne_iff_ne, exec_branch h hpc ?_, exec_branch h hpc ?_,
      exec_branch h hpc ?_, exec_branch h hpc ?_, ?_⟩, fun fa fb => onNbu_quiet h rfl rfl (t := { t.gw fa _ with pc := _ }) (hgw _ _) rfl⟩
  · unfold nExec
    dsimp only
    rw [hx]
  · rw [brFn, BitVec.slt_eq_decide, decide_eq_true_eq]
  · rw [brFn, BitVec.slt_eq_decide, Bool.not_eq_true', decide_eq_false_iff_not, Int.not_lt]
  · rw [brFn, BitVec.ult_eq_decide, decide_eq_true_eq]
  · rw [brFn, BitVec.ult_eq_decide, Bool.not_eq_true', decide_eq_false_iff_not, Nat.not_lt]
  · refine onNbu_quiet h rfl rfl (t := { t.gw fa _ with pc := (((thrOf s thr).pc : Int) + 4 * i).toNat % 2 ^ 32 }) (hgw _ _) ?_
    rw [← toNat_emod_pow _ hpc]
    rfl

/-- Settles O16: each instruction ends with its thread alone. -/
theorem nbuVectorResults : Obligations.NbuVectorResults := by
  intro s thr r h t
  have hc := cancelDue_thrOf h
  have hgw := gw_thrOf_cancel h
  refine ⟨fun fn fa fb fc x hx => exec_result h rfl hc ?_, fun fn fa fb fc x hx => exec_result h rfl (hgw _ _) ?_,
    fun fa fb errs hp => onNbu_quiet h rfl hp (hgw _ _) rfl, fun fn fa fb hfn => ⟨exec_result h rfl (hgw _ _) (if_pos hfn),
      exec_result h rfl hc ?_⟩, fun fa fb => exec_result h rfl hc rfl⟩
  · unfold nExec
    dsimp only
    rw [hx]
  · unfold nExec
    dsimp only
    rw [hx]
  · unfold nExec
    dsimp only
    rw [if_neg (show ¬ fn + 8 < 8 by omega), if_pos (show fn + 8 < 16 by omega), Nat.add_sub_cancel]

end Sys2Proof.Machine
end

section
/-!
PROOF. The accesses of an NBU's instructions to memory, and the traps of a loaded program.
-/
namespace Sys2Proof.Machine
open Sys2Proof.Claims

/-! ## Accesses of a loaded program (R235, R241) -/

/-- A loaded program may make an access of n bytes at a in the space that it names. -/
def allowed (env : IsaEnv) (b : Bank) (loc wr : Bool) (n a : Nat) : Bool :=
  if loc then (if wr then b.mayWrite env.w a n else b.mayRead env.w a n) else decide (a + n ≤ 0x4000)

theorem allowed_scratch {env : IsaEnv} {b : Bank} {wr : Bool} {n a : Nat} (h : a + n ≤ 0x4000) : allowed env b false wr n a = true :=
  decide_eq_true h

theorem allowed_scratch_not {env : IsaEnv} {b : Bank} {wr : Bool} {n a : Nat} (h : 0x4000 < a + n) : allowed env b false wr n a = false :=
  decide_eq_false (Nat.not_le.mpr h)

section
variable {env : IsaEnv} {b : Bank} {loc wr : Bool} {n : Nat} {ea : W64} (hl : env.loaded = true)
include hl

theorem resolve_ok (h : allowed env b loc wr n ea.toNat = true) (hn : n < 4096) (ha : ea.toNat % n = 0) :
    resolve env b loc wr n ea = .ok ea.toNat := by
  refine (if_pos hl).trans ((if_neg (not_bnot_of_true h)).trans ((if_neg ?_).trans (if_neg ?_)))
  · rw [decide_eq_false (not_not_intro ha), Bool.false_and]
    exact Bool.false_ne_true
  · rw [decide_eq_false (Nat.not_le.mpr hn), Bool.false_and]
    exact Bool.false_ne_true

theorem resolve_ok_table (h : allowed env b loc wr 4096 ea.toNat = true) (ha : ea.toNat % 64 = 0) :
    resolve env b loc wr 4096 ea = .ok ea.toNat := by
  refine (if_pos hl).trans ((if_neg (not_bnot_of_true h)).trans ((if_neg ?_).trans (if_neg ?_)))
  · rw [show decide (4096 < 4096) = false from rfl, Bool.and_false]
    exact Bool.false_ne_true
  · rw [decide_eq_false (not_not_intro ha), Bool.and_false]
    exact Bool.false_ne_true

theorem resolve_range (h : allowed env b loc wr n ea.toNat = false) : resolve env b loc wr n ea = .error .range :=
  (if_pos hl).trans (if_pos (congrArg not h))

theorem resolve_align (h : allowed env b loc wr n ea.toNat = true) (hn : n < 4096) (ha : ea.toNat % n ≠ 0) :
    resolve env b loc wr n ea = .error .align := by
  refine (if_pos hl).trans ((if_neg (not_bnot_of_true h)).trans (if_pos ?_))
  rw [decide_eq_true ha, decide_eq_true hn]
  rfl

end

section
variable {env : IsaEnv} {b : Bank} {loc wr : Bool} {n a fa fb w : Nat} {i : Int} {r : NbuReq} {t : Thread}

theorem nExec_ld (h : resolve env b loc false w (effAddr t fb i) = .ok a) : nExec env (.ld fa fb w loc i) r t b =
    nOk (t.gw fa (BitVec.ofNat 64 (leNat (nLoad t b loc a w).1))) (nLoad t b loc a w).2 := by
  unfold nExec
  dsimp only
  rw [h]

theorem nExec_st (h : resolve env b loc true w (effAddr t fb i) = .ok a) : nExec env (.st fa fb w loc i) r t b =
    if loc then nOk t (b.write a (leBytes w (t.gr fa).toNat))
    else nOk { t with scratch := t.scratch.writeN a (leBytes w (t.gr fa).toNat) } b := by
  unfold nExec
  dsimp only
  rw [h]

theorem nExec_vld (h : resolve env b loc false 64 (effAddr t fb (64 * i)) = .ok a) : nExec env (.vld fa fb loc i) r t b =
    nOk (t.vw fa (vpack (nLoad t b loc a 64).1)) (nLoad t b loc a 64).2 := by
  unfold nExec
  dsimp only
  rw [h]

theorem nExec_vst (h : resolve env b loc true 64 (effAddr t fb (64 * i)) = .ok a) : nExec env (.vst fa fb loc i) r t b =
    if loc then nOk t (b.write a (vbytes (t.vr fa))) else nOk { t with scratch := t.scratch.writeN a (vbytes (t.vr fa)) } b := by
  unfold nExec
  dsimp only
  rw [h]

theorem nExec_tld (h : resolve env b loc false 4096 (effAddr t fb (64 * i)) = .ok a) : nExec env (.tld fa fb loc i) r t b =
    nOk { t with tabs := t.tabs.writeN (4096 * (fa % 4)) (nLoad t b loc a 4096).1 } (nLoad t b loc a 4096).2 := by
  unfold nExec
  dsimp only
  rw [h]

theorem nExec_ld_traps {k : Trap} (h : resolve env b loc false w (effAddr t fb i) = .error k) :
    nExec env (.ld fa fb w loc i) r t b = nTrap t b k := by
  unfold nExec
  dsimp only
  rw [h]

theorem nExec_st_traps {k : Trap} (h : resolve env b loc true w (effAddr t fb i) = .error k) :
    nExec env (.st fa fb w loc i) r t b = nTrap t b k := by
  unfold nExec
  dsimp only
  rw [h]

end

theorem nLoad_scratch (t : Thread) (b : Bank) (a n : Nat) : nLoad t b false a n = (t.scr a n, b) := rfl

theorem width_pos {w : Nat} (h : w ∈ [1, 2, 4, 8]) : w < 4096 := by
  simp only [List.mem_cons, List.not_mem_nil, or_false] at h
  omega

/-! ## Threads and traps -/

theorem afterInstr_trap {p : Pipe} {k pc : Nat} (th : Nat) (r : NbuReq) {o : NOut} {c : Trap} (hb : p.putBank k pc o.bank = p)
    (hu : o.bank.ue = false) (ht : o.trap = some c) (hs : o.sent = []) :
    p.afterInstr k pc th r o = (p.modThread k pc th (fun _ => o.th)).trapReq k pc th c := by
  unfold Pipe.afterInstr
  dsimp only
  rw [hb, hu, ht, hs]
  exact if_neg Bool.false_ne_true

theorem afterInstr_ue {p q : Pipe} {k pc : Nat} (th : Nat) (r : NbuReq) {o : NOut} (hb : p.putBank k pc o.bank = q)
    (hu : o.bank.ue = true) (hs : o.sent = []) : p.afterInstr k pc th r o = (q.modThread k pc th (fun _ => o.th)).endReq k pc th
      { status := .ue, count := o.th.sent, scanned := o.th.scanned, tailRead := o.th.tailRead, bytes := o.th.bytes } := by
  unfold Pipe.afterInstr
  dsimp only
  rw [hb, hu, hs]
  exact if_pos rfl

theorem gw_counts (t : Thread) (n : Nat) (x : W64) : (t.gw n x).sent = t.sent ∧ (t.gw n x).scanned = t.scanned ∧
    (t.gw n x).tailRead = t.tailRead ∧ (t.gw n x).bytes = t.bytes := by
  unfold Thread.gw
  split <;> exact ⟨rfl, rfl, rfl, rfl⟩

section
variable {s : State} {thr : ThrId} {r : NbuReq} (h : Issues s thr r)
include h

theorem afterOut_ue {errs : RawErrs} (hp : errs.parity = true) (t : Thread) : afterOut s thr r (nOk t (portOf s thr errs)) =
    perform s (((s.pipe.markUE (64 * thr.part + thr.pc)).modThread thr.part thr.pc thr.th (fun _ => t.adv)).endReq thr.part thr.pc thr.th
      { status := .ue, count := t.sent, scanned := t.scanned, tailRead := t.tailRead, bytes := t.bytes }) :=
  congrArg (perform s) (afterInstr_ue thr.th r (o := (nOk t (portOf s thr errs)).charged)
    (putBank_parity s.pipe thr.part thr.pc (some thr.th) (running_bounds h).2.1 hp) hp rfl)

theorem thread_modThread_running (t : Thread) :
    (s.pipe.modThread thr.part thr.pc thr.th (fun _ => t)).thread thr.part thr.pc thr.th = t := by
  have hreq := (running_bounds h).2.2.2
  have hk : thr.part < s.pipe.parts.length := by
    refine Nat.not_le.mp fun hk => ?_
    rw [Pipe.thread, Pipe.nbu, Pipe.part, List.getElem?_eq_none hk] at hreq
    have hth : ((Nbu.idle.threads[thr.th]?).getD Thread.idle).req = none := by
      rw [Nbu.idle, List.getElem?_replicate]
      split <;> rfl
    rw [show ((((none : Option Part).getD Part.reset).nbus.getD thr.pc Nbu.idle).threads[thr.th]?).getD Thread.idle =
      (Nbu.idle.threads[thr.th]?).getD Thread.idle from rfl, hth] at hreq
    cases hreq
  unfold Pipe.modThread Pipe.thread
  rw [Pipe.nbu_modNbu_same _ _ hk, getElem?_modNth, if_pos rfl]
  cases ht : (s.pipe.nbu thr.part thr.pc).threads[thr.th]? with
  | none =>
    rw [Pipe.thread, ht] at hreq
    cases hreq
  | some t' => rfl

/-- The package after a trap whose cause has a bit number, of a request whose thread is then t (R258). -/
def trappedBy (s : State) (thr : ThrId) (t : Thread) (bit : Nat) : State := perform s
  (((s.pipe.modThread thr.part thr.pc thr.th (fun _ => t)).modPart thr.part (fun q =>
    { q with trapCnt := satAdd q.trapCnt 1, trapCause := q.trapCause ||| (1#32 <<< bit) })).endReq thr.part thr.pc thr.th
      { status := .trap, count := t.sent, scanned := t.scanned, tailRead := t.tailRead, bytes := t.bytes })

theorem afterOut_trap (t : Thread) (k : Trap) :
    afterOut s thr r (nTrap t (portOf s thr RawErrs.none) k) = trappedBy s thr t k.bit := by
  have hrow := afterInstr_trap thr.th r (o := (nTrap t (portOf s thr RawErrs.none) k).charged)
    (putBank_untouched s.pipe thr.part thr.pc _ rfl) rfl rfl rfl
  have hth : (nTrap t (portOf s thr RawErrs.none) k).charged.th = t := rfl
  rw [hth] at hrow
  refine congrArg (perform s) (hrow.trans ?_)
  unfold Pipe.trapReq
  rw [thread_modThread_running h t]

end

/-- Settles O17: an access that is allowed and aligned reads or writes its bytes; a parity error ends the request with UE. -/
theorem nbuMemoryAccess : Obligations.NbuMemoryAccess := by
  refine ⟨fun s thr r errs fa fb i h => ?_, fun s thr r errs fa fb w i h => ?_, fun s thr r errs fa fb h hp => ?_⟩
  · intro t a v hl hp
    have hc := cancelDue_thrOf h
    have hgw := gw_thrOf_cancel h
    refine ⟨fun w hw hr ha => ?_, fun hr ha => ?_, fun hr ha => ?_⟩
    · have hok : ∀ wr, resolve (s.pipe.isaEnv thr.part thr.pc thr.th r) (portOf s thr errs) false wr w (effAddr t fb i) = .ok a :=
        fun wr => resolve_ok hl (allowed_scratch hr) (width_pos hw) ha
      have hst := (nExec_st (r := r) (fa := fa) (hok true)).trans (if_neg Bool.false_ne_true)
      exact ⟨onNbu_quiet h (i := .ld fa fb w false i) rfl hp (hgw _ _) (nExec_ld (hok _)),
        onNbu_quiet h (i := .st fa fb w false i) rfl hp hc hst⟩
    · have hok : ∀ wr, resolve (s.pipe.isaEnv thr.part thr.pc thr.th r) (portOf s thr errs) false wr 64 (effAddr t fb (64 * i)) = .ok v :=
        fun wr => resolve_ok hl (allowed_scratch hr) (by decide) ha
      have hst := (nExec_vst (r := r) (fa := fa) (hok true)).trans (if_neg Bool.false_ne_true)
      exact ⟨onNbu_quiet h (i := .vld fa fb false i) rfl hp hc (nExec_vld (hok _)),
        onNbu_quiet h (i := .vst fa fb false i) rfl hp hc hst⟩
    · have hok : resolve (s.pipe.isaEnv thr.part thr.pc thr.th r) (portOf s thr errs) false false 4096 (effAddr t fb (64 * i)) = .ok v :=
        resolve_ok_table hl (allowed_scratch hr) ha
      have htld := nExec_tld (r := r) (fa := fa) hok
      rw [nLoad_scratch] at htld
      dsimp only at htld
      exact onNbu_quiet h (i := .tld fa fb false i) rfl hp hc htld
  · intro t b a v hl
    refine ⟨fun hw ha => ⟨fun hm => ?_, fun hm => ?_⟩, fun ha hm => ?_, fun ha hm => ?_, fun ha hm => ?_⟩
    · exact congrArg Host.Outcome.next (onNbu_instr h rfl (nExec_ld (resolve_ok hl hm (width_pos hw) ha)))
    · exact congrArg Host.Outcome.next (onNbu_instr h rfl (nExec_st (resolve_ok hl hm (width_pos hw) ha)))
    · exact congrArg Host.Outcome.next (onNbu_instr h rfl (nExec_vld (resolve_ok hl hm (by decide) ha)))
    · exact congrArg Host.Outcome.next (onNbu_instr h rfl (nExec_vst (resolve_ok hl hm (by decide) ha)))
    · exact congrArg Host.Outcome.next (onNbu_instr h rfl (nExec_tld (resolve_ok_table hl hm ha)))
  · intro t
    obtain ⟨hsent, hscanned, htail, hbytes⟩ := gw_counts t fa (BitVec.ofNat 64 (((List.range 64).map (fun i =>
      (t.tabs.read (256 * i + (vlane (t.vr fb) i).toNat)).toNat)).foldl (· + ·) 0))
    rw [← hsent, ← hscanned, ← htail, ← hbytes]
    have hx := (onNbu_instr (errs := errs) (i := .vlut fa fb) h rfl rfl).trans (afterOut_ue h hp _)
    exact congrArg Host.Outcome.next hx

/-- Settles O18: a trap leaves the port as it was and ends the request. -/
theorem nbuTraps : Obligations.NbuTraps := by
  intro s thr r h hl k t trapped
  have hl : (s.pipe.isaEnv thr.part thr.pc thr.th r).loaded = true := hl
  have htrap : ∀ {i : NInstr} {c : Trap}, i.plain = true → nExec (s.pipe.isaEnv thr.part thr.pc thr.th r) i r (thrOf s thr)
      (portOf s thr RawErrs.none) = nTrap t (portOf s thr RawErrs.none) c →
      (.next (s.onNbu (nbuInstr thr.part thr.pc thr.th RawErrs.none i)) : Host.Outcome State Fault Refusal) =
        .next (trappedBy s thr t c.bit) := fun hi ho => congrArg Host.Outcome.next ((onNbu_instr h hi ho).trans (afterOut_trap h t _))
  refine ⟨fun fn fa fb fc hfn => ?_, fun fb fc => ?_, fun fa fb i hr => ?_, fun fa fb i hr ha => ?_⟩
  · refine htrap (i := .alu fn fa fb fc) (c := .illegal) rfl ?_
    unfold nExec
    dsimp only
    rw [aluFn_reserved _ _ hfn]
    exact if_pos hl
  · have ho : nExec (s.pipe.isaEnv thr.part thr.pc thr.th r) (.sttail fb fc) r (thrOf s thr) (portOf s thr RawErrs.none) =
        nTrap t (portOf s thr RawErrs.none) .illegal := if_pos hl
    have hx := htrap rfl ho
    exact hx
  · have hres := resolve_range (b := portOf s thr RawErrs.none) (wr := false) hl (allowed_scratch_not hr)
    have ho := nExec_ld_traps (r := r) (fa := fa) hres
    have hx := htrap rfl ho
    exact hx
  · have hres := resolve_align (b := portOf s thr RawErrs.none) (wr := true) hl (allowed_scratch hr) (by decide) ha
    have ho := nExec_st_traps (r := r) (fa := fa) hres
    have hx := htrap rfl ho
    exact hx

end Sys2Proof.Machine
end

section
/-!
PROOF. EMIT, END and STTAIL of the entry unit of an NBU.
-/
namespace Sys2Proof.Machine
open Sys2Proof.Claims

/-! ## What survivors and the end of a request list -/

@[simp] theorem Pipe.survivors_out (p : Pipe) (k : Nat) (r : NbuReq) (es : List (W32 × Nat)) : (p.survivors k r es).out = p.out :=
  out_ite rfl (Pipe.deliver_out _ _ _ _ _ _)

theorem survivors_nil (p : Pipe) (k : Nat) (r : NbuReq) : p.survivors k r [] = p := if_pos (Bool.or_true _)

@[simp] theorem Pipe.chargeReq_out (p : Pipe) (k : Nat) (r : NbuReq) (n : Nat) : (p.chargeReq k r n).out = p.out := by
  refine out_ite ?_ rfl
  unfold Pipe.charge
  split <;> rfl

@[simp] theorem Pipe.endReq_out (p : Pipe) (k pc th : Nat) (e : Ended) : (p.endReq k pc th e).out = p.out := by
  unfold Pipe.endReq
  split
  · rfl
  · rename_i q _
    refine Eq.trans ?_ (Pipe.chargeReq_out (p.modThread k pc th (fun t => { t with req := none, cancel := none, block := [] })) k q e.bytes)
    exact out_ite rfl rfl

/-! ## Instructions that end without a trap -/

section
variable {p : Pipe} {k pc : Nat} (th : Nat) (r : NbuReq) {o : NOut} (hb : p.putBank k pc o.bank = p) (hu : o.bank.ue = false)
  (ht : o.trap = none)
include hb hu ht

theorem afterInstr_goesOn (he : o.ended = false) (hc : o.th.cancel = none) : p.afterInstr k pc th r o =
    o.sent.foldl (fun (p : Pipe) b => p.survivors k r b) (p.modThread k pc th (fun _ => o.th)) := by
  unfold Pipe.afterInstr
  dsimp only
  rw [hb, hu, ht, he, Thread.cancelDue, hc]
  exact (if_neg Bool.false_ne_true).trans ((if_neg Bool.false_ne_true).trans (if_neg Bool.false_ne_true))

theorem afterInstr_ends (he : o.ended = true) : p.afterInstr k pc th r o =
    (o.sent.foldl (fun (p : Pipe) b => p.survivors k r b) (p.modThread k pc th (fun _ => o.th))).endReq k pc th
      { status := .done, count := o.th.sent, scanned := o.th.scanned, tailRead := o.th.tailRead, bytes := o.th.bytes } := by
  unfold Pipe.afterInstr
  dsimp only
  rw [hb, hu, ht, he]
  exact (if_neg Bool.false_ne_true).trans (if_pos rfl)

end

/-! ## EMIT -/

/-- The thread once its block has left. -/
def Thread.blockLeft (t : Thread) (n : Nat) : Thread := { t with block := [], sent := t.sent + 32, lastEmit := some n }

theorem blockLeft_cancel (t : Thread) (n : Nat) : (t.blockLeft n).adv.cancel = t.cancel := rfl

section
variable {t : Thread} (b : Bank) {n : Nat} (y : W32) (ord : Nat) {smax : Nat}

theorem emitEntry_full (h : smax ≤ t.sent + t.block.length) : emitEntry t b n y ord smax = nOk { t with lastEmit := some n } b := if_pos h

theorem emitEntry_joins (h : t.sent + t.block.length < smax) (hl : t.block.length < 31) : emitEntry t b n y ord smax =
    nOk { t with block := t.block ++ [(y, ord)], lastEmit := some n } b := by
  refine (if_neg (Nat.not_le.mpr h)).trans (if_neg ?_)
  rw [List.length_append, List.length_singleton]
  omega

theorem emitEntry_leaves (h : t.sent + t.block.length < smax) (hl : t.block.length = 31) : emitEntry t b n y ord smax =
    { nOk (t.blockLeft n) b with sent := [t.block ++ [(y, ord)]] } := by
  refine (if_neg (Nat.not_le.mpr h)).trans (if_pos ?_)
  rw [List.length_append, List.length_singleton, hl]

theorem euExec_emit (env : IsaEnv) (fn fa fb fc : Nat) (r : NbuReq) (hn : (t.gr fb).toNat < t.eu.bound)
    (hm : ∀ m, t.lastEmit = some m → m < (t.gr fb).toNat) : euExec env .emit fn fa fb fc r t b =
      emitEntry t b (t.gr fb).toNat (lo32 (t.gr fc)) (ordOf (t.eu.hdr.getD PieceHdr.none) (t.gr fb).toNat) r.smax := by
  have hlate : (match t.lastEmit with | some p => decide ((t.gr fb).toNat ≤ p) | none => false) = false := by
    cases hl : t.lastEmit with
    | none => rfl
    | some m => exact decide_eq_false (Nat.not_le.mpr (hm m hl))
  unfold euExec
  dsimp only
  rw [decide_eq_false (Nat.not_le.mpr hn), Bool.and_false]
  refine (if_neg Bool.false_ne_true).trans (if_neg ?_)
  refine not_true_of_false (Eq.trans (congrArg _ ?_) (Bool.and_false _))
  exact hlate

end

theorem nExec_eu {env : IsaEnv} {op : EuOp} {fn fa fb fc : Nat} {r : NbuReq} {t : Thread} {b : Bank} {o : NOut}
    (ho : euExec env op fn fa fb fc r t b = o) (hd : o.bank.deny = false) : nExec env (.eu op fn fa fb fc) r t b = o := by
  subst ho
  exact if_neg (not_true_of_false hd)

section
variable {s : State} {thr : ThrId} {r : NbuReq} (h : Issues s thr r)
include h

/-- The package after an instruction that sends a survivor block. -/
theorem afterOut_sends {errs : RawErrs} (hp : errs.parity = false) {t : Thread} (ht : t.cancel = none) (es : List (W32 × Nat)) :
    afterOut s thr r { th := t, bank := portOf s thr errs, sent := [es] } = withPipe s
      ((s.pipe.modThread thr.part thr.pc thr.th (fun _ => t)).survivors thr.part r es) := by
  have hrow := afterInstr_goesOn thr.th r (o := NOut.charged { th := t, bank := portOf s thr errs, sent := [es] })
    (putBank_untouched s.pipe thr.part thr.pc _ hp) hp rfl rfl ht
  exact (congrArg (perform s) hrow).trans (perform_quiet ((Pipe.survivors_out _ _ _ _).trans h.1.2))

theorem afterOut_ends {t : Thread} (bs : List (List (W32 × Nat))) :
    afterOut s thr r { th := t, bank := portOf s thr RawErrs.none, ended := true, sent := bs } = withPipe s
      ((bs.foldl (fun (p : Pipe) b => p.survivors thr.part r b) (s.pipe.modThread thr.part thr.pc thr.th (fun _ => t))).endReq
        thr.part thr.pc thr.th { status := .done, count := t.sent, scanned := t.scanned, tailRead := t.tailRead, bytes := t.bytes }) := by
  have hrow := afterInstr_ends thr.th r (o := NOut.charged { th := t, bank := portOf s thr RawErrs.none, ended := true, sent := bs })
    (putBank_untouched s.pipe thr.part thr.pc _ rfl) rfl rfl rfl
  refine (congrArg (perform s) hrow).trans (perform_quiet ?_)
  exact (Pipe.endReq_out _ _ _ _ _).trans ((out_foldl (fun p b => Pipe.survivors_out p _ _ b) _ _).trans h.1.2)

end

theorem foldl_survivors_rest (p : Pipe) (k : Nat) (r : NbuReq) (es : List (W32 × Nat)) :
    (if es.isEmpty then [] else [es]).foldl (fun (p : Pipe) b => p.survivors k r b) p = p.survivors k r es := by
  cases es with
  | nil => exact (survivors_nil p k r).symm
  | cons e es => rfl

/-- Settles O20: EMIT is the entry unit's own operation, END sends what is left, and STTAIL writes through the port. -/
theorem entryUnitEmit : Obligations.EntryUnitEmit := by
  refine ⟨fun s thr r errs fn fa fb fc h => ?_, fun s thr r errs fb fc h hl => ?_⟩
  · intro t n ent
    have hc := cancelDue_thrOf h
    refine ⟨fun hn hp hm => ?_, ?_⟩
    · have hdeny : (portOf s thr errs).deny = false := rfl
      have hemit := euExec_emit (t := thrOf s thr) (portOf s thr errs) (s.pipe.isaEnv thr.part thr.pc thr.th r) fn fa fb fc r hn hm
      refine ⟨fun hfull => ?_, fun hroom hb => ?_, fun hroom hb => ?_⟩
      · have ho := nExec_eu (hemit.trans (emitEntry_full (portOf s thr errs) _ _ hfull)) hdeny
        exact onNbu_quiet h rfl hp hc ho
      · have ho := nExec_eu (hemit.trans (emitEntry_joins (portOf s thr errs) _ _ hroom hb)) hdeny
        exact onNbu_quiet h rfl hp hc ho
      · have ho := nExec_eu (hemit.trans (emitEntry_leaves (portOf s thr errs) _ _ hroom hb)) hdeny
        have hx := (onNbu_instr h rfl ho).trans
          (afterOut_sends h hp ((blockLeft_cancel (thrOf s thr) n).trans hc) ((thrOf s thr).block ++ [ent]))
        exact congrArg Host.Outcome.next hx
    · have hx := (onNbu_instr (errs := RawErrs.none) (i := .fin) h rfl rfl).trans (afterOut_ends h _)
      rw [foldl_survivors_rest] at hx
      exact congrArg Host.Outcome.next hx
  · refine congrArg Host.Outcome.next (onNbu_instr h rfl ?_)
    exact if_neg (show ¬ (s.pipe.isaEnv thr.part thr.pc thr.th r).loaded = true from not_true_of_false hl)

end Sys2Proof.Machine
end

section
/-!
PROOF. The instructions of the entry unit of an NBU that answer for a piece and its entries.
-/
namespace Sys2Proof.Machine
open Sys2Proof.Claims

/-! ## The search of ENEXT (R248) -/

theorem enextLoop_found (e : ScoreEnv) (h : PieceHdr) (lth : W32) {k n : Nat} {b : Bank} {m : Nat} {y sc : W32}
    (hx : (enextLoop e h lth k n b).1 = some (m, y, sc)) : n ≤ m ∧ m < n + k := by
  induction k generalizing n b with
  | zero => cases hx
  | succ k ih =>
    unfold enextLoop at hx
    split at hx
    · cases hx
    · dsimp only at hx
      split at hx
      · cases hx
        exact ⟨Nat.le_refl _, by omega⟩
      · have := ih hx
        omega

/-! ## One instruction of the entry unit -/

theorem nExec_guarded (env : IsaEnv) (op : EuOp) (fn fa fb fc : Nat) (r : NbuReq) (t : Thread) (b : Bank) :
    nExec env (.eu op fn fa fb fc) r t b = guarded t (euExec env op fn fa fb fc r t b) := rfl

section
variable (env : IsaEnv) (fn fa fb fc : Nat) (r : NbuReq) (t : Thread) (b : Bank)

/-- An entry that is named below the bound is not past it (R247). -/
theorem named_below {α : Type} {n bound : Nat} (h : n < bound) (loaded : Bool) (x y : α) :
    (if (loaded && decide (n ≥ bound)) = true then x else y) = y := by
  rw [decide_eq_false (Nat.not_le.mpr h), Bool.and_false]
  exact if_neg Bool.false_ne_true

section
variable (h : (t.gr fb).toNat < t.eu.bound)
include h

theorem euExec_escore : euExec env .escore fn fa fb fc r t b =
    nOk ({ t with scanned := t.scanned + 1 }.gw fa
      ((b.score (scoreEnv env t r) (t.eu.hdr.getD PieceHdr.none) (t.gr fb).toNat).2.1 ++
        (b.score (scoreEnv env t r) (t.eu.hdr.getD PieceHdr.none) (t.gr fb).toNat).1))
      (b.score (scoreEnv env t r) (t.eu.hdr.getD PieceHdr.none) (t.gr fb).toNat).2.2 := named_below h _ _ _

theorem euExec_efilt : euExec env .efilt fn fa fb fc r t b =
    nOk (t.gw fa (BitVec.ofNat 64 (b2n
      (b.filterTest (t.eu.hdr.getD PieceHdr.none) env.resident r.fcomb (t.gr fb).toNat r.filt false false).1)))
      (b.filterTest (t.eu.hdr.getD PieceHdr.none) env.resident r.fcomb (t.gr fb).toNat r.filt false false).2 := named_below h _ _ _

theorem euExec_evis : euExec env .evis fn fa fb fc r t b =
    nOk (t.gw fa (BitVec.ofNat 64 (b2n (visible (recBirth (b.record (t.eu.hdr.getD PieceHdr.none) (t.gr fb).toNat).1)
      (recDeath (b.record (t.eu.hdr.getD PieceHdr.none) (t.gr fb).toNat).1) r.repoch))))
      (b.record (t.eu.hdr.getD PieceHdr.none) (t.gr fb).toNat).2 := named_below h _ _ _

theorem euExec_eacc {hd : PieceHdr} (hh : t.eu.hdr.getD PieceHdr.none = hd) (hf : hd.sfmt ≠ 8) : euExec env .eacc fn fa fb fc r t b =
    nOk ({ t with scanned := t.scanned + 1 }.gw fa (BitVec.ofInt 64
      (accumulate (scoreEnv env t r) hd (b.bytesAt (hd.codes + (t.gr fb).toNat * hd.codeb) hd.codeb)).1))
      (b.touch 1 (hd.codes + (t.gr fb).toNat * hd.codeb) hd.codeb) := by
  subst hh
  refine (named_below h _ _ _).trans ?_
  rw [if_neg hf]

end

theorem euExec_epil (h : (t.gr fc).toNat < t.eu.bound) : euExec env .epil fn fa fb fc r t b =
    nOk (t.gw fa (scoreOrder r.neg (entryScore (scoreEnv env t r) (t.eu.hdr.getD PieceHdr.none) (t.gr fb).toInt 0 0
        (b.scaleEntry (t.eu.hdr.getD PieceHdr.none) r.hamm (t.gr fc).toNat).1) ++
      entryScore (scoreEnv env t r) (t.eu.hdr.getD PieceHdr.none) (t.gr fb).toInt 0 0
        (b.scaleEntry (t.eu.hdr.getD PieceHdr.none) r.hamm (t.gr fc).toNat).1))
      (b.scaleEntry (t.eu.hdr.getD PieceHdr.none) r.hamm (t.gr fc).toNat).2 := named_below h _ _ _

theorem euExec_enext {m : Nat} {y sc : W32}
    (hx : (enextLoop (scoreEnv env t r) (t.eu.hdr.getD PieceHdr.none) t.eu.lth (t.eu.bound - (t.gr fb).toNat) (t.gr fb).toNat b).1 =
      some (m, y, sc)) : euExec env .enext fn fa fb fc r t b =
    nOk ({ t with
        scanned := t.scanned + (enextLoop (scoreEnv env t r) (t.eu.hdr.getD PieceHdr.none) t.eu.lth (t.eu.bound - (t.gr fb).toNat)
          (t.gr fb).toNat b).2.1,
        eu := { t.eu with last := sc ++ y } }.gw fa (BitVec.ofNat 64 m))
      (enextLoop (scoreEnv env t r) (t.eu.hdr.getD PieceHdr.none) t.eu.lth (t.eu.bound - (t.gr fb).toNat) (t.gr fb).toNat b).2.2 := by
  unfold euExec
  dsimp only
  generalize enextLoop _ _ _ _ _ b = x at hx ⊢
  obtain ⟨o, c, b'⟩ := x
  cases hx
  rfl

theorem euExec_enext_none
    (hx : (enextLoop (scoreEnv env t r) (t.eu.hdr.getD PieceHdr.none) t.eu.lth (t.eu.bound - (t.gr fb).toNat) (t.gr fb).toNat b).1 =
      none) : euExec env .enext fn fa fb fc r t b =
    nOk ({ t with scanned := t.scanned + (enextLoop (scoreEnv env t r) (t.eu.hdr.getD PieceHdr.none) t.eu.lth
        (t.eu.bound - (t.gr fb).toNat) (t.gr fb).toNat b).2.1 }.gw fa (BitVec.ofNat 64 t.eu.bound))
      (enextLoop (scoreEnv env t r) (t.eu.hdr.getD PieceHdr.none) t.eu.lth (t.eu.bound - (t.gr fb).toNat) (t.gr fb).toNat b).2.2 := by
  unfold euExec
  dsimp only
  generalize enextLoop _ _ _ _ _ b = x at hx ⊢
  obtain ⟨o, c, b'⟩ := x
  cases hx
  rfl

end

/-! ## The instructions that keep a memory of the units fetched (R250) -/

/-- The units fetched last are those given. -/
def NOut.seeing (o : NOut) (x : Tbl Nat) : NOut := { o with th := { o.th with seen := x } }

section
variable {env : IsaEnv} {fn fa fb fc : Nat} {r : NbuReq} {t : Thread} {b : Bank} (ht : t.issued < 4194304)
  (hb : b.bytes = 0) (hf : b.fetched = 0)
include ht hb hf

theorem nIssue_pset : nIssue env (.eu .pset fn fa fb fc) r t b =
    ((guarded { t with issued := t.issued + 1 } (euExec env .pset fn fa fb fc r { t with issued := t.issued + 1 } b)).seeing []).charged := by
  have hlim : ¬ (env.loaded && decide (t.issued ≥ 4194304)) = true := by
    rw [decide_eq_false (Nat.not_le.mpr ht), Bool.and_false]
    exact Bool.false_ne_true
  refine (if_neg hlim).trans ?_
  rw [hb, hf]
  rfl

theorem nIssue_enext {o : NOut}
    (ho : guarded { t with issued := t.issued + 1 } (euExec env .enext fn fa fb fc r { t with issued := t.issued + 1 }
      { b with seen := t.seen }) = o) : nIssue env (.eu .enext fn fa fb fc) r t b = (o.seeing o.bank.seen).charged := by
  have hlim : ¬ (env.loaded && decide (t.issued ≥ 4194304)) = true := by
    rw [decide_eq_false (Nat.not_le.mpr ht), Bool.and_false]
    exact Bool.false_ne_true
  subst ho
  refine (if_neg hlim).trans ?_
  rw [hb, hf]
  rfl

end

theorem guarded_allowed (t : Thread) {o : NOut} (h : o.bank.deny = false) : guarded t o = o := if_neg (not_true_of_false h)

theorem seeing_nOk_gw (t : Thread) (fa : Nat) (v : W64) (b : Bank) (x : Tbl Nat) :
    (nOk (t.gw fa v) b).seeing x = nOk ({ t with seen := x }.gw fa v) b := by
  unfold NOut.seeing nOk Thread.adv Thread.gw
  split <;> rfl

section
variable {s : State} {thr : ThrId} {r : NbuReq} (h : Issues s thr r)
include h

/-- The row of an instruction by its outcome, once what the port charged is charged to the thread. -/
theorem exec_issued {errs : RawErrs} {i : NInstr} {o : NOut}
    (ho : nIssue (s.pipe.isaEnv thr.part thr.pc thr.th r) i r (s.pipe.thread thr.part thr.pc thr.th) (portOf s thr errs) = o.charged) :
    (.next (s.onNbu (nbuInstr thr.part thr.pc thr.th errs i)) : Host.Outcome State Fault Refusal) = .next (afterOut s thr r o) := by
  rw [onNbu_perform h, nbuInstr_issues h, ho]
  rfl

/-- The row of an entry-unit instruction that keeps no memory of units. -/
theorem exec_eu {errs : RawErrs} {op : EuOp} {fn fa fb fc : Nat} (hop : (NInstr.eu op fn fa fb fc).plain = true) {o : NOut}
    (ho : euExec (s.pipe.isaEnv thr.part thr.pc thr.th r) op fn fa fb fc r (thrOf s thr) (portOf s thr errs) = o) :
    (.next (s.onNbu (nbuInstr thr.part thr.pc thr.th errs (.eu op fn fa fb fc))) : Host.Outcome State Fault Refusal) =
      .next (afterOut s thr r (guarded (thrOf s thr) o)) := by
  subst ho
  exact congrArg Host.Outcome.next (onNbu_instr h hop rfl)

end

/-- Settles O19: each instruction is the entry unit's own operation on the thread and its port. -/
theorem entryUnitResults : Obligations.EntryUnitResults := by
  refine ⟨fun s thr r errs fn fa fb fc h => ?_, fun s thr r errs fn fa fb fc h => ?_⟩
  · intro t b hd e n go
    refine ⟨?_, fun hn => ⟨?_, ?_, ?_, fun hf => ?_⟩, fun hm => ?_, fun hp => ⟨?_, ?_⟩⟩
    · exact exec_issued h (nIssue_pset h.2.2.2.2 rfl rfl)
    · exact exec_eu h rfl (euExec_escore _ _ _ _ _ _ _ _ hn)
    · exact exec_eu h rfl (euExec_efilt _ _ _ _ _ _ _ _ hn)
    · exact exec_eu h rfl (euExec_evis _ _ _ _ _ _ _ _ hn)
    · exact exec_eu h rfl (euExec_eacc _ _ _ _ _ _ _ _ hn rfl hf)
    · exact exec_eu h rfl (euExec_epil _ _ _ _ _ _ _ _ hm)
    · exact onNbu_quiet h rfl hp (gw_thrOf_cancel h _ _) rfl
    · have ho : nExec (s.pipe.isaEnv thr.part thr.pc thr.th r) (.eu .ethr fn fa fb fc) r (thrOf s thr) (portOf s thr errs) =
          nOk { t with eu := { t.eu with lth := threshOf ((t.gr fb).setWidth 32) } } (portOf s thr errs) := rfl
      exact onNbu_quiet h rfl hp (cancelDue_thrOf h) ho
  · intro t n x u hd
    refine ⟨fun m y sc hx => ⟨?_, ?_⟩, fun hx => ?_⟩
    · have := enextLoop_found _ _ _ hx
      omega
    · have hg := (congrArg (guarded t) (euExec_enext (s.pipe.isaEnv thr.part thr.pc thr.th r) fn fa fb fc r t
        { portOf s thr errs with seen := t.seen } hx)).trans (guarded_allowed t (o := nOk _ x.2.2) hd)
      exact exec_issued h ((nIssue_enext h.2.2.2.2 rfl rfl hg).trans (congrArg NOut.charged (seeing_nOk_gw _ _ _ _ _)))
    · have hg := (congrArg (guarded t) (euExec_enext_none (s.pipe.isaEnv thr.part thr.pc thr.th r) fn fa fb fc r t
        { portOf s thr errs with seen := t.seen } hx)).trans (guarded_allowed t (o := nOk _ x.2.2) hd)
      exact exec_issued h ((nIssue_enext h.2.2.2.2 rfl rfl hg).trans (congrArg NOut.charged (seeing_nOk_gw _ _ _ _ _)))

end Sys2Proof.Machine
end

section
/-!
PROOF. The standard kernels of an NBU.
-/
namespace Sys2Proof.Machine
open Sys2Proof.Claims

/-! ## The request that a thread runs -/

theorem running_imp {p : Pipe} {k pc th : Nat} {f g : Nat → Bool} {r : NbuReq} (h : p.running k pc th f = some r)
    (hg : f r.kernel = true → g r.kernel = true) : p.running k pc th g = some r := by
  unfold Pipe.running at h ⊢
  split at h
  · cases h
  · rename_i hb
    rw [if_neg hb]
    cases hreq : (p.thread k pc th).req with
    | none =>
      rw [hreq] at h
      cases h
    | some r' =>
      rw [hreq] at h
      dsimp only at h ⊢
      split at h
      · cases h
        rename_i hf
        exact if_pos (hg hf)
      · cases h

theorem running_kernel {p : Pipe} {k pc th : Nat} {f : Nat → Bool} {r : NbuReq} (h : p.running k pc th f = some r) :
    f r.kernel = true := by
  cases hf : f r.kernel with
  | true => rfl
  | false =>
    have hnone := running_imp (g := fun _ => false) h fun ht => hf.symm.trans ht
    unfold Pipe.running at hnone
    split at hnone
    · cases hnone
    · split at hnone <;> cases hnone

/-! ## The kernels -/

/-- The package after a kernel whose result is x: SCAN, BLOCK, POOL and BITMAP. -/
def scanEnds (p : Pipe) (k pc th : Nat) (r : NbuReq) (x : KernelEnd × ScanBuf) : Pipe :=
  (((p.putBank k pc x.1.bank).modThread k pc th (fun t => t.leaves r (p.longPq k pc r) x.2)).survivors k r
    (if x.1.status = .done then x.1.survivors else [])).endReq k pc th
      { endedBy x.1 with count := (if x.1.status = .done then x.1.survivors else []).length }
def blockEnds (p : Pipe) (k pc th : Nat) (r : NbuReq) (x : KernelEnd × List Reply) : Pipe :=
  ((p.putBank k pc x.1.bank).modThread k pc th (fun t =>
    if p.longPq k pc r then t.leaves { r with smax := 512 } true ⟨[], 0⟩ else t)).endReq k pc th
      { endedBy x.1 with count := x.2.length, replies := x.2 }
def poolEnds (p : Pipe) (k pc th : Nat) (r : NbuReq) (x : KernelEnd × List W32) : Pipe :=
  (p.putBank k pc x.1.bank).endReq k pc th { status := x.1.status, count := r.arg1, bytes := x.1.bank.bytes, partial_ := x.2 }
def bitmapEnds (p : Pipe) (k pc th : Nat) (x : KernelEnd × Bool) : Pipe :=
  (p.putBank k pc x.1.bank).endReq k pc th { status := x.1.status, bytes := x.1.bank.bytes, noRoom := !x.2 }

/-! The rows are reduced with a variable for the kernel: an application of the kernel itself would be evaluated by the check. -/

section
variable {p : Pipe} {k pc th : Nat} (errs : RawErrs) {r : NbuReq}

theorem nbuScan_runs (h : p.running k pc th (· == 0) = some r) (hb : p.blocksFull r.home = false) : nbuScan k pc th errs p =
    scanEnds p k pc th r (kernelScan (p.envOf (p.thread k pc th).resident r) th (p.bankOf k pc errs none)) := by
  obtain ⟨K, hK⟩ : ∃ K, K = kernelScan := ⟨_, rfl⟩
  unfold nbuScan
  rw [← hK, h]
  exact if_neg (not_true_of_false hb)

theorem nbuBlock_runs (h : p.running k pc th (· == 1) = some r) : nbuBlock k pc th errs p =
    blockEnds p k pc th r (kernelBlock (p.envOf (p.thread k pc th).resident r) th (p.bankOf k pc errs none)) := by
  obtain ⟨K, hK⟩ : ∃ K, K = kernelBlock := ⟨_, rfl⟩
  unfold nbuBlock
  rw [← hK, h]
  rfl

theorem runKernel_ends (e : KernelEnd) : p.runKernel k pc th e = (p.putBank k pc e.bank).endReq k pc th (endedBy e) := rfl

theorem nbuAppend_runs (h : p.running k pc th (· == 2) = some r) :
    nbuAppend k pc th errs p = p.runKernel k pc th (kernelAppend r (p.bankOf k pc errs none)) := by
  unfold nbuAppend
  rw [h]

theorem nbuStamp_runs (h : p.running k pc th (· == 3) = some r) : nbuStamp k pc th errs p = p.runKernel k pc th
    (kernelStamp r (((p.nbu k pc).links.find? (fun l => l.1 == r.piece)).map (fun l => l.2)) (p.bankOf k pc errs none)) := by
  unfold nbuStamp
  rw [h]

theorem nbuPool_runs (h : p.running k pc th (· == 4) = some r) {tab : PoolTab} (ht : p.poolTab r = some tab) :
    nbuPool k pc th errs p = poolEnds p k pc th r (kernelPool r tab (p.bankOf k pc errs none)) := by
  obtain ⟨K, hK⟩ : ∃ K, K = kernelPool := ⟨_, rfl⟩
  unfold nbuPool
  rw [← hK, h]
  dsimp only
  rw [ht]
  rfl

theorem nbuCompact_runs (h : p.running k pc th (· == 5) = some r) (hd : (kernelCompact r (p.bankOf k pc errs none)).status = .done) :
    nbuCompact k pc th errs p = (p.runKernel k pc th (kernelCompact r (p.bankOf k pc errs none))).modNbu k pc
      (fun n => { n with links := (n.links ++ [(r.piece, r.arg0)]).take 64 }) := by
  obtain ⟨K, hK⟩ : ∃ K, K = kernelCompact := ⟨_, rfl⟩
  unfold nbuCompact
  rw [← hK] at hd ⊢
  rw [h]
  exact if_pos hd

theorem nbuBitmap_runs (h : p.running k pc th (· == 6) = some r) :
    nbuBitmap k pc th errs p = bitmapEnds p k pc th (kernelBitmap r (p.bankOf k pc errs none)) := by
  obtain ⟨K, hK⟩ : ∃ K, K = kernelBitmap := ⟨_, rfl⟩
  unfold nbuBitmap
  rw [← hK, h]
  rfl

theorem nbuScrub_runs (h : p.running k pc th (· == 7) = some r) :
    nbuScrub k pc th errs p = p.runKernel k pc th (kernelScrub r (p.bankOf k pc errs none)) := by
  unfold nbuScrub
  rw [h]

theorem nbuNop_runs (h : p.running k pc th (fun n => decide (n ≥ 8) && (p.thread k pc th).prog.isNone) = some r) :
    nbuNop k pc th p = p.endReq k pc th { status := .nop } := by
  unfold nbuNop
  rw [h]

end

/-- Settles O21: each kernel runs when the thread holds a request of its number. -/
theorem standardKernels : Obligations.StandardKernels := by
  intro s thr errs r kn hs hn hrun k b env long fin plain
  have row : ∀ {f : Pipe → Pipe} {q : Pipe}, f s.pipe = q →
      (.next (s.onNbu f) : Host.Outcome State Fault Refusal) = .next (perform s q) := fun hq =>
    congrArg Host.Outcome.next (((if_pos hn).trans (onPipe_perform hs _)).trans (congrArg (perform s) hq))
  refine ⟨fun hk hb => ?_, fun hk => ?_, fun hk => ?_, fun hk => ?_, fun tab hk ht => ?_, fun hk hd => ?_, fun hk => ?_, fun hk => ?_,
    fun hk hl => ?_⟩
  · subst hk
    have hfull : s.pipe.blocksFull r.home = false := decide_eq_false (Nat.not_le.mpr hb)
    refine (row (nbuScan_runs errs hrun hfull)).trans ?_
    unfold scanEnds
    generalize kernelScan _ _ _ = x
    rfl
  · subst hk
    refine (row (nbuBlock_runs errs hrun)).trans ?_
    unfold blockEnds
    generalize kernelBlock _ _ _ = x
    rfl
  · subst hk
    refine (row (nbuAppend_runs errs hrun)).trans ?_
    rw [runKernel_ends]
  · subst hk
    refine (row (nbuStamp_runs errs hrun)).trans ?_
    rw [runKernel_ends]
  · subst hk
    refine (row (nbuPool_runs errs hrun ht)).trans ?_
    unfold poolEnds
    generalize kernelPool _ _ _ = x
    rfl
  · subst hk
    refine (row (nbuCompact_runs errs hrun hd)).trans ?_
    rw [runKernel_ends]
  · subst hk
    refine (row (nbuBitmap_runs errs hrun)).trans ?_
    unfold bitmapEnds
    generalize kernelBitmap _ _ = x
    rfl
  · subst hk
    refine (row (nbuScrub_runs errs hrun)).trans ?_
    rw [runKernel_ends]
  · refine row (nbuNop_runs (running_imp hrun fun hr => ?_))
    rw [decide_eq_true (show r.kernel ≥ 8 from (beq_iff_eq.mp hr) ▸ hk), Bool.true_and,
      show (s.pipe.thread k thr.pc thr.th).prog = none from Option.not_isSome_iff_eq_none.mp (not_true_of_false hl)]
    rfl

end Sys2Proof.Machine
end

section
/-!
PROOF. Requests of an NBU: taking one, the instructions of a loaded program, images and markers, cancels and the limit.
-/
namespace Sys2Proof.Machine
open Sys2Proof.Claims

theorem Pipe.modNbu_congr {p : Pipe} {k pc : Nat} {f g : Nbu → Nbu} (h : f (p.nbu k pc) = g (p.nbu k pc)) :
    p.modNbu k pc f = p.modNbu k pc g :=
  Pipe.modPart_congr (congrArg (fun n => { p.part k with nbus := (p.part k).nbus.set pc n }) h)

section
variable {p : Pipe} {k pc th : Nat} (hf : p.fenced k = false) (hk : k < 16) (hpc : pc < 64)
include hf hk hpc

/-- The partition, the pseudo-channel and the thread exist, and the partition is not fenced. -/
theorem nbu_present (hth : th < 4) : ¬ (p.fenced k || decide (k ≥ 16) || decide (pc ≥ 64) || decide (th ≥ 4)) = true := by
  rw [hf, decide_eq_false (Nat.not_le.mpr hk), decide_eq_false (Nat.not_le.mpr hpc), decide_eq_false (Nat.not_le.mpr hth)]
  exact Bool.false_ne_true

theorem running_request (hth : th < 4) {r : NbuReq} (hr : (p.thread k pc th).req = some r) {f : Nat → Bool} (h : f r.kernel = true) :
    p.running k pc th f = some r := by
  unfold Pipe.running
  rw [if_neg (nbu_present hf hk hpc hth), hr]
  exact if_pos h

theorem nbuTake_takes (hth : th < 4) {r : NbuReq} (ht : (p.thread k pc th).req = none)
    (hr : (p.nbu k pc).choose (p.markersAt (p.nbu k pc)) th = some r) : nbuTake k pc th p =
      (p.modNbu k pc (fun n => { n with
        queue := n.queue.erase r, threads := setNth n.threads th ((p.thread k pc th).enter r th (pcBytes p.variant64)
          (pcData p.variant64) (n.offset r.kernel) (p.part k).resident (r.kernel ≤ 1 && (p.hdrAt k pc r.piece).sfmt = 8)) })).unblock := by
  unfold nbuTake
  rw [if_neg (nbu_present hf hk hpc hth)]
  dsimp only
  rw [ht, hr]
  exact congrArg Pipe.unblock (Pipe.modNbu_congr rfl)

theorem nbuMarker_rises {src : Nat} (hs : src < 16) (hfs : p.fenced src = false) : nbuMarker k pc src p = p.modNbu k pc (fun n =>
    { n with markers := setNth n.markers src (max (n.markers.getD src 0) (p.part src).pub) }) := by
  refine if_neg ?_
  rw [hf, hfs, decide_eq_false (Nat.not_le.mpr hk), decide_eq_false (Nat.not_le.mpr hpc), decide_eq_false (Nat.not_le.mpr hs)]
  exact Bool.false_ne_true

end

theorem nbuSwitch_switches {p : Pipe} {k pc : Nat} (hf : p.fenced k = false) {i : NbuImage} (hi : (p.nbu k pc).nextImage = some i)
    (hidle : ∀ x ∈ (p.nbu k pc).threads, x.req = none ∨ x.prog = none) :
    nbuSwitch k pc p = p.modNbu k pc (fun n => { n with image := i, nextImage := none }) := by
  have hany : (p.nbu k pc).threads.any (fun t => t.req.isSome && t.prog.isSome) = false := by
    refine List.any_eq_false.mpr fun t ht => ?_
    obtain h | h := hidle t ht
    · rw [h]
      exact Bool.false_ne_true
    · rw [h, Option.isSome_none, Bool.and_false]
      exact Bool.false_ne_true
  unfold nbuSwitch
  dsimp only
  rw [hi, hf, hany]
  exact if_neg Bool.false_ne_true

/-- The thread once a cancel that names a job has reached its NBU (R228, R259). -/
def Thread.told (job : Nat) (t : Thread) : Thread :=
  match t.req with
  | some r => if r.job = job && (r.kernel = 0 || r.kernel = 1 || r.kernel = 4 || t.prog.isSome) && t.cancel.isNone then
      { t with cancel := some (t.fetched, t.issued) } else t
  | none => t

theorem nbuCancel_marks {p : Pipe} {k pc job : Nat} (hf : p.fenced k = false) (hj : p.jobs.get? job = none)
    (hq : ∀ r ∈ (p.nbu k pc).queue, r.job ≠ job) : nbuCancel k pc job p =
      (p.modNbu k pc (fun n => { n with threads := n.threads.map (Thread.told job) })).unblock := by
  have hdead : (p.nbu k pc).queue.filter (fun r => r.job == job && (r.kernel = 0 || r.kernel = 1 || r.kernel = 4)) = [] := by
    refine List.filter_eq_nil_iff.mpr fun r hr => ?_
    rw [beq_eq_false_iff_ne.mpr (hq r hr)]
    exact Bool.false_ne_true
  unfold nbuCancel
  rw [hj, hf]
  refine (if_neg Bool.false_ne_true).trans ?_
  dsimp only
  rw [hdead]
  have hkeep : (p.nbu k pc).queue.filter (fun r => !([] : List NbuReq).contains r) = (p.nbu k pc).queue :=
    List.filter_eq_self.mpr fun _ _ => rfl
  exact congrArg Pipe.unblock (Pipe.modNbu_congr 
    (congrArg (fun q => { p.nbu k pc with queue := q, threads := (p.nbu k pc).threads.map (Thread.told job) }) hkeep))

theorem not_isNone_of_isSome {α : Type} {o : Option α} (h : o.isSome = true) : ¬ o.isNone = true := by
  rw [← Option.not_isSome, h]
  exact Bool.false_ne_true

/-! ## Cancelled requests and the instruction limit (R228, R257, R259) -/

section
variable {p : Pipe} {k pc th : Nat} {r : NbuReq}

theorem nbuProgram_one (errs : RawErrs) (h : p.running k pc th (fun _ => (p.thread k pc th).prog.isSome) = some r) :
    nbuProgram k pc th errs 1 p = p.afterInstr k pc th r (nFetchIssue (p.isaEnv k pc th r) (p.nbu k pc).image r (p.thread k pc th)
      (p.bankOf k pc errs (some th))) := by
  unfold nbuProgram
  rw [h]
  rfl

theorem nbuLimit_traps (h : p.running k pc th (fun _ => (p.thread k pc th).prog.isSome) = some r)
    (hi : 4194304 ≤ (p.thread k pc th).issued) : nbuLimit k pc th p = p.trapReq k pc th .limit := by
  unfold nbuLimit
  rw [h]
  exact if_pos hi

variable (h : p.running k pc th (fun _ => true) = some r) (hc : (p.thread k pc th).cancel.isSome = true)
include h hc

theorem nbuCancelled_program (m : Nat) (hp : (p.thread k pc th).prog.isSome = true) (hd : (p.thread k pc th).cancelDue = true) :
    nbuCancelled k pc th m p = p.endReq k pc th
      { status := .cancelled, count := (p.thread k pc th).sent, scanned := (p.thread k pc th).scanned,
        tailRead := (p.thread k pc th).tailRead, bytes := (p.thread k pc th).bytes } := by
  unfold nbuCancelled
  rw [h]
  refine (if_neg (not_isNone_of_isSome hc)).trans ((if_pos hp).trans (if_neg ?_))
  rw [hd]
  exact Bool.false_ne_true

theorem nbuCancelled_kernel {m : Nat} (hp : (p.thread k pc th).prog.isSome = false) {x : Nat × Nat × Bank}
    (hx : p.haltedAt k pc th r { p.bankOf k pc RawErrs.none none with stop := some (4096 * m) } = x) (hh : x.2.2.halted = true)
    (hu : x.2.2.ue = false) : nbuCancelled k pc th m p = (p.putBank k pc x.2.2).endReq k pc th
      { status := .cancelled, scanned := x.1, tailRead := x.2.1, bytes := 4096 * m + (x.2.2.bytes - x.2.2.fetched) } := by
  obtain ⟨H, hH⟩ : ∃ H, H = Pipe.haltedAt := ⟨_, rfl⟩
  unfold nbuCancelled
  rw [← hH] at hx ⊢
  rw [h]
  refine (if_neg (not_isNone_of_isSome hc)).trans ((if_neg (not_true_of_false hp)).trans ?_)
  rw [hx]
  refine if_neg ?_
  rw [hh, hu]
  exact Bool.false_ne_true

end

/-- Settles O24: each row is the NBU's own operation on an NBU that is there. -/
theorem nbuRequests : Obligations.NbuRequests := by
  intro s k pc th hs hn hk hpc hth hf n t thr
  have row : ∀ {f : Pipe → Pipe} {q : Pipe}, f s.pipe = q → s.onNbu f = perform s q := fun hq =>
    ((if_pos hn).trans (onPipe_perform hs _)).trans (congrArg (perform s) hq)
  have quiet : ∀ {f : Pipe → Pipe} {q : Pipe}, f s.pipe = q → q.out = [] → s.onNbu f = withPipe s q := fun hq ho =>
    (row hq).trans (perform_quiet ho)
  have hrun : ∀ {r}, t.req = some r → ∀ {f : Nat → Bool}, f r.kernel = true → s.pipe.running k pc th f = some r :=
    fun hr => running_request hf hk hpc hth hr
  refine ⟨fun r hd ht hr => ?_, fun r errs hr hl => ?_, fun i hi hidle => ?_, fun src hd hsrc hfs => ?_, fun job hj hq => ?_,
    fun r m hr hc => ⟨fun hl hdue => ?_, ?_⟩, fun r hr hl hi => ?_⟩
  · exact congrArg Host.Outcome.next ((if_pos hd).trans (row (nbuTake_takes hf hk hpc hth ht hr)))
  · exact congrArg Host.Outcome.next (row (nbuProgram_one errs (hrun hr hl)))
  · exact congrArg Host.Outcome.next (quiet (nbuSwitch_switches hf hi hidle) hs.2)
  · exact congrArg Host.Outcome.next ((if_pos hd).trans (quiet (nbuMarker_rises hf hk hpc hsrc hfs) hs.2))
  · exact congrArg Host.Outcome.next (row (nbuCancel_marks hf hj hq))
  · exact congrArg Host.Outcome.next (row (nbuCancelled_program (hrun hr rfl) hc m hl hdue))
  · intro x hl hh hu
    exact congrArg Host.Outcome.next (row (nbuCancelled_kernel (hrun hr rfl) hc hl rfl hh hu))
  · exact congrArg Host.Outcome.next (row (nbuLimit_traps (hrun hr hl) hi))

end Sys2Proof.Machine
end

section
/-!
PROOF. Walks of a graph query: their start, a hop, and the slot of a page.
-/
namespace Sys2Proof.Machine
open Sys2Proof.Claims

theorem needFor_here {p : Pipe} {l : List PageId} (j : Nat) (h : p.pagesHere l = true) : p.needFor j l = none := if_pos h

section
variable (p : Pipe) (us : List (Nat × Bool))

@[simp] theorem Pipe.rawErrors_walks : (p.rawErrors us).walks = p.walks := by
  unfold Pipe.rawErrors
  split <;> rfl

@[simp] theorem Pipe.rawErrors_jobAt (j : Nat) (ph : Phase) : (p.rawErrors us).jobAt j ph = p.jobAt j ph := by
  unfold Pipe.rawErrors
  split <;> rfl

@[simp] theorem Pipe.rawErrors_idxOf (jb : Job) : (p.rawErrors us).idxOf jb = p.idxOf jb := by
  unfold Pipe.rawErrors
  split <;> rfl

end

section
variable {p : Pipe} {w : Nat} {wk : Walk} (hw : p.walks.get? w = some wk)
include hw

/-! ## The start of a walk (R326 to R329, R339) -/

section
variable {jb : Job} {x : IdxCopy} {p0 : Pipe} (hs : wk.started = false) (hf : p.fenced wk.core = false)
  (hj : p.jobAt wk.job .walking = some jb) (hx : p.idxOf jb = some x) (hh : p.pagesHere (p.headPages x (wk.parts ++ wk.lost)) = true)
  (hr : p.readFor wk.job (p.headUnits x (wk.parts ++ wk.lost)) = (p0, true))
include hs hf hj hx hh hr

theorem walkStart_lost (hp : wk.parts = []) : walkStart w p = p0.countLost w wk x := by
  have hgo : ¬ (false || false || (!wk.parts.isEmpty && !p.mayStart w wk)) = true := by
    rw [hp]
    exact Bool.false_ne_true
  unfold walkStart
  rw [hw]
  dsimp only
  rw [hj]
  dsimp only
  rw [hx]
  dsimp only
  rw [hs, hf, if_neg hgo, needFor_here _ hh]
  dsimp only
  rw [hr]
  refine (if_neg Bool.false_ne_true).trans (if_pos ?_)
  rw [hp]
  rfl

/-- The walk has taken its slot, and waits no more. -/
def Pipe.beginWalk (p1 : Pipe) (w : Nat) (wk : Walk) (slot : Nat) : Pipe :=
  (((p1.modPart wk.core (fun q => { q with walkWait := q.walkWait.erase w })).modWalk w
    (fun v => { v with started := true, slot := some slot, req := wk.req })).useWalk w).showWalk w

theorem walkStart_begins {p1 : Pipe} {slot : Nat} (hp : wk.parts ≠ []) (hm : p.mayStart w wk = true) (hz : jb.mode ≠ 1)
    {ss : List (Nat × List (Nat × Nat × Nat) × List (Nat × Nat))} (hss : wk.parts.map (fun k => (k, p0.starts x k)) = ss)
    (hh0 : p0.pagesHere (ss.flatMap (fun y => p0.startPages y.1 y.2)) = true) (ht : p0.takeSlot wk.core = some (p1, slot)) :
    walkStart w p = ss.foldl (fun (p : Pipe) y => y.2.2.foldl (fun (p : Pipe) f => p.issueFringe w x y.1 f.1 f.2) p)
      (ss.foldl (fun (p : Pipe) y => y.2.1.foldl (fun (p : Pipe) b => p.issueBlock w x y.1 b.1 b.2.1 b.2.2 f32PosInf) p)
        (p1.beginWalk w wk slot)) := by
  subst hss
  have hne : ¬ wk.parts.isEmpty = true := fun h => hp (List.isEmpty_iff.mp h)
  have hgo : ¬ (false || false || (!wk.parts.isEmpty && !true)) = true := by
    rw [Bool.not_true, Bool.and_false]
    exact Bool.false_ne_true
  unfold walkStart
  rw [hw]
  dsimp only
  rw [hj]
  dsimp only
  rw [hx]
  dsimp only
  rw [hs, hf, hm, if_neg hgo, needFor_here _ hh]
  dsimp only
  rw [hr]
  refine (if_neg Bool.false_ne_true).trans ((if_neg hne).trans ?_)
  dsimp only
  rw [needFor_here _ hh0]
  dsimp only
  rw [ht]
  dsimp only
  rw [if_neg hz]
  rfl

end

/-! ## A hop (R330 to R334) -/

section
variable {jb : Job} {x : IdxCopy} (hs : wk.started = true) (he : wk.ended = false) (hb : wk.blocksOut = 0)
  (hl : wk.slot.isSome = true) (hf : p.fenced wk.core = false) (hj : p.jobAt wk.job .walking = some jb) (hx : p.idxOf jb = some x)
include hs he hb hl hf hj hx

/-- The walk with the replies taken, its page in use, and the nodes that it admits handed over. -/
def Pipe.takeHop (p : Pipe) (w : Nat) (y : Walk × List (W32 × Nat × Nat)) : Pipe :=
  (((p.modWalk w (fun _ => y.1)).useWalk w).showWalk w).admitNodes w y.2

theorem walkHop_hops {y : Walk × List (W32 × Nat × Nat)} (hy : wk.takeReplies (negMetric jb.metric) (jb.beamOf x) = y)
    (hh : ∀ b, y.1.beam.find? (fun b => !b.expanded) = some b → y.1.hop < jb.hopsOf x → p.pagesHere (p.expandPages x y.1 b) = true) :
    walkHop w p = if jb.abort then (p.takeHop w y).endJob wk.job stABORTED none else (p.takeHop w y).expand w y.1 jb x := by
  have hgo : ¬ (!true || false || decide (0 > 0) || wk.slot.isNone || false) = true := by
    rw [← Option.not_isSome, hl]
    exact Bool.false_ne_true
  unfold walkHop
  rw [hw]
  dsimp only
  rw [hj]
  dsimp only
  rw [hx]
  dsimp only
  rw [hs, he, hb, hf, if_neg hgo, hy]
  rw [needFor_here]
  · rfl
  · split
    · rename_i b hbeam
      split
      · rfl
      · rename_i hhop
        exact hh b hbeam (Nat.not_le.mp hhop)
    · rfl

end

theorem walkPageLoad_loads {p1 : Pipe} {slot : Nat} (hs : wk.started = true) (hb : wk.blocksOut = 0) (hl : wk.slot = none)
    (hf : p.fenced wk.core = false) (ht : p.takeSlot wk.core = some (p1, slot)) : walkPageLoad w p =
      (((p1.modWalk w (fun v => { v with slot := some slot })).useWalk w).showWalk w).count wk.core 0 2 71680 := by
  unfold walkPageLoad
  rw [hw]
  dsimp only
  rw [hs, hb, hl, hf, ht]
  exact if_neg Bool.false_ne_true

end

/-- Settles O25: each row is the walk's own operation once what it needs is there. -/
theorem walkerRows : Obligations.WalkerRows := by
  intro s w wk hs hw hc
  have row : ∀ {f : Pipe → Pipe} {q : Pipe}, f s.pipe = q →
      (.next (s.onWalk w f) : Host.Outcome State Fault Refusal) = .next (perform s q) := fun {f q} hq => by
    unfold State.onWalk
    rw [hw]
    exact congrArg Host.Outcome.next ((onCore_perform hc f).trans (congrArg (perform s) hq))
  have hf : s.pipe.fenced wk.core = false := hc.2.2.2
  refine ⟨fun jb x p0 hst hj hx hh hr => ⟨fun hp => ?_, fun p1 slot hp hm hz => ?_⟩, fun raw jb x hst he hb hl hj hx => ?_,
    fun p1 slot hst hb hl ht => ?_⟩
  · exact row (walkStart_lost hw hst hf hj hx hh hr hp)
  · intro ss hh0 ht
    exact row (walkStart_begins hw hst hf hj hx hh hr hp hm hz rfl hh0 ht)
  · intro q next adm hh
    have hop := walkHop_hops (p := s.pipe.rawErrors raw) ((congrArg (fun t => t.get? w) (Pipe.rawErrors_walks _ _)).trans hw) hst he hb hl
      ((Pipe.rawErrors_fenced _ _ _).trans hf) ((Pipe.rawErrors_jobAt _ _ _ _).trans hj) ((Pipe.rawErrors_idxOf _ _ _).trans hx) rfl hh
    exact ⟨fun ha => row (hop.trans (if_neg (not_true_of_false ha))), fun ha => row (hop.trans (if_pos ha))⟩
  · exact row (walkPageLoad_loads hw hst hb hl hf ht)

end Sys2Proof.Machine
end
